-- ==== Sys2Proof/Word.lean ====
section
/-!
DEFINITION. The words of the part: the sector, the unit, the nonce, a key and a tweak.
Section 3.1 of 00_scope.md: sizes are sectors of 512 bytes and units of 8 sectors; section 3.2: addresses, units, laps
and clock values are whole numbers, so they are `Nat` everywhere else.
-/

namespace Sys2Proof

/-- A sector of 512 bytes (00_scope.md 3.1). Byte k stands at bits 8k … 8k+7, so a little-endian field of a layout of
section 11.9 is a run of bits. -/
abbrev Sector := BitVec 4096

/-- A protection unit: eight sectors, 4096 bytes (00_scope.md 4, R129). -/
abbrev UnitData := Vector Sector 8

/-- The 8-byte nonce of the control window (R196). -/
abbrev Nonce := BitVec 64

/-- A title key. No sector and no signal shows any of its bits (R4), so a key is known by the draw of the key generator
that gave it (R133): keys of two draws are two keys. -/
structure Key where
  draw : Nat
  deriving DecidableEq, Repr, Inhabited

/-- The tweak of a job: title number, sequence and unit (R130). -/
structure Tweak where
  title : Nat
  seq : Nat
  unit : Nat
  deriving DecidableEq, Repr, Inhabited

/-- Sector of zeros. -/
def Sector.zero : Sector := 0#4096

/-- Unit of zeros (R61, R97). -/
def UnitData.zero : UnitData := Vector.replicate 8 0#4096

end Sys2Proof
end

