-- ==== Sys2Proof/Syntax.lean ====
section
/-!
DEFINITION. The commands: one constructor per row of spec/opcode_table.json, and the types of their operands.

A row is one whole, indivisible step of the part (95_what_each_step_holds.md). The operands are what comes from outside
with the event: the host's tag, range and data, the drive's tag, status and data. The twenty control commands and
UNKNOWN_COMMAND_CODE carry no operand of their own: the record they act on is the one that UNIT_TAKEN handed to the
control window (R193), a 512-byte sector in the layout of section 11.9.
-/

namespace Sys2Proof

/-- The tag of a host command as the host gives it: a queued tag 0 … 31, or a non-queued command (R71, R73). -/
inductive HostTag where
  | queued (n : Fin 32)
  | immediate
  deriving DecidableEq, Repr, Inhabited

/-- A service tag: n stands for drive tag 28 + n and for service frame n (R115, R149). -/
abbrev SvcTag := Fin 4

/-- A run of sectors: first LBA and length (R71). -/
structure Range where
  lba : Nat
  len : Nat
  deriving DecidableEq, Repr, Inhabited

/-- The data a passed-through command moves: none, sectors from the drive, or sectors to the drive (R91). -/
inductive PassData where
  | none
  | toHost (sectors : Nat)
  | toDrive (sectors : Nat)
  deriving DecidableEq, Repr, Inhabited

/-- The drive's identity, as far as the part looks at it (R204, R90), and the sector it came in. -/
structure Identity where
  capacity : Nat
  queued : Bool
  depth : Nat
  sector : Sector
  deriving DecidableEq, Repr, Inhabited

/-- Copy class of a title (R3). -/
inductive CopyClass where
  | free
  | once
  | never
  deriving DecidableEq, Repr, Inhabited

/-- State field of a title record (R145). -/
inductive RecState where
  | empty
  | recording
  | sealed
  | moving
  deriving DecidableEq, Repr, Inhabited

/-- One entry of the extent list of a title record (R145). -/
structure RecExtent where
  start : Nat
  len : Nat
  first : Nat
  deriving DecidableEq, Repr, Inhabited

/-- The clear part of a title record (R145). -/
structure TitleClear where
  marker : Bool
  epoch : Nat
  index : Nat
  gen : Nat
  deriving DecidableEq, Repr, Inhabited

/-- The sealed fields of a title record, its check value apart (R145). The extent count is the length of the list. -/
structure TitleFields where
  state : RecState
  cls : CopyClass
  expiry : Option Nat
  nextUnit : Nat
  extents : List RecExtent
  key : Option Key
  lastChanger : Nat
  deriving DecidableEq, Repr, Inhabited

/-- What a title record's check value was computed over, under the root key (R145). -/
structure TitleCheck where
  clear : TitleClear
  fields : TitleFields
  deriving DecidableEq, Repr, Inhabited

/-- The sealed part of a title record on the disk: whether it was sealed whole under this part's root key, under which
tweak, and what it then holds (R145, R129). A seal that was written only in part is `ours = false`. -/
structure TitleSeal where
  ours : Bool
  tweak : Tweak
  fields : TitleFields
  check : TitleCheck
  deriving DecidableEq, Repr, Inhabited

/-- The clear part of the area header (R143). -/
structure HeaderClear where
  marker : Bool
  epoch : Nat
  capacity : Nat
  deriving DecidableEq, Repr, Inhabited

/-- The sealed part of the area header: the check value, known by the clear fields it was computed over (R143). -/
structure HeaderSeal where
  ours : Bool
  tweak : Tweak
  check : HeaderClear
  deriving DecidableEq, Repr, Inhabited

/-- A catalogue unit as it stands on the disk (R143, R145). Catalogue records are described by their fields only
(00_scope.md 2.2), so the sealed part is held as the fields it opens to and the tweak that opens it. -/
inductive DiskUnit where
  | header (clear : HeaderClear) (body : HeaderSeal)
  | title (clear : TitleClear) (body : TitleSeal)
  deriving DecidableEq, Repr, Inhabited

/-- The commands of the part, in the order of spec/opcode_table.json. -/
inductive Instr where
  | hardReset
  | resetRelease
  | hostLinkReset
  /-- The drive's answer to the identity read; `none` when the drive fails the read. -/
  | driveIdentity (answer : Option Identity)
  | startUpLimit
  | tick
  | windowDeadline
  /-- The timer of the command on this service tag runs out. -/
  | serviceTimer (tag : SvcTag)
  | driveLinkResetEnd
  | linkResetNoAnswer
  | holdLimit
  /-- The drive completes the pass-through command of this host tag with an error, with its failing LBA if it names one. -/
  | driveError (tag : HostTag) (lba : Option Nat)
  | errorRecordRead
  | errorRecordTimeout
  | driveIssue
  | hostRead (tag : HostTag) (lba count : Nat)
  | hostWrite (tag : HostTag) (lba count : Nat)
  | deallocate (tag : HostTag)
  /-- The range sector of the deallocate in hand: up to 64 entries, length 0 ones included. -/
  | deallocateRangeSector (ranges : List Range)
  | flush (tag : HostTag)
  | identify (tag : HostTag)
  /-- A power, feature, health or log command: its words, and the data it moves. -/
  | pass (tag : HostTag) (words : Nat) (data : PassData)
  /-- A command of the kinds R74 refuses, with its range if it names one. -/
  | capacityRefusedCommand (tag : HostTag) (range : Option Range)
  /-- The first sector of the next unit of this tag's drive command reaches the part. -/
  | drivePushUnit (tag : HostTag)
  /-- The last sector the run holds of the unit being pushed arrives: all the sectors of the transfer, in LBA order. -/
  | unitReceived (data : List Sector)
  | readRunComplete (tag : HostTag)
  | mergeReadComplete (tag : HostTag)
  | writeRunComplete (tag : HostTag)
  | driveFlushComplete (tag : HostTag) (good : Bool)
  | deallocateComplete (tag : HostTag) (good : Bool)
  | passComplete (tag : HostTag) (good : Bool)
  /-- The drive asks for the next unit of this tag's write. -/
  | drivePullUnit (tag : HostTag)
  | unitPulled
  /-- The last host sector of the unit on the host link arrives: all the host's sectors of it, in LBA order. -/
  | unitTaken (data : List Sector)
  | unitDelivered
  | hostTransferEnd
  | jobEnd (lane : Fin 2)
  /-- The read on this service tag completes; `none` when the drive fails it. -/
  | serviceReadComplete (tag : SvcTag) (unit : Option DiskUnit)
  | serviceWriteComplete (tag : SvcTag) (good : Bool)
  | controlTurn
  | unknownCommandCode
  | createTitle
  | openTitle
  | createRing
  | attach
  | sealTitle
  | sync
  | close
  | delete
  | setRights
  | ringEmpty
  | resumeTitle
  | moveBegin
  | moveCommit
  | moveCancel
  | setClock
  | setPolicy
  | clearEvents
  | resume
  | format
  | sweep
  | hostLinkReturn
  deriving DecidableEq, Repr, Inhabited

end Sys2Proof
end

