-- ==== Sys2Proof/Config.lean ====
section
/-!
DEFINITION. What one part fixes, and the values the manual leaves open. A constant with no body is a free value: nothing
can be proved of it but what its type says (notes/assumptions say why each is free).
-/

namespace Sys2Proof

/-- The unit transform (R129): for each key and each tweak a permutation of the unit contents; the encrypt direction is
the map, the decrypt direction its inverse. The cipher itself is not specified (00_scope.md 2.1). -/
opaque Config.transform : Key → Tweak → Equiv.Perm UnitData

/-- What a lane makes of a unit when its job's key generation is on neither key of the slot. R131 says that this does
not arise; it is free, so that no statement can rest on it. -/
opaque Config.unkeyed : Tweak → UnitData → UnitData

/-- The nonce that the n-th draw of the key generator gives (R133, R196). -/
opaque Config.nonce : Nat → Nonce

/-- The format epoch that the n-th draw of the key generator gives, less one (R161: a value in 1 … 65,535). -/
opaque Config.epochDraw : Nat → Fin 65535

/-- The layout of an identity sector: which sector spells given identity fields. The disk protocol gives it, the manual
does not (00_scope.md 2.1), so it is a free one-to-one code: `identityField` of Machine/Operands.lean says which fields a
sector spells (notes/assumptions/17.md). -/
opaque Config.identityLayout : Equiv.Perm Sector

/-- The time remaining of an alarm window at the n-th service of the part status sector, before it is brought within the
window (R177). Milliseconds pass without any command of the table. -/
opaque Config.msRemaining : Nat → Nat

/-- How many sectors of a WINDOW_READ unit more have gone to the host by the end of a step. The time that a sector takes is
not in the table's rows (R82, notes/assumptions/11.md). -/
opaque Config.sectorsGone : Nat → Nat

/-! ### The authorisation code (R197) -/

/-- Byte k of bytes 0 … 479 of a record. -/
def coveredByte (x : BitVec 3840) (k : Fin 480) : BitVec 8 := x.extractLsb' (8 * k.val) 8

/-- The bytes that section 11.9 lists for the records of authorised commands: the request number, the code, the slot, the
nonce and every parameter. They are as many as the code has, 32. -/
def listedByte (k : Fin 480) : Bool :=
  decide (k.val < 6) || (decide (8 ≤ k.val) && decide (k.val < 30)) || (decide (32 ≤ k.val) && decide (k.val < 36))

/-- y is x with bytes changed, all of them among p. -/
def ChangedIn (p : Fin 480 → Prop) (x y : BitVec 3840) : Prop := x ≠ y ∧ ∀ k, ¬ p k → coveredByte x k = coveredByte y k

/-- What R197 says of the authorisation code: one code is correct for given bytes 0 … 479, and a change to any of them
changes it. No code of 32 bytes differs for every two contents of 480 bytes, so the model takes the rule for a change of one
byte, whichever it is, and for any change within the bytes listed (notes/assumptions/42.md). -/
structure AuthCode where
  code : BitVec 3840 → BitVec 256
  byteChanged : ∀ (k : Fin 480) (x y : BitVec 3840), ChangedIn (· = k) x y → code x ≠ code y
  fieldChanged : ∀ x y : BitVec 3840, ChangedIn (listedByte · = true) x y → code x ≠ code y

/-- A code that shows that there is one: byte k of the record is folded into this byte of the code. -/
def foldByte (k : Fin 480) : Nat :=
  if k.val < 32 then k.val else if k.val = 32 then 6 else if k.val = 33 then 7 else if k.val = 34 then 30 else 31

/-- Bit i of the folded code: the parity of the bits that go there. -/
def foldBit (x : BitVec 3840) (i : Fin 256) : ZMod 2 :=
  ∑ k : Fin 480, if foldByte k = i.val / 8 ∧ (coveredByte x k).getLsbD (i.val % 8) = true then 1 else 0

/-- The folded code. -/
def foldCode (x : BitVec 3840) : BitVec 256 := BitVec.ofFnLE fun i => decide (foldBit x i = 1)

/-- A change within bytes that go to different bytes of the code changes it. -/
theorem foldCode_ne (p : Fin 480 → Prop) (hp : ∀ j k, p j → p k → foldByte j = foldByte k → j = k) (x y : BitVec 3840)
    (h : ChangedIn p x y) : foldCode x ≠ foldCode y := by
  obtain ⟨hne, hag⟩ := h
  intro he
  apply hne
  apply BitVec.eq_of_getLsbD_eq
  intro b hb
  let k : Fin 480 := ⟨b / 8, by omega⟩
  have hbit (z : BitVec 3840) : z.getLsbD b = (coveredByte z k).getLsbD (b % 8) := by
    have h8 : b % 8 < 8 := by omega
    have e : 8 * (b / 8) + b % 8 = b := by omega
    simp [coveredByte, k, h8, e]
  by_cases hk : p k
  · have hc : foldByte k < 32 := by unfold foldByte; split_ifs <;> omega
    let i : Fin 256 := ⟨8 * foldByte k + b % 8, by omega⟩
    have hi1 : i.val / 8 = foldByte k := by simp only [i]; omega
    have hi2 : i.val % 8 = b % 8 := by simp only [i]; omega
    have hs (z : BitVec 3840) : foldBit z i = (if (coveredByte z k).getLsbD (b % 8) = true then 1 else 0) +
        ∑ j ∈ Finset.univ.erase k,
          if foldByte j = foldByte k ∧ (coveredByte z j).getLsbD (b % 8) = true then (1 : ZMod 2) else 0 := by
      unfold foldBit
      rw [← Finset.add_sum_erase _ _ (Finset.mem_univ k)]
      simp only [hi1, hi2, true_and]
    have hr : (∑ j ∈ Finset.univ.erase k,
          if foldByte j = foldByte k ∧ (coveredByte x j).getLsbD (b % 8) = true then (1 : ZMod 2) else 0) =
        ∑ j ∈ Finset.univ.erase k,
          if foldByte j = foldByte k ∧ (coveredByte y j).getLsbD (b % 8) = true then (1 : ZMod 2) else 0 := by
      refine Finset.sum_congr rfl fun j hj => ?_
      by_cases hc : foldByte j = foldByte k
      · have : ¬ p j := fun hpj => (Finset.ne_of_mem_erase hj) (hp j k hpj hk hc)
        rw [hag j this]
      · simp [hc]
    have hf : foldBit x i = 1 ↔ foldBit y i = 1 := by
      have := congrArg (fun z => BitVec.getLsbD z i.val) he
      simpa [foldCode] using this
    rw [hs, hs, hr] at hf
    rw [hbit, hbit]
    revert hf
    generalize (∑ j ∈ Finset.univ.erase k,
          if foldByte j = foldByte k ∧ (coveredByte y j).getLsbD (b % 8) = true then (1 : ZMod 2) else 0) = S
    cases (coveredByte x k).getLsbD (b % 8) <;> cases (coveredByte y k).getLsbD (b % 8) <;> simp <;> revert S <;> decide
  · rw [hbit, hbit, hag k hk]

/-- The listed bytes go to different bytes of the code. -/
theorem fold_listed (j k : Fin 480) (hj : listedByte j = true) (hk : listedByte k = true)
    (h : foldByte j = foldByte k) : j = k := by
  simp only [listedByte, Bool.or_eq_true, Bool.and_eq_true, decide_eq_true_eq] at hj hk
  unfold foldByte at h
  apply Fin.ext
  split_ifs at h <;> omega

/-- There is such a code, so that the constant below stands for one. -/
def foldAuthCode : AuthCode where
  code := foldCode
  byteChanged _ := foldCode_ne _ (fun _ _ hi hj _ => hi.trans hj.symm)
  fieldChanged := foldCode_ne _ fold_listed

/-- The code under the fused control key, whichever it is. Its argument says no more than that there is one. -/
opaque Config.controlCode [Inhabited AuthCode] : AuthCode

/-- The authorisation code of bytes 0 … 479 of a record under the fused control key (R197). -/
def Config.authCode : BitVec 3840 → BitVec 256 := (@Config.controlCode ⟨foldAuthCode⟩).code

/-- A change of one covered byte changes the code (R197). -/
theorem Config.authCode_byteChanged (k : Fin 480) {x y : BitVec 3840} (h : ChangedIn (· = k) x y) :
    Config.authCode x ≠ Config.authCode y := AuthCode.byteChanged _ k x y h

/-- A change within the listed bytes changes the code (R197). -/
theorem Config.authCode_fieldChanged {x y : BitVec 3840} (h : ChangedIn (listedByte · = true) x y) :
    Config.authCode x ≠ Config.authCode y := AuthCode.fieldChanged _ x y h

/-! ### Sizes and limits -/

/-- The smallest drive capacity the part takes (R204). -/
def Config.smallestDrive : Nat := 2097152

/-- The sectors of the hidden area (R142). -/
def Config.hiddenSectors : Nat := 8192

/-- The sectors of the control window (R192). -/
def Config.windowSectors : Nat := 16

/-- The most extents in the map, and the most in one title (R32). -/
def Config.mapLimit : Nat := 512
def Config.titleExtents : Nat := 120

/-- The most logical units one recording ever attaches, 2^26 (R33). -/
def Config.unitLimit : Nat := 67108864

/-- The highest value of the rights clock and of other 32-bit counts (R166, R147, R198). -/
def Config.maxCount32 : Nat := 4294967295

/-- The highest lap, key generation, epoch, refusal number and violation count (R52, R15, R145, R189, R177). -/
def Config.maxCount16 : Nat := 65535

/-- The most sectors in one host command and in one run (R71, R79). -/
def Config.maxSectors : Nat := 65536

/-- Pieces in one command (R43), shared frames (R114), frames of one command (R114), units of intake ahead (R83). -/
def Config.maxPieces : Nat := 4
def Config.sharedFrames : Nat := 60
def Config.framesPerCommand : Nat := 8
def Config.intakeAhead : Nat := 8

end Sys2Proof
end

