-- ==== Sys2Proof/Machine/State.lean ====
section
/-!
DEFINITION. The state of the part as plain data, block by block (00_scope.md 1.2), the state after a hard reset, and the
reasons a step can stop.
-/

namespace Sys2Proof.Machine

/-- A title slot, 0 … 7 (R4). -/
abbrev SlotIx := Fin 8

/-! ### Titles and title slots (chapter 1) -/

/-- Slot phase (R4). -/
inductive SlotPhase where
  | idle
  | loading
  | active
  | draining
  | storing
  | erasing
  deriving DecidableEq, Repr, Inhabited

/-- Drain reason (R4). -/
inductive DrainReason where
  | closed
  | deleted
  | expired
  | moved
  deriving DecidableEq, Repr, Inhabited

/-- Kind of title (R1). -/
inductive TitleKind where
  | recording
  | ring
  deriving DecidableEq, Repr, Inhabited

/-- Persistent state of a title (R2). -/
inductive TitleState where
  | recording
  | sealed
  | moving
  deriving DecidableEq, Repr, Inhabited

/-- A retired key with its generation and reference count (R4, R16). -/
structure Retired where
  key : Key
  gen : Nat
  refs : Nat
  deriving DecidableEq, Repr, Inhabited

/-- One segment entry of a ring (R52). -/
structure Segment where
  lap : Nat := 0
  firstWrite : Option Nat := none
  stamp : Nat := 0
  deriving DecidableEq, Repr, Inhabited

/-- The ring fields of a slot (R52). -/
structure Ring where
  size : Nat
  g : Nat
  m : Nat
  head : Option Nat := none
  lapCounter : Nat := 0
  retention : Nat
  segs : List Segment
  deriving DecidableEq, Repr, Inhabited

/-- A title slot (R4), with the ring fields of R52 while it holds a ring. The defaults are the IDLE values of R4. -/
structure TitleSlot where
  number : Option Nat := none
  phase : SlotPhase := .idle
  drain : Option DrainReason := none
  kind : Option TitleKind := none
  state : Option TitleState := none
  cls : Option CopyClass := none
  expiry : Option Nat := none
  nextUnit : Nat := 0
  extentCount : Nat := 0
  key : Option Key := none
  gen : Option Nat := none
  retired : Option Retired := none
  inFlight : Nat := 0
  halted : Bool := false
  dirty : Bool := false
  storeInFlight : Bool := false
  lastChanger : Nat := 0
  ring : Option Ring := none
  deriving DecidableEq, Repr, Inhabited

/-- The values a slot holds in IDLE (R4). -/
def TitleSlot.empty : TitleSlot := {}

/-! ### The extent map (chapter 2) -/

/-- An extent record (R29). -/
structure Extent where
  start : Nat
  len : Nat
  slot : SlotIx
  first : Nat
  deriving DecidableEq, Repr, Inhabited

/-! ### Host commands (chapters 4 and 5) -/

/-- Service class (R116). -/
inductive Class where
  | record
  | play
  | bulk
  | service
  deriving DecidableEq, Repr, Inhabited

/-- An entry of a ring piece's lap list (R55, R60): segment, lap, and the started and readable marks. -/
structure LapEntry where
  seg : Nat
  lap : Nat
  started : Bool := false
  readable : Bool := false
  deriving DecidableEq, Repr, Inhabited

/-- The fields that a protected piece has beside those of an unclaimed one (R44). The title number is the slot's; a ring
piece has its ring's segment size and its lap list (R55). -/
structure Owned where
  slot : SlotIx
  title : Nat
  extStart : Nat
  first : Nat
  gen : Nat := 0
  g : Nat := 0
  laps : Option (List LapEntry) := none
  deriving DecidableEq, Repr, Inhabited

/-- A piece (R44): protected when it has an owner. -/
structure Piece where
  lba : Nat
  count : Nat
  owned : Option Owned := none
  deriving DecidableEq, Repr, Inhabited

/-- Kind of an admitted command (R71). -/
inductive CmdKind where
  | read
  | write
  | deallocate
  | flush
  | windowRead
  | controlWrite
  | identify
  | pass
  deriving DecidableEq, Repr, Inhabited

/-- State of an occupied command slot (R72). A slot that is FREE has no record in the table. `failed` is the part of ENDING
in which the command has failed at the drive, its work is over, and its completion has not been sent (R92, R107,
notes/assumptions/35.md). -/
inductive CmdState where
  | waitOverlap
  | waitControl
  | mergeRead
  | active
  | ending
  | failed
  deriving DecidableEq, Repr, Inhabited

/-- Base of a merge unit (R97). -/
inductive MergeBase where
  | read
  | zero
  deriving DecidableEq, Repr, Inhabited

/-- State of a merge entry (R98). -/
inductive MergeState where
  | pending
  | reading
  | decrypting
  | held
  | zero
  deriving DecidableEq, Repr, Inhabited

/-- An entry of a write's merge list (R98). -/
structure MergeEntry where
  unit : Nat
  lo : Nat
  hi : Nat
  base : MergeBase
  tweak : Tweak
  gen : Nat
  state : MergeState
  deriving DecidableEq, Repr, Inhabited

/-- The record of an occupied command slot (R71). The frames it holds are counted in the frame buffer (R114). A
passed-through command's data is numbered from sector 0, so that `lba` 0 and `count` give its transfer. `waitFor` is the
wait set of its overlap entry (R104), or the writes and deallocates a FLUSH waits for; `waitStores` the stores a FLUSH
waits for (R87). `entries` is the range sector of a DEALLOCATE as the host gave it, `ranges` its entries of a length other
than 0 (R88, R89). -/
structure Cmd where
  tag : HostTag
  kind : CmdKind
  lba : Nat := 0
  count : Nat := 0
  ranges : List Range := []
  entries : List Range := []
  words : Nat := 0
  data : PassData := .none
  pieces : List Piece := []
  runs : List Range := []
  nextRun : Nat := 0
  merges : List MergeEntry := []
  state : CmdState := .active
  waitFor : List HostTag := []
  waitStores : List Nat := []
  received : Nat := 0
  delivered : Nat := 0
  granted : Nat := 0
  taken : Nat := 0
  pulled : Nat := 0
  deriving DecidableEq, Repr, Inhabited

/-- A command as it arrives at the host port (R69). -/
inductive Arrival where
  | read (tag : HostTag) (lba count : Nat)
  | write (tag : HostTag) (lba count : Nat)
  | deallocate (tag : HostTag)
  | flush (tag : HostTag)
  | identify (tag : HostTag)
  | pass (tag : HostTag) (words : Nat) (data : PassData)
  | other (tag : HostTag) (range : Option Range)
  deriving DecidableEq, Repr, Inhabited

/-- Refusal reasons, in the order of R77. -/
inductive Reason where
  | tag
  | notNow
  | capacity
  | hidden
  | controlMisuse
  | span
  | policy
  | lockdown
  | halted
  | closing
  | sealed
  | clockUnset
  | ringOrder
  | rekeyBusy
  | trimProtected
  deriving DecidableEq, Repr, Inhabited

/-- Outcome of a host command (R86). A drive error carries the drive's own indication with its failing LBA, or the
device-error indication for an abort the part makes. -/
inductive Ending where
  | good
  | refused
  | driveError (lba : Option Nat)
  | deviceError
  deriving DecidableEq, Repr, Inhabited

/-- A completion on its way to the host (R69, R86). -/
structure Completion where
  tag : HostTag
  ending : Ending
  deriving DecidableEq, Repr, Inhabited

/-! ### Frames (chapter 6) -/

/-- Where a frame's content goes next (R114). -/
inductive Direction where
  | toHost
  | toDrive
  deriving DecidableEq, Repr, Inhabited

/-- Condition of a held frame (R114). A FREE frame has no record. -/
inductive Condition where
  | filling
  | passing
  | inJob
  | base
  | ready
  deriving DecidableEq, Repr, Inhabited

/-- A held shared frame (R114), number 4 … 63. `fromHost` tells which side a FILLING or PASSING frame fills from; `order`
is the ready order, or for an intake unit the moment of its grant (R127). -/
structure Frame where
  num : Nat
  holder : HostTag
  unit : Nat
  dir : Direction
  cls : Class
  cond : Condition
  present : Nat := 0
  order : Nat := 0
  fromHost : Bool := false
  data : UnitData
  deriving DecidableEq, Repr, Inhabited

/-- Kind of a frame request (R117). -/
inductive ReqKind where
  | push
  | fill
  | intake
  deriving DecidableEq, Repr, Inhabited

/-- A waiting frame request (R117); the list keeps the moments as its order. -/
structure Req where
  kind : ReqKind
  cls : Class
  tag : HostTag
  unit : Nat
  bypass : Nat := 0
  deriving DecidableEq, Repr, Inhabited

/-- The frame buffer: the held shared frames by rising number, the request list, and the bulk ceiling code (R114, R117,
R122). Service frames stand with their service tags in the catalogue controller (R115). -/
structure FrameBuffer where
  frames : List Frame := []
  requests : List Req := []
  ceiling : Nat := 2
  deriving DecidableEq, Repr, Inhabited

/-! ### The unit transform (chapter 7) -/

/-- Direction of a job (R134). -/
inductive JobDir where
  | encrypt
  | decrypt
  deriving DecidableEq, Repr, Inhabited

/-- Key source of a job (R134). -/
inductive KeySource where
  | slot (i : SlotIx) (gen : Nat)
  | root
  deriving DecidableEq, Repr, Inhabited

/-- Owner of a job (R134). -/
inductive Owner where
  | host (tag : HostTag)
  | service (tag : SvcTag)
  deriving DecidableEq, Repr, Inhabited

/-- A job record (R134); the waiting list keeps submission order. -/
structure Job where
  frame : Nat
  dir : JobDir
  source : KeySource
  tweak : Tweak
  owner : Owner
  cls : Class
  bypass : Nat := 0
  deriving DecidableEq, Repr, Inhabited

/-- The working copy of a key in a lane (R131). `lost` stands where neither key of the slot has the job's generation,
which R131 says does not arise. -/
inductive WorkKey where
  | slot (k : Key)
  | root
  | lost
  deriving DecidableEq, Repr, Inhabited

/-- A job running on a lane with its working key copy (R131, R135). `start` is the moment of its start among the starts
since the last reset: every job takes the same time, so jobs end in that order (R135). -/
structure Running where
  job : Job
  key : WorkKey
  start : Nat := 0
  deriving DecidableEq, Repr, Inhabited

/-- The two lanes and the job list (R134, R135), and how many moments have brought a start. -/
structure Transform where
  lane0 : Option Running := none
  lane1 : Option Running := none
  jobs : List Job := []
  starts : Nat := 0
  deriving DecidableEq, Repr, Inhabited

/-! ### The drive port (R70, R92, R119) -/

/-- Who a drive command belongs to: a host tag (its own tag, non-queued for the immediate slot) or a service tag. -/
inductive DriveWho where
  | host (tag : HostTag)
  | service (tag : SvcTag)
  deriving DecidableEq, Repr, Inhabited

/-- Kind of a downstream command (R70, R148). -/
inductive DriveOp where
  | read
  | mergeRead
  | write
  | flush
  | deallocate (ranges : List Range)
  | pass (words : Nat)
  | serviceRead
  | forcedWrite
  deriving DecidableEq, Repr, Inhabited

/-- An entry of the drive issue queue, or a command outstanding at the drive, with the sectors of it that have moved. -/
structure DriveCmd where
  who : DriveWho
  op : DriveOp
  lba : Nat := 0
  count : Nat := 0
  moved : Nat := 0
  deriving DecidableEq, Repr, Inhabited

/-- The drive link: not brought up, up, or being reset (R70, R157). It is brought up from the release of RESET_N (R204). -/
inductive DriveLink where
  | off
  | up
  | resetting
  deriving DecidableEq, Repr, Inhabited

/-- A hold of the drive link: a stalled PUSH, or a pull that waits for a unit (R119, R84). -/
inductive Hold where
  | stall (tag : HostTag)
  | pull (tag : HostTag)
  deriving DecidableEq, Repr, Inhabited

/-- The transfer of one unit in progress on the drive link (R119). -/
structure DriveXfer where
  push : Bool
  tag : HostTag
  frame : Nat
  lba : Nat
  count : Nat
  deriving DecidableEq, Repr, Inhabited

/-- The drive port. `asking` is set while the drive has been asked for its identity and has not answered (R204). While
the port waits for the error record, `failing` is the completion of the host command that failed: its indication is known
once the record has been read (R92). `reissue` and `restart` name the service operations, by number, that wait for the
link: to be issued again (R156, R157), or to begin again from the moment they took their tags (R159). -/
structure DrivePort where
  link : DriveLink := .off
  asking : Bool := false
  queue : List DriveCmd := []
  outstanding : List DriveCmd := []
  errorRead : Bool := false
  failing : Option Completion := none
  hold : Option Hold := none
  xfer : Option DriveXfer := none
  reissue : List Nat := []
  restart : List Nat := []
  deriving DecidableEq, Repr, Inhabited

/-! ### The host port (R69, R88, R127) -/

/-- The transfer in progress on the host link (R127). `done` is set when its last sector has moved; `made` counts the
sectors of a WINDOW_READ unit that have been produced (R82). -/
structure HostXfer where
  frame : Nat
  tag : HostTag
  send : Bool
  done : Bool := false
  made : Nat := 0
  deriving DecidableEq, Repr, Inhabited

/-- The host port: whether the link is offered and up, the commands held off (R69, R88), the deallocate whose range
sector is being taken (R88), the transfer in progress and the completions due (R127). -/
structure HostPort where
  up : Bool := false
  held : List Arrival := []
  rangeSector : Option HostTag := none
  xfer : Option HostXfer := none
  due : List Completion := []
  deriving DecidableEq, Repr, Inhabited

/-! ### The catalogue controller (chapter 8) -/

/-- The on-chip copy of the area header (R143). -/
inductive HeaderCopy where
  | valid (epoch : Nat)
  | absent
  | unreadable
  | foreign
  | unknown
  deriving DecidableEq, Repr, Inhabited

/-- Kind of a service operation (R148). -/
inductive SvcKind where
  | load (i : Nat)
  | store (i : Nat)
  | erase (i : Nat)
  | headerRead
  | headerWrite (epoch : Nat)
  deriving DecidableEq, Repr, Inhabited

/-- Owner of a service operation or a claim (R148, R152). -/
inductive SvcOwner where
  | slot (i : SlotIx)
  | sweep
  | header
  deriving DecidableEq, Repr, Inhabited

/-- A service operation (R148), with its timeout count (R157). `extents` is the list kept for a final store (R153).
`num` tells two operations apart (R87, R157). -/
structure SvcOp where
  num : Nat
  kind : SvcKind
  owner : SvcOwner
  timeouts : Nat := 0
  extents : Option (List RecExtent) := none
  deriving DecidableEq, Repr, Inhabited

/-- Content of a service frame (R115): erased, a record in clear that waits for its seal, or a unit as it goes to or
comes from the drive. -/
inductive SvcContent where
  | erased
  | formed (unit : DiskUnit)
  | whole (unit : DiskUnit)
  deriving DecidableEq, Repr, Inhabited

/-- An operation in flight with its tag and service frame (R149), and its place in the order of first issue (R156). -/
structure Flight where
  tag : SvcTag
  op : SvcOp
  content : SvcContent := .erased
  issued : Option Nat := none
  deriving DecidableEq, Repr, Inhabited

/-- A claim on a catalogue index, with the known generation (R147, R152). -/
structure Claim where
  index : Nat
  owner : SvcOwner
  gen : Option Nat := none
  deriving DecidableEq, Repr, Inhabited

/-- The catalogue controller (R143, R149, R152, R162). The flights stand in the order in which they took their tags. -/
structure Catalogue where
  header : HeaderCopy := .unknown
  queue : List SvcOp := []
  flights : List Flight := []
  claims : List Claim := []
  sweeping : Bool := false
  progress : Nat := 0
  erased : Nat := 0
  deriving DecidableEq, Repr, Inhabited

/-! ### The violation monitor (chapter 10) -/

/-- Monitor state (R177). -/
inductive MonState where
  | normal
  | alarm
  | lockdown
  deriving DecidableEq, Repr, Inhabited

/-- Reaction of a kind (R180). -/
inductive Reaction where
  | count
  | halt
  | alarm
  | fault
  deriving DecidableEq, Repr, Inhabited

/-- The ten kinds, in the order of section 11.9 (R178). -/
inductive Violation where
  | hiddenArea
  | controlMisuse
  | writeSealed
  | ringOrder
  | policy
  | trimProtected
  | expiredRead
  | authFail
  | staleNonce
  | catalogueDamaged
  deriving DecidableEq, Repr, Inhabited

/-- The last-refusal record (R189). -/
structure RefusalRecord where
  tag : HostTag
  lba : Nat
  count : Nat
  reason : Reason
  number : Nat
  deriving DecidableEq, Repr, Inhabited

/-- The default reactions, in the order of the kinds (R180). -/
def defaultReactions : Vector Reaction 10 :=
  #v[.alarm, .count, .halt, .count, .count, .count, .count, .alarm, .count, .alarm]

/-- A window deadline (R177), held as the length of its window: the moment lies that many milliseconds after the entry
into ALARM. `since` is the model's: how many free values had been read at that entry. -/
structure Deadline where
  length : Nat
  since : Nat
  deriving DecidableEq, Repr, Inhabited

/-- The violation monitor (R177). Bit k of the alarmed set is kind k. -/
structure Monitor where
  state : MonState := .normal
  counters : Vector Nat 10 := Vector.replicate 10 0
  reactions : Vector Reaction 10 := defaultReactions
  alarmed : BitVec 10 := 0#10
  deadline : Option Deadline := none
  window : Nat := 2000
  refusal : Option RefusalRecord := none
  deriving DecidableEq, Repr, Inhabited

/-! ### The control window (chapter 11) -/

/-- Unclaimed-space setting (R41). -/
inductive Setting where
  | pass
  | refuse
  deriving DecidableEq, Repr, Inhabited

/-- Result codes, in the order of section 11.9 (R198). -/
inductive Result where
  | ok
  | busy
  | badParam
  | authFail
  | stale
  | slotBusy
  | inUse
  | empty
  | damaged
  | expired
  | overlap
  | mapFull
  | extentsFull
  | units
  | align
  | state
  | lockdown
  | unformatted
  | drive
  | clockUnset
  | late
  deriving DecidableEq, Repr, Inhabited

/-- Details of a reply (section 11.9). -/
inductive Details where
  | none
  | ring (g m retention : Nat)
  | openFailed (position slotMet : Nat)
  | retention (r : Nat)
  | clock (value : Nat) (held wasUnset : Bool) (expired : Nat)
  | window (ms : Nat)
  | monitor (state : MonState) (alarmed : BitVec 10)
  | epoch (e : Nat)
  deriving DecidableEq, Repr, Inhabited

/-- A reply (R198). -/
structure Reply where
  request : Nat
  code : Nat
  slot : Nat
  result : Result
  nonce : Nonce
  number : Nat
  details : Details
  deriving DecidableEq, Repr, Inhabited

/-- How far the executing command is (R193, R194): handed over and not yet checked, or waiting for the end of the load,
of the store, of the erase of an expired title, of its slot's way to IDLE, or of the header write. -/
inductive Stage where
  | handed
  | load
  | store
  | erase
  | idle
  | header
  deriving DecidableEq, Repr, Inhabited

/-- The executing record (R193). The tag is absent once a host link reset has freed the command's slot (R94). -/
structure Executing where
  tag : Option HostTag
  record : Sector
  stage : Stage
  deriving DecidableEq, Repr, Inhabited

/-- The control window (R192, R193, R196, R198, R201) and the unclaimed-space policy (R41). Bit k of the flags is event
flag k of section 11.9. -/
structure ControlWindow where
  executing : Option Executing := none
  last : Option Sector := none
  reply : Option Reply := none
  nonce : Nonce := 0#64
  flags : BitVec 8 := 0#8
  readPolicy : Setting := .pass
  writePolicy : Setting := .pass
  deallocatePolicy : Setting := .pass
  deriving DecidableEq, Repr, Inhabited

/-! ### The whole part -/

/-- Part phase (R204 to R206). -/
inductive Phase where
  | starting
  | ready
  | unformatted
  | foreign
  | noDrive
  deriving DecidableEq, Repr, Inhabited

/-- What the part puts on its two links in one step. -/
inductive Output where
  /-- A completion sent to the host (R69). -/
  | completion (c : Completion)
  /-- Sectors sent to the host (R81). -/
  | toHost (tag : HostTag) (lba : Nat) (data : List Sector)
  /-- Sectors the drive has pulled (R84). -/
  | toDrive (tag : HostTag) (lba : Nat) (data : List Sector)
  /-- A command issued to the drive (R70). -/
  | issued (c : DriveCmd)
  /-- A catalogue unit that the drive has written (R151). -/
  | catalogue (lba : Nat) (unit : DiskUnit)
  /-- A reset of the drive link (R93, R94, R119, R204). -/
  | driveLinkReset
  /-- The drive is asked for its identity (R204). -/
  | identityRequest
  deriving DecidableEq, Repr, Inhabited

/-- Why a step can stop with a fault: for no reason. The manual gives every command of the table an effect in every
state of the part, so no meaning faults. -/
inductive Fault where
  deriving DecidableEq, Repr

/-- Why a step can refuse. -/
inductive Refusal where
  /-- Raised by exec for a command that has no meaning yet. Safe: nothing can be proved of it. -/
  | notModelled (mnemonic : String)
  /-- Raised by the meanings of the six commands whose operands have bounds, for operands outside them
  (WellFormed.lean). Safe: no host and no drive can send such a command. -/
  | illFormed (mnemonic : String)
  deriving DecidableEq, Repr

/-- The state of the part, and the commands that wait. -/
structure State where
  /-- RESET_N: true while it is asserted (R95, R204). -/
  inReset : Bool := true
  phase : Phase := .starting
  /-- The stored identity of the drive (R90); it fixes D, T and P (R142). -/
  identity : Option Identity := none
  host : HostPort := {}
  /-- The occupied slots of the command table, in admission order (R71). A command stands here until it ends, and with it
  its pieces and its overlap entry (R19, R104, R107). -/
  table : List Cmd := []
  /-- The extent map, by rising start unit (R29, R30). -/
  map : List Extent := []
  slots : Vector TitleSlot 8 := Vector.replicate 8 TitleSlot.empty
  buffer : FrameBuffer := {}
  lanes : Transform := {}
  drive : DrivePort := {}
  cat : Catalogue := {}
  /-- The rights clock: unset, or seconds (R166). -/
  clock : Option Nat := none
  mon : Monitor := {}
  win : ControlWindow := {}
  /-- The model's: how many values the key generator has drawn (R133). -/
  draws : Nat := 0
  /-- The model's: numbers given to moments and operations so far (R114, R127, R156). -/
  stamp : Nat := 0
  /-- The model's: free values read so far. -/
  freeReads : Nat := 0
  /-- The model's: what the part put on its links in the last step, in order. -/
  out : List Output := []
  /-- The commands that wait, first in, first out. -/
  pending : List Instr := []
  deriving DecidableEq, Repr, Inhabited

/-- The part right after a hard reset, RESET_N asserted: every block as its own chapter gives (R27, R46, R66, R95, R113,
R128, R141, R165, R174, R190, R193, R198, R201). -/
def State.reset : State := {}

end Sys2Proof.Machine
end

