-- ==== Sys2Proof/Machine/Operands.lean ====
section
/-!
DEFINITION. The operands of commands: the fields of a command record and the encodings of section 11.9, the geometry of
the disk (R31, R142), and the units, tweaks and classes of a host command's range (R40, R44, R51, R96, R116).
-/

namespace Sys2Proof.Machine

/-! ### Byte fields of a sector (section 11.9) -/

/-- The little-endian field of `n` bytes at byte `off`. -/
def Sector.field (x : Sector) (off n : Nat) : Nat := (x.toNat >>> (8 * off)) % 2 ^ (8 * n)

/-- A sector with the given fields (byte offset, bytes, value); every other byte is zero. -/
def layout (fs : List (Nat × Nat × Nat)) : Sector :=
  BitVec.ofNat 4096 (fs.foldl (fun a f => a ||| ((f.2.2 % 2 ^ (8 * f.2.1)) <<< (8 * f.1))) 0)

/-- Request number of a record. -/
def recRequest (r : Sector) : Nat := Sector.field r 0 4
/-- Command code of a record. -/
def recCode (r : Sector) : Nat := Sector.field r 4 1
/-- Slot of a record, as given. -/
def recSlot (r : Sector) : Nat := Sector.field r 5 1
/-- Nonce of a record. -/
def recNonce (r : Sector) : Nonce := BitVec.ofNat 64 (Sector.field r 8 8)
/-- Bytes 0 … 479, which the authorisation code covers (R197). -/
def recCovered (r : Sector) : BitVec 3840 := r.setWidth 3840
/-- Bytes 480 … 511, the authorisation code. -/
def recAuth (r : Sector) : BitVec 256 := (r >>> 3840).setWidth 256
/-- The record as the command sector reads it back, its authorisation code read as zeros (R192). -/
def recReadBack (r : Sector) : Sector := (recCovered r).setWidth 4096

/-- A slot number 0 … 7 (R5). -/
def slotOfNat (n : Nat) : Option SlotIx := if h : n < 8 then some ⟨n, h⟩ else none

/-- A mark is one byte, 0 or 1. -/
def markOfNat : Nat → Option Bool
  | 0 => some false
  | 1 => some true
  | _ => none

/-- Copy class encoding. -/
def classOfNat : Nat → Option CopyClass
  | 0 => some .free
  | 1 => some .once
  | 2 => some .never
  | _ => none

/-- Policy encoding in SET_POLICY: a setting, or KEEP as the present one. -/
def settingOfNat (now : Setting) : Nat → Option Setting
  | 0 => some .pass
  | 1 => some .refuse
  | 255 => some now
  | _ => none

/-- Ceiling code in SET_POLICY: 0 … 3, or KEEP as the present one. -/
def ceilingOfNat (now n : Nat) : Option Nat :=
  if n ≤ 3 then some n else if n = 255 then some now else none

/-- Reaction encoding in SET_POLICY: a reaction, or KEEP as the present one. -/
def reactionOfNat (now : Reaction) : Nat → Option Reaction
  | 0 => some .count
  | 1 => some .halt
  | 2 => some .alarm
  | 3 => some .fault
  | 255 => some now
  | _ => none

/-- Window length in SET_POLICY: clamped into 10 … 60,000, or KEEP (R180). -/
def windowOfNat (now n : Nat) : Nat :=
  if n = 4294967295 then now else max 10 (min n 60000)

/-- An expiry from its mark and value. -/
def expiryOf (mark : Bool) (v : Nat) : Option Nat := if mark then some v else none

/-! ### Codes of section 11.9 that the status sectors and the reply show -/

def SlotPhase.code : SlotPhase → Nat
  | .idle => 0 | .loading => 1 | .active => 2 | .draining => 3 | .storing => 4 | .erasing => 5
def kindCode : Option TitleKind → Nat
  | none => 0 | some .recording => 1 | some .ring => 2
def stateCode : Option TitleState → Nat
  | none => 0 | some .recording => 1 | some .sealed => 2 | some .moving => 3
def classCode : Option CopyClass → Nat
  | none => 0 | some .free => 0 | some .once => 1 | some .never => 2
def drainCode : Option DrainReason → Nat
  | none => 0 | some .closed => 1 | some .deleted => 2 | some .expired => 3 | some .moved => 4
def Phase.code : Phase → Nat
  | .starting => 0 | .ready => 1 | .unformatted => 2 | .foreign => 3 | .noDrive => 0
def MonState.code : MonState → Nat
  | .normal => 0 | .alarm => 1 | .lockdown => 2
def Setting.code : Setting → Nat
  | .pass => 0 | .refuse => 1
def Reaction.code : Reaction → Nat
  | .count => 0 | .halt => 1 | .alarm => 2 | .fault => 3
def Reason.code : Reason → Nat
  | .tag => 1 | .notNow => 2 | .capacity => 3 | .hidden => 4 | .controlMisuse => 5 | .span => 6 | .policy => 7
  | .lockdown => 8 | .halted => 9 | .closing => 10 | .sealed => 11 | .clockUnset => 12 | .ringOrder => 13
  | .rekeyBusy => 14 | .trimProtected => 15
def Result.code : Result → Nat
  | .ok => 0 | .busy => 1 | .badParam => 2 | .authFail => 3 | .stale => 4 | .slotBusy => 5 | .inUse => 6 | .empty => 7
  | .damaged => 8 | .expired => 9 | .overlap => 10 | .mapFull => 11 | .extentsFull => 12 | .units => 13 | .align => 14
  | .state => 15 | .lockdown => 16 | .unformatted => 17 | .drive => 18 | .clockUnset => 19 | .late => 20
def markCode (b : Bool) : Nat := if b then 1 else 0
def tagCode : HostTag → Nat
  | .queued n => n.val | .immediate => 255

/-! ### Identity sectors (R90) -/

/-- A field of the identity that a sector spells. -/
inductive IdentityField where
  | capacity
  | depth
  | security
  | maxAddress
  deriving DecidableEq, Repr

/-- Place and width in bits of a field among the fields that a sector spells: the capacity in sectors, the queue depth,
and the marks of the security and the maximum-address feature set. The rest of the 4096 bits is all else the identity
says. -/
def IdentityField.place : IdentityField → Nat × Nat
  | .capacity => (0, 64)
  | .depth => (64, 8)
  | .security => (72, 1)
  | .maxAddress => (73, 1)

/-- What an identity sector says in a field. -/
def identityField (x : Sector) (f : IdentityField) : Nat :=
  ((Config.identityLayout.symm x).toNat >>> f.place.1) % 2 ^ f.place.2

/-- The identity answer made from the stored identity: the capacity and the queue depth are replaced, the two feature
sets reported as not supported, and all else is as stored (R90). -/
def identityAnswer (stored : Sector) (capacity depth : Nat) : Sector :=
  Config.identityLayout (BitVec.ofNat 4096
    (((Config.identityLayout.symm stored).toNat >>> 74) <<< 74 ||| (depth % 2 ^ 8) <<< 64 ||| capacity % 2 ^ 64))

/-! ### Geometry of the disk (R142, R31) -/

/-- D, the drive's capacity in sectors; 0 before the identity read. -/
def State.driveCapacity (s : State) : Nat := match s.identity with | some d => d.capacity | none => 0
/-- T, the top whole-unit boundary. -/
def State.topUnit (s : State) : Nat := s.driveCapacity / 8 * 8
/-- P, the presented capacity. -/
def State.presented (s : State) : Nat := s.topUnit - Config.hiddenSectors
/-- P − 16, the command sector. -/
def State.windowBase (s : State) : Nat := s.presented - Config.windowSectors
/-- W, the first unit of the control window. -/
def State.windowUnit (s : State) : Nat := s.windowBase / 8
/-- The first LBA of catalogue index i. -/
def State.catalogueLba (s : State) (i : Nat) : Nat := s.presented + 8 * i

/-! ### The units of a command -/

/-- The unit a sector lies in (R40). -/
def unitOf (lba : Nat) : Nat := lba / 8

def Piece.firstUnit (p : Piece) : Nat := unitOf p.lba
def Piece.lastUnit (p : Piece) : Nat := unitOf (p.lba + p.count - 1)
/-- A piece is protected when it lies in an extent (R43). -/
def Piece.isProtected (p : Piece) : Bool := p.owned.isSome

def Cmd.firstUnit (c : Cmd) : Nat := unitOf c.lba
def Cmd.lastUnit (c : Cmd) : Nat := unitOf (c.lba + c.count - 1)
/-- How many units the command's range touches, 0 … 8,193 (R71). -/
def Cmd.units (c : Cmd) : Nat := if c.count = 0 then 0 else c.lastUnit - c.firstUnit + 1
/-- The first and last sector within unit u that the host names. -/
def Cmd.hostLo (c : Cmd) (u : Nat) : Nat := if u = c.firstUnit then c.lba % 8 else 0
def Cmd.hostHi (c : Cmd) (u : Nat) : Nat := if u = c.lastUnit then (c.lba + c.count - 1) % 8 else 7
/-- The piece that holds unit u: interior piece boundaries fall on units (R43). -/
def Cmd.pieceOf (c : Cmd) (u : Nat) : Option Piece :=
  c.pieces.find? fun p => decide (p.firstUnit ≤ u) && decide (u ≤ p.lastUnit)
/-- The owner fields of the piece that holds unit u, if it is protected. -/
def Cmd.ownedOf (c : Cmd) (u : Nat) : Option Owned := (c.pieceOf u).bind (·.owned)
/-- The first and last sector that the frame of unit u stages: all eight of a protected unit (R80), the host's own of any
other (R125). -/
def Cmd.stageLo (c : Cmd) (u : Nat) : Nat := if (c.ownedOf u).isSome then 0 else c.hostLo u
def Cmd.stageHi (c : Cmd) (u : Nat) : Nat := if (c.ownedOf u).isSome then 7 else c.hostHi u
/-- How many sectors the frame of unit u stages. -/
def Cmd.need (c : Cmd) (u : Nat) : Nat := c.stageHi u + 1 - c.stageLo u

/-- The lap recorded for segment k in a lap list, 0 if none is. -/
def lapOf (laps : List LapEntry) (k : Nat) : Nat :=
  match laps.find? (fun e => decide (e.seg = k)) with
  | some e => e.lap
  | none => 0

/-- The segment of a ring piece that unit u lies in (R50). -/
def Owned.segOf (o : Owned) (u : Nat) : Nat := (u - o.extStart) / o.g

/-- The tweak of unit u of a protected piece: R40 for a recording, R51 for a ring. -/
def Owned.tweak (o : Owned) (u : Nat) : Tweak :=
  match o.laps with
  | none => { title := o.title, seq := 0, unit := o.first + (u - o.extStart) }
  | some ls => { title := o.title, seq := lapOf ls (o.segOf u), unit := u - o.extStart }

/-- A ring unit whose segment is not marked readable is zero-filled (R61). -/
def Owned.zeroFilled (o : Owned) (u : Nat) : Bool :=
  match o.laps with
  | none => false
  | some ls => match ls.find? (fun e => decide (e.seg = o.segOf u)) with
    | some e => !e.readable
    | none => true

/-- A unit of a READ that R61 fills with zeros. -/
def Cmd.zeroFilled (c : Cmd) (u : Nat) : Bool :=
  match c.kind, c.ownedOf u with
  | .read, some o => o.zeroFilled u
  | _, _ => false

/-- The class of unit u's frame requests and jobs (R116). -/
def Cmd.classOf (c : Cmd) (u : Nat) : Class :=
  match c.kind, c.ownedOf u with
  | .write, some _ => .record
  | .read, some _ => .play
  | _, _ => .bulk

/-- Whether the command's data goes to the host. -/
def Cmd.sends (c : Cmd) : Bool :=
  match c.kind, c.data with
  | .read, _ => true
  | .windowRead, _ => true
  | .identify, _ => true
  | .pass, .toHost _ => true
  | _, _ => false

/-- Whether the command takes data from the host (R117). -/
def Cmd.takes (c : Cmd) : Bool :=
  match c.kind, c.data with
  | .write, _ => true
  | .controlWrite, _ => true
  | .pass, .toDrive _ => true
  | _, _ => false

/-- The entry of the merge list for unit u (R98). -/
def Cmd.mergeOf (c : Cmd) (u : Nat) : Option MergeEntry := c.merges.find? fun e => decide (e.unit = u)

/-- Puts the merge entry of unit u into a state. -/
def Cmd.setMerge (c : Cmd) (u : Nat) (st : MergeState) : Cmd :=
  { c with merges := c.merges.map fun e => if e.unit = u then { e with state := st } else e }

/-- The protected unit ranges of the command's overlap entry, first and last unit of each (R104). -/
def Cmd.unitRanges (c : Cmd) : List (Nat × Nat) :=
  (c.pieces.filter (·.isProtected)).map fun p => (p.firstUnit, p.lastUnit)

/-! ### Unit contents -/

/-- The unit with sectors put in place from position lo on. -/
def placeSectors (d : UnitData) (lo : Nat) (xs : List Sector) : UnitData :=
  Vector.ofFn fun i => if lo ≤ i.val then (match xs[i.val - lo]? with | some x => x | none => d[i]) else d[i]

/-- n sectors of the unit from position lo on. -/
def takeSectors (d : UnitData) (lo n : Nat) : List Sector := (d.toList.drop lo).take n

end Sys2Proof.Machine
end

