-- ==== Sys2Proof/Machine/Flags.lean ====
section
/-!
DEFINITION. The event flags and the ALERT output (R201, R202), and the numbers of the violation kinds in the alarmed set,
the kind mask, the counters and the reactions (section 11.9).
-/

namespace Sys2Proof.Machine

/-- The eight event flags (R201). -/
inductive EventFlag where
  | titleExpired
  | alarm
  | lockdown
  | ringRekeyed
  | catalogueDamaged
  | storeFailed
  | serviceTimeout
  | sweepDone
  deriving DecidableEq, Repr, Inhabited

/-- The bit of a flag (section 11.9). -/
def EventFlag.bit : EventFlag → BitVec 8
  | .titleExpired => 1#8
  | .alarm => 2#8
  | .lockdown => 4#8
  | .ringRekeyed => 8#8
  | .catalogueDamaged => 16#8
  | .storeFailed => 32#8
  | .serviceTimeout => 64#8
  | .sweepDone => 128#8

/-- Sets an event flag; one already set stays set (R201). -/
def State.setFlag (s : State) (f : EventFlag) : State := { s with win := { s.win with flags := s.win.flags ||| f.bit } }

/-- Whether an event flag is set. -/
def State.hasFlag (s : State) (f : EventFlag) : Bool := decide (s.win.flags &&& f.bit ≠ 0#8)

/-- ALERT is asserted while an event flag is set, the monitor is in LOCKDOWN or the phase is NO_DRIVE; it is released
while RESET_N is asserted (R202). -/
def State.alert (s : State) : Bool :=
  !s.inReset && (decide (s.win.flags ≠ 0#8) || decide (s.mon.state = .lockdown) || decide (s.phase = .noDrive))

/-- The number of a kind. -/
def Violation.ix : Violation → Fin 10
  | .hiddenArea => 0
  | .controlMisuse => 1
  | .writeSealed => 2
  | .ringOrder => 3
  | .policy => 4
  | .trimProtected => 5
  | .expiredRead => 6
  | .authFail => 7
  | .staleNonce => 8
  | .catalogueDamaged => 9

/-- The bit of a kind in the alarmed set and the kind mask. -/
def Violation.bit (k : Violation) : BitVec 10 := 1#10 <<< k.ix.val

/-- Whether a kind is in a set of kinds. -/
def inKinds (set : BitVec 10) (k : Violation) : Bool := decide (set &&& k.bit ≠ 0#10)

/-- The violation that a refusal with this reason counts (R77, R178). -/
def Reason.violation : Reason → Option Violation
  | .hidden => some .hiddenArea
  | .controlMisuse => some .controlMisuse
  | .policy => some .policy
  | .sealed => some .writeSealed
  | .ringOrder => some .ringOrder
  | .trimProtected => some .trimProtected
  | .tag | .notNow | .capacity | .span | .lockdown | .halted | .closing | .clockUnset | .rekeyBusy => none

end Sys2Proof.Machine
end

