-- ==== Sys2Proof/Machine/Ops.lean ====
section
/-!
DEFINITION. The named operations that every family shares: access to the title slots and the command table, the key
generator, counters that wrap, the violation monitor's reaction to a violation, and lookups in the extent map.
-/

namespace Sys2Proof.Machine

/-! ### Access -/

/-- The title slot i. -/
def State.slot (s : State) (i : SlotIx) : TitleSlot := s.slots[i]
/-- Title slot i replaced. -/
def State.setSlot (s : State) (i : SlotIx) (t : TitleSlot) : State := { s with slots := s.slots.set i t }
/-- Title slot i changed by f. -/
def State.modSlot (s : State) (i : SlotIx) (f : TitleSlot → TitleSlot) : State := s.setSlot i (f (s.slot i))

/-- The slots in order. -/
def allSlots : List SlotIx := [0, 1, 2, 3, 4, 5, 6, 7]

/-- The command at work in the slot of a tag: one that has failed at the drive has no work left (R92). -/
def State.cmd? (s : State) (t : HostTag) : Option Cmd :=
  s.table.find? fun c => decide (c.tag = t) && decide (c.state ≠ .failed)
/-- The command of a tag changed by f, its place in admission order kept. -/
def State.modCmd (s : State) (t : HostTag) (f : Cmd → Cmd) : State :=
  { s with table := s.table.map fun c => if c.tag = t then f c else c }
/-- Puts a command into a state (R72). -/
def State.setCmdState (s : State) (t : HostTag) (st : CmdState) : State := s.modCmd t fun c => { c with state := st }

/-- The part's links carry this in the present step. -/
def State.emit (s : State) (o : Output) : State := { s with out := s.out ++ [o] }

/-- A fresh number for a moment or an operation. -/
def State.tickStamp (s : State) : State := { s with stamp := s.stamp + 1 }

/-! ### The key generator (R133) -/

/-- The next value of the key generator as a title key. -/
def State.freshKey (s : State) : Key := ⟨s.draws⟩
/-- The next value as a nonce. -/
def State.freshNonce (s : State) : Nonce := Config.nonce s.draws
/-- The next value as a format epoch, 1 … 65,535 (R161). -/
def State.freshEpoch (s : State) : Nat := (Config.epochDraw s.draws).val + 1
/-- The draw is made. -/
def State.drawn (s : State) : State := { s with draws := s.draws + 1 }

/-- The current nonce is replaced by a fresh one (R196). -/
def State.drawNonce (s : State) : State := ({ s with win := { s.win with nonce := s.freshNonce } }).drawn

/-! ### Counters -/

/-- The number after n in 1 … top, 1 after top (R15, R189, R198, R161). -/
def nextNumber (top n : Nat) : Nat := if n ≥ top then 1 else n + 1

/-- The generation a catalogue write takes after the known one (R147). -/
def nextGeneration : Option Nat → Nat
  | none => 1
  | some g => nextNumber Config.maxCount32 g

/-! ### The violation monitor (R178 to R183) -/

/-- The counter of a kind is raised by one, and stays at 65,535 (R179). -/
def Monitor.count (m : Monitor) (k : Violation) : Monitor :=
  { m with counters := m.counters.set k.ix (min Config.maxCount16 (m.counters[k.ix] + 1)) }

/-- The reaction of a kind as it stands. -/
def Monitor.reaction (m : Monitor) (k : Violation) : Reaction := m.reactions[k.ix]

/-- The kind joins the alarmed set. -/
def Monitor.join (m : Monitor) (k : Violation) : Monitor := { m with alarmed := m.alarmed ||| k.bit }

/-- A HALT reaction sets the halted flag of every named slot that is not IDLE (R181). -/
def haltSlots (named : List SlotIx) (s : State) : State :=
  named.foldl (fun s i => if (s.slot i).phase = .idle then s else s.modSlot i fun t => { t with halted := true }) s

/-- An ALARM reaction (R182). -/
def alarmReaction (k : Violation) (s : State) : State :=
  match s.mon.state with
  | .normal =>
    ({ s with mon := { s.mon.join k with
        state := .alarm, deadline := some { length := s.mon.window, since := s.freeReads } } }).setFlag .alarm
  | .alarm => if inKinds s.mon.alarmed k then s else ({ s with mon := s.mon.join k }).setFlag .alarm
  | .lockdown => { s with mon := s.mon.join k }

/-- A FAULT reaction (R183). -/
def faultReaction (k : Violation) (s : State) : State :=
  match s.mon.state with
  | .lockdown => { s with mon := s.mon.join k }
  | .normal | .alarm =>
    ({ s with mon := { s.mon.join k with state := .lockdown, deadline := none } }).setFlag .lockdown

/-- A violation: the counter, then the reaction as it stands (R179). -/
def violate (k : Violation) (named : List SlotIx) (s : State) : State :=
  let s1 := { s with mon := s.mon.count k }
  match s.mon.reaction k with
  | .count => s1
  | .halt => haltSlots named s1
  | .alarm => alarmReaction k s1
  | .fault => faultReaction k s1

/-! ### The rights clock (R166, R9) -/

/-- A viewing expiry that is due under a set clock (R3). -/
def expiryDue (expiry clock : Option Nat) : Bool :=
  match expiry, clock with
  | some e, some c => decide (e ≤ c)
  | _, _ => false

/-! ### The extent map (R39, R30) -/

def Extent.stop (e : Extent) : Nat := e.start + e.len

/-- A unit lies in an extent (R29). -/
def Extent.holds (e : Extent) (u : Nat) : Bool := decide (e.start ≤ u) && decide (u < e.stop)

/-- The extent that holds unit u, or none for unclaimed (R39). -/
def lookupUnit (map : List Extent) (u : Nat) : Option Extent := map.find? (·.holds u)

/-- The start of the first extent above unit u. -/
def nextStart (map : List Extent) (u : Nat) : Option Nat := (map.find? fun e => decide (u < e.start)).map (·.start)

/-- Two runs of units share a unit. -/
def sharesUnit (a la b lb : Nat) : Bool := decide (a < b + lb) && decide (b < a + la)

/-- The first extent that shares a unit with a run. -/
def meets (map : List Extent) (start len : Nat) : Option Extent := map.find? fun e => sharesUnit start len e.start e.len

/-- Inserts a record at the place its start unit gives (R30). -/
def insertExtent (e : Extent) : List Extent → List Extent
  | [] => [e]
  | x :: xs => if e.start ≤ x.start then e :: x :: xs else x :: insertExtent e xs

/-- The extents of a slot, in order of first logical unit (R29, R153). -/
def insertByFirst (e : Extent) : List Extent → List Extent
  | [] => [e]
  | x :: xs => if e.first ≤ x.first then e :: x :: xs else x :: insertByFirst e xs

def slotExtents (map : List Extent) (i : SlotIx) : List Extent :=
  (map.filter fun e => decide (e.slot = i)).foldr insertByFirst []

/-- The extent list of a record made from the map (R153). -/
def recordExtents (map : List Extent) (i : SlotIx) : List RecExtent :=
  (slotExtents map i).map fun e => { start := e.start, len := e.len, first := e.first }

end Sys2Proof.Machine
end

