-- ==== Sys2Proof/Machine/Lanes.lean ====
section
/-!
DEFINITION. The unit transform's lanes and job list (chapter 7).
-/

namespace Sys2Proof.Machine

/-- The lane of a number. -/
def Transform.lane (x : Transform) (l : Fin 2) : Option Running := if l = 0 then x.lane0 else x.lane1
/-- The lane of a number set. -/
def Transform.setLane (x : Transform) (l : Fin 2) (r : Option Running) : Transform :=
  if l = 0 then { x with lane0 := r } else { x with lane1 := r }

/-- The key of a generation of a slot: the current key, or the retired one (R16, R131). -/
def keyOfGen (t : TitleSlot) (gen : Nat) : Option Key :=
  if t.gen = some gen then t.key
  else match t.retired with
    | some r => if r.gen = gen then some r.key else none
    | none => none

/-- The key that a lane takes when the job starts (R131). -/
def resolveKey (s : State) : KeySource → WorkKey
  | .root => .root
  | .slot i gen => match keyOfGen (s.slot i) gen with
    | some k => .slot k
    | none => .lost

/-- A job starts on a lane (R131, R135). -/
def startJob (l : Fin 2) (j : Job) (s : State) : State :=
  { s with lanes := s.lanes.setLane l (some { job := j, key := resolveKey s j.source, start := s.lanes.starts }) }

/-- A moment of starts is over: a later start is later than these (R135). -/
def startsDone (s : State) : State := { s with lanes := { s.lanes with starts := s.lanes.starts + 1 } }

/-- A submitted job starts on an idle lane, lane 0 first, or joins the job list (R135). -/
def submitJob (j : Job) (s : State) : State :=
  match s.lanes.lane0, s.lanes.lane1 with
  | none, _ => startsDone (startJob 0 { j with bypass := 0 } s)
  | some _, none => startsDone (startJob 1 { j with bypass := 0 } s)
  | some _, some _ => { s with lanes := { s.lanes with jobs := s.lanes.jobs ++ [{ j with bypass := 0 }] } }

/-- The oldest waiting job of a class. -/
def oldestOf (c : Class) (jobs : List Job) : Option Job := jobs.find? fun j => decide (j.cls = c)

/-- The job a selection starts: the oldest with bypass count 8, else the oldest of the highest class present (R136). -/
def selectJob (jobs : List Job) : Option Job :=
  match jobs.find? (fun j => decide (j.bypass ≥ 8)) with
  | some j => some j
  | none => match oldestOf .record jobs with
    | some j => some j
    | none => match oldestOf .play jobs with
      | some j => some j
      | none => match oldestOf .service jobs with
        | some j => some j
        | none => jobs.head?

/-- A job passed over by a selection: its count rises to at most 8 (R136). -/
def Job.passed (j : Job) : Job := { j with bypass := min 8 (j.bypass + 1) }

/-- A freed lane makes its selection (R136). -/
def selectLane (l : Fin 2) (s : State) : State :=
  match selectJob s.lanes.jobs with
  | none => { s with lanes := s.lanes.setLane l none }
  | some j => startJob l j { s with lanes := { s.lanes with jobs := (s.lanes.jobs.erase j).map Job.passed } }

/-- Whether a lane runs a job of an owner. -/
def runsFor (o : Owner) (r : Option Running) : Bool :=
  match r with
  | some r => decide (r.job.owner = o)
  | none => false

/-- The other lane. -/
def otherLane (l : Fin 2) : Fin 2 := if l = 0 then 1 else 0

/-- The lane's job can be the next to end: every job takes the same time, so none that started before it still runs
(R135). -/
def Transform.endsNext (x : Transform) (l : Fin 2) : Bool :=
  match x.lane l, x.lane (otherLane l) with
  | some r, some q => decide (r.start ≤ q.start)
  | _, _ => true

/-- A freed lane makes its selection, and the moment of that start is over: the next selection starts its job later (R135,
R136). -/
def refillLane (l : Fin 2) (s : State) : State := startsDone (selectLane l s)

/-- The waiting jobs of an owner are withdrawn and its running ones cut off; each lane so freed selects (R136, R139). When
both are freed lane 0 selects before lane 1, so that the job of the first selection ends first (R135,
notes/assumptions/39.md). -/
def dropJobs (o : Owner) (s : State) : State :=
  let s1 := { s with lanes := { s.lanes with jobs := s.lanes.jobs.filter fun j => decide (j.owner ≠ o) } }
  let s2 := if runsFor o s1.lanes.lane0 then refillLane 0 s1 else s1
  if runsFor o s2.lanes.lane1 then refillLane 1 s2 else s2

/-- What a job makes of its unit (R129). A root key job works on a catalogue record, which is held by its fields. -/
def transformUnit (d : JobDir) (k : WorkKey) (t : Tweak) (x : UnitData) : UnitData :=
  match k, d with
  | .slot k, .encrypt => Config.transform k t x
  | .slot k, .decrypt => (Config.transform k t).symm x
  | .root, _ => x
  | .lost, _ => Config.unkeyed t x

end Sys2Proof.Machine
end

