-- ==== Sys2Proof/Machine/Frames.lean ====
section
/-!
DEFINITION. The frame buffer: which requests are grantable, the grant of a frame, the requests that follow a grant, the
arbiter and the release of a frame (chapter 6).
-/

namespace Sys2Proof.Machine

/-! ### Frames and their holders (R114) -/

/-- Shared frames a command holds. -/
def State.framesHeld (s : State) (t : HostTag) : Nat := (s.buffer.frames.filter fun f => decide (f.holder = t)).length
/-- Shared frames in use. -/
def State.framesInUse (s : State) : Nat := s.buffer.frames.length
/-- Shared frames that are free. -/
def State.framesFree (s : State) : Nat := Config.sharedFrames - s.framesInUse
/-- The bulk ceiling of a code (R122). -/
def ceilingOf (code : Nat) : Nat := 15 * (code + 1)
/-- The frame of a number. -/
def State.frame? (s : State) (n : Nat) : Option Frame := s.buffer.frames.find? fun f => decide (f.num = n)
/-- The frame in which a command stages a unit. -/
def State.frameOf (s : State) (t : HostTag) (u : Nat) : Option Frame :=
  s.buffer.frames.find? fun f => decide (f.holder = t) && decide (f.unit = u)
/-- The frame of a number changed by f. -/
def State.modFrame (s : State) (n : Nat) (f : Frame → Frame) : State :=
  { s with buffer := { s.buffer with frames := s.buffer.frames.map fun x => if x.num = n then f x else x } }
/-- The numbers of the shared frames, 4 … 63. -/
def sharedNumbers : List Nat := List.range' 4 60
/-- The lowest-numbered free shared frame (R118). -/
def State.lowestFree (s : State) : Option Nat :=
  sharedNumbers.find? fun n => s.buffer.frames.all fun f => decide (f.num ≠ n)
/-- A frame put in its place by number. -/
def insertFrame (f : Frame) : List Frame → List Frame
  | [] => [f]
  | x :: xs => if f.num ≤ x.num then f :: x :: xs else x :: insertFrame f xs
/-- A granted frame is held. -/
def State.holdFrame (s : State) (f : Frame) : State :=
  { s with buffer := { s.buffer with frames := insertFrame f s.buffer.frames } }
def State.setRequests (s : State) (rs : List Req) : State := { s with buffer := { s.buffer with requests := rs } }

/-! ### Requests (R117, R118) -/

/-- A PUSH or a PLAY FILL stands in the receive tier (R120, R123). -/
def Req.receive (r : Req) : Bool :=
  match r.kind, r.cls with
  | .push, _ => true
  | .fill, .play => true
  | _, _ => false

/-- A receive request of the same command for an earlier unit waits: a READ's frames are granted in the order of its
units (R117, R118). -/
def Req.blockedBy (waiting : List Req) (r : Req) : Bool :=
  waiting.any fun q => decide (q.tag = r.tag) && q.receive && decide (q.unit < r.unit)

/-- Whether a request is grantable now, waiting or just made (R118). -/
def grantable (r : Req) (s : State) : Bool :=
  decide (s.framesHeld r.tag < Config.framesPerCommand) &&
  (if r.receive then decide (1 ≤ s.framesFree) && !r.blockedBy s.buffer.requests
   else if r.cls = .bulk then decide (2 ≤ s.framesFree) && decide (s.framesInUse < ceilingOf s.buffer.ceiling)
   else decide (2 ≤ s.framesFree))

/-- The drive command of a host tag that is outstanding at the drive. -/
def State.driveCmdOf (s : State) (t : HostTag) : Option DriveCmd :=
  s.drive.outstanding.find? fun d => decide (d.who = .host t)

/-- The next sector of a drive command to move. -/
def DriveCmd.next (d : DriveCmd) : Nat := d.lba + d.moved
/-- How many sectors the next transfer of one unit moves: to the end of the unit or of the run (R119). -/
def DriveCmd.nextCount (d : DriveCmd) : Nat := min (8 * (unitOf d.next) + 8) (d.lba + d.count) - d.next

/-- The transfer of the next unit of a drive command starts in a frame (R119). -/
def startDriveXfer (push : Bool) (t : HostTag) (n : Nat) (s : State) : State :=
  match s.driveCmdOf t with
  | some d => { s with drive := { s.drive with
      hold := none, xfer := some { push := push, tag := t, frame := n, lba := d.next, count := d.nextCount } } }
  | none => s

/-- The host link is bringing the sectors of this frame's unit (R127). -/
def State.takingInto (s : State) (n : Nat) : Bool :=
  match s.host.xfer with
  | some x => decide (x.frame = n) && !x.send && !x.done
  | none => false

/-- Every sector that the drive is owed of a frame's unit is there: it is encrypted, or has come from the host (R83,
R125). -/
def Frame.arrived (f : Frame) (c : Cmd) : Bool :=
  decide (f.cond = .ready) || (decide (f.cond = .passing) && f.fromHost && decide (c.need f.unit ≤ f.present))

/-- A frame whose unit is ready for the drive: encrypted, or cut-through with its first sector there, which is so from the
start of its transfer from the host (R83, R125, notes/assumptions/11.md). -/
def Frame.readyForDrive (f : Frame) (c : Cmd) (s : State) : Bool :=
  decide (f.dir = .toDrive) &&
  (f.arrived c || (decide (f.cond = .passing) && f.fromHost && s.takingInto f.num))

/-- The frame of the unit that a drive command pulls next, if it is ready. -/
def State.pullFrame (s : State) (c : Cmd) (d : DriveCmd) : Option Frame :=
  match s.frameOf c.tag (unitOf d.next) with
  | some f => if f.readyForDrive c s then some f else none
  | none => none

/-- A pull that waits is served once its unit is ready (R84, R125, R138). -/
def servePull (t : HostTag) (s : State) : State :=
  match s.cmd? t, s.driveCmdOf t with
  | some c, some d =>
    if s.drive.hold = some (.pull t) then
      match s.pullFrame c d with
      | some f => startDriveXfer false t f.num s
      | none => s
    else s
  | _, _ => s

/-- The content of an IDENTIFY answer (R90). -/
def State.identityUnit (s : State) : UnitData :=
  match s.identity with
  | some d => placeSectors UnitData.zero 0 [identityAnswer d.sector s.presented 28]
  | none => UnitData.zero

/-- The frame that a grant makes (R114, R117, R120, R121, R125). -/
def grantedFrame (r : Req) (c : Cmd) (n : Nat) (s : State) : Frame :=
  match r.kind with
  | .push =>
    { num := n, holder := r.tag, unit := r.unit, cls := r.cls, data := UnitData.zero, order := s.stamp,
      dir := if c.state = .mergeRead then .toDrive else .toHost,
      cond := if r.cls = .bulk then .passing else .filling,
      present := if r.cls = .bulk then 1 else 0 }
  | .fill =>
    { num := n, holder := r.tag, unit := r.unit, cls := r.cls, order := s.stamp, dir := .toHost, cond := .ready,
      present := c.need r.unit, data := if c.kind = .identify then s.identityUnit else UnitData.zero }
  | .intake =>
    { num := n, holder := r.tag, unit := r.unit, cls := r.cls, data := UnitData.zero, order := s.stamp, dir := .toDrive,
      cond := if r.cls = .bulk then .passing else .filling, fromHost := true }

/-- A grant: the lowest-numbered free frame takes the request (R118); a granted PUSH ends the stall and its transfer
starts (R119), a granted FILL counts as received (R120), a granted INTAKE as granted (R121). -/
def grant (r : Req) (s : State) : State :=
  match s.cmd? r.tag, s.lowestFree with
  | some c, some n =>
    let s1 := (s.holdFrame (grantedFrame r c n s)).tickStamp
    match r.kind with
    | .push => startDriveXfer true r.tag n s1
    | .fill => s1.modCmd r.tag fun c => { c with received := c.received + 1 }
    | .intake => s1.modCmd r.tag fun c => { c with granted := c.granted + 1 }
  | _, _ => s

/-- What a command wants of the frame buffer next. -/
inductive Wanted where
  | nothing
  /-- Intake reaches a merge unit whose base is HELD in this frame (R102). -/
  | base (frame unit : Nat)
  | ask (r : Req)

/-- Whether a request of this kind of a command waits. -/
def State.waitsFor (s : State) (t : HostTag) (k : ReqKind) : Bool :=
  s.buffer.requests.any fun q => decide (q.tag = t) && decide (q.kind = k)

/-- The next FILL of a command: the unit after those received, if the part makes its content (R117, R120). -/
def wantedFill (c : Cmd) (s : State) : Wanted :=
  if c.received < c.units ∧ (c.state = .active ∨ c.state = .ending) ∧ ¬ s.waitsFor c.tag .fill then
    let u := c.firstUnit + c.received
    match c.kind with
    | .windowRead | .identify => .ask { kind := .fill, cls := .bulk, tag := c.tag, unit := u }
    | .read => if c.zeroFilled u then .ask { kind := .fill, cls := .play, tag := c.tag, unit := u } else .nothing
    | .write | .deallocate | .flush | .controlWrite | .pass => .nothing
  else .nothing

/-- The next INTAKE of a command: within 8 units of those pulled, or the HELD base of a merge unit (R102). The limit counts
the units granted: a unit granted and not yet taken counts as taken for R117 and as ahead for R121
(notes/assumptions/33.md). -/
def wantedIntake (c : Cmd) (s : State) : Wanted :=
  if c.granted < c.units ∧ c.state = .active ∧ c.granted < c.pulled + Config.intakeAhead ∧ ¬ s.waitsFor c.tag .intake then
    let u := c.firstUnit + c.granted
    let req : Wanted := .ask { kind := .intake, cls := c.classOf u, tag := c.tag, unit := u }
    match c.mergeOf u with
    | some e => if e.state = .held then
        match s.frameOf c.tag u with
        | some f => .base f.num u
        | none => req
      else req
    | none => req
  else .nothing

def wanted (c : Cmd) (s : State) : Wanted :=
  if c.sends then wantedFill c s else if c.takes then wantedIntake c s else .nothing

/-- Intake reaches a merge unit whose frame holds the base: the frame fills from the host (R102). It has no INTAKE grant:
its age for R127 is this moment (notes/assumptions/33.md). The entry's state stays HELD, or ZERO for a ZERO base, until
the command ends: R98 names no state after these (notes/assumptions/34.md). -/
def takeBase (t : HostTag) (n : Nat) (s : State) : State :=
  ((s.modFrame n fun f => { f with cond := .filling, fromHost := true, order := s.stamp }).modCmd t
    fun c => { c with granted := c.granted + 1 }).tickStamp

/-- A command makes the requests it may make: each grantable one is granted at once, one that is not waits (R118, R121).
A command holds at most 8 frames, so it stops within `fuel` = 16 requests. -/
def followUp : Nat → HostTag → State → State
  | 0, _, s => s
  | fuel + 1, t, s =>
    match s.cmd? t with
    | none => s
    | some c =>
      match wanted c s with
      | .nothing => s
      | .base n _ => followUp fuel t (takeBase t n s)
      | .ask r =>
        if grantable r s then followUp fuel t (grant r s)
        else s.setRequests (s.buffer.requests ++ [r])

/-- A command makes the requests it may make. -/
def makeRequests (t : HostTag) (s : State) : State := followUp 16 t s

/-! ### Arbitration (R123, R124) -/

/-- The waiting requests that are grantable, oldest first. -/
def State.grantables (s : State) : List Req := s.buffer.requests.filter fun r => grantable r s

/-- The arbiter's order (R123). -/
def pickRequest (gs : List Req) : Option Req :=
  match gs.find? (fun r => decide (r.kind = .push)) with
  | some r => some r
  | none => match gs.find? (fun r => r.receive) with
    | some r => some r
    | none => match gs.find? (fun r => decide (r.cls = .bulk) && decide (16 ≤ r.bypass)) with
      | some r => some r
      | none => match gs.find? (fun r => decide (r.cls = .record)) with
        | some r => some r
        | none => gs.head?

/-- A grant to a request outside the receive tier passes over every other BULK request that was grantable (R124). -/
def passOver (gs : List Req) (r q : Req) : Req :=
  if ¬ r.receive ∧ q.cls = .bulk ∧ q.kind ≠ .push ∧ q ∈ gs then { q with bypass := min 16 (q.bypass + 1) } else q

/-- An arbitration: grants, one at a time, while some waiting request is grantable (R123). Each grant holds a frame of the
60, so it stops within `fuel` = 61 grants. -/
def arbitrateN : Nat → State → State
  | 0, s => s
  | fuel + 1, s =>
    match pickRequest s.grantables with
    | none => s
    | some r =>
      arbitrateN fuel
        (makeRequests r.tag (grant r (s.setRequests ((s.buffer.requests.erase r).map (passOver s.grantables r)))))

def arbitrate (s : State) : State := arbitrateN 61 s

/-- A shared frame is freed, and an arbitration starts (R126, R123). -/
def freeFrame (n : Nat) (s : State) : State :=
  arbitrate { s with buffer := { s.buffer with frames := s.buffer.frames.filter fun f => decide (f.num ≠ n) } }

/-- The waiting requests of a command that ends are removed, and a stall its PUSH held ends (R126). -/
def dropRequests (t : HostTag) (s : State) : State :=
  { s with
    buffer := { s.buffer with requests := s.buffer.requests.filter fun q => decide (q.tag ≠ t) }
    drive := { s.drive with
      hold := match s.drive.hold with
        | some (.stall t') => if t' = t then none else s.drive.hold
        | some (.pull t') => if t' = t then none else s.drive.hold
        | none => none } }

/-- Every frame of a command that ends is freed, each with its arbitration (R126). -/
def freeFramesOf (t : HostTag) (s : State) : State :=
  ((s.buffer.frames.filter fun f => decide (f.holder = t)).map (·.num)).foldl (fun s n => freeFrame n s) s

end Sys2Proof.Machine
end

