-- ==== Sys2Proof/Machine/Catalogue.lean ====
section
/-!
DEFINITION. The catalogue controller's work up to the drive: requests, service tags, the forming of records, claims, and
the sweep's move from index to index (R147, R149, R151 to R153, R163).
-/

namespace Sys2Proof.Machine

/-- An entry joins the drive issue queue at its tail (R70). -/
def joinQueue (e : DriveCmd) (s : State) : State := { s with drive := { s.drive with queue := s.drive.queue ++ [e] } }

/-- The flight on a service tag. -/
def State.flight? (s : State) (t : SvcTag) : Option Flight := s.cat.flights.find? fun f => decide (f.tag = t)
/-- The flight of an operation. -/
def State.flightOfOp (s : State) (num : Nat) : Option Flight := s.cat.flights.find? fun f => decide (f.op.num = num)
/-- The flight on a service tag changed by f. -/
def State.modFlight (s : State) (t : SvcTag) (f : Flight → Flight) : State :=
  { s with cat := { s.cat with flights := s.cat.flights.map fun x => if x.tag = t then f x else x } }
/-- The lowest-numbered free service tag (R149). -/
def State.freeTag (s : State) : Option SvcTag :=
  ([0, 1, 2, 3] : List SvcTag).find? fun t => s.cat.flights.all fun f => decide (f.tag ≠ t)

/-- The claim on an index (R152). -/
def State.claim? (s : State) (i : Nat) : Option Claim := s.cat.claims.find? fun c => decide (c.index = i)
/-- A claim is taken; nothing is known of the index's generation yet (R147). -/
def takeClaim (i : Nat) (o : SvcOwner) (s : State) : State :=
  { s with cat := { s.cat with claims := s.cat.claims ++ [{ index := i, owner := o }] } }
/-- An owner's claims are released. -/
def dropClaims (o : SvcOwner) (s : State) : State :=
  { s with cat := { s.cat with claims := s.cat.claims.filter fun c => decide (c.owner ≠ o) } }
/-- The known generation of a claimed index (R147). -/
def State.knownGen (s : State) (i : Nat) : Option Nat := (s.claim? i).bind (·.gen)
def setKnownGen (i : Nat) (g : Option Nat) (s : State) : State :=
  { s with cat := { s.cat with claims := s.cat.claims.map fun c => if c.index = i then { c with gen := g } else c } }

/-- The epoch of the header copy; 0 if it is not VALID (R199). -/
def State.epoch (s : State) : Nat := match s.cat.header with
  | .valid e => e
  | .absent | .unreadable | .foreign | .unknown => 0

/-- The catalogue index an operation works on (R148). -/
def SvcKind.index : SvcKind → Nat
  | .load i => i
  | .store i => i
  | .erase i => i
  | .headerRead => 0
  | .headerWrite _ => 0

/-- State of a record made from a slot (R145, R153). -/
def recStateOf : Option TitleState → RecState
  | some .recording => .recording
  | some .sealed => .sealed
  | some .moving => .moving
  | none => .empty

/-- The sealed fields of a record of a slot (R153). -/
def fieldsOfSlot (t : TitleSlot) (extents : List RecExtent) : TitleFields :=
  { state := recStateOf t.state, cls := t.cls.getD .free, expiry := t.expiry, nextUnit := t.nextUnit, extents := extents,
    key := t.key, lastChanger := t.lastChanger }

/-- The sealed fields of a record of state EMPTY (R145). Its copy class is FREE and its last-changer 0: the rule names
neither (notes/assumptions/34.md). -/
def emptyFields : TitleFields :=
  { state := .empty, cls := .free, expiry := none, nextUnit := 0, extents := [], key := none, lastChanger := 0 }

/-- The tweak of catalogue work: a title record's, or the area header's (R130). -/
def catalogueTweak (gen i : Nat) : Tweak := { title := 0, seq := gen, unit := i }

/-- A title record as this part writes it: the clear part, and the fields sealed with their check value (R145). -/
def sealedRecord (epoch i gen : Nat) (fields : TitleFields) : DiskUnit :=
  let clear : TitleClear := { marker := true, epoch := epoch, index := i, gen := gen }
  .title clear { ours := true, tweak := catalogueTweak gen i, fields := fields, check := { clear := clear, fields := fields } }

/-- An area header as this part writes it (R143, R161). -/
def sealedHeader (epoch capacity : Nat) : DiskUnit :=
  let clear : HeaderClear := { marker := true, epoch := epoch, capacity := capacity }
  .header clear { ours := true, tweak := catalogueTweak 0 0, check := clear }

/-- The SERVICE job on a service frame (R134). -/
def serviceJob (t : SvcTag) (d : JobDir) (tw : Tweak) : Job :=
  { frame := t.val, dir := d, source := .root, tweak := tw, owner := .service t, cls := .service }

/-- A record is formed in the service frame and its ENCRYPT job submitted (R151). -/
def formRecord (t : SvcTag) (unit : DiskUnit) (tw : Tweak) (s : State) : State :=
  submitJob (serviceJob t .encrypt tw) (s.modFlight t fun f => { f with content := .formed unit })

/-- A record of an index is formed under its next generation, which becomes the known one (R147). -/
def formTitle (t : SvcTag) (i : Nat) (fields : TitleFields) (s : State) : State :=
  let g := nextGeneration (s.knownGen i)
  formRecord t (sealedRecord s.epoch i g fields) (catalogueTweak g i) (setKnownGen i (some g) s)

/-- The fields a STORE takes when it takes its tag (R153). -/
def storeFields (op : SvcOp) (s : State) : TitleFields :=
  match op.owner with
  | .slot k => fieldsOfSlot (s.slot k) (op.extents.getD (recordExtents s.map k))
  | .sweep | .header => emptyFields

/-- The drive command of an operation. -/
def serviceCmd (t : SvcTag) (op : DriveOp) (i : Nat) (s : State) : DriveCmd :=
  { who := .service t, op := op, lba := s.catalogueLba i, count := 8 }

/-- The moment an operation takes its tag: a read joins the drive issue queue (R150), a write forms its record (R151). -/
def beginFlight (f : Flight) (s : State) : State :=
  match f.op.kind with
  | .load i => joinQueue (serviceCmd f.tag .serviceRead i s) s
  | .headerRead => joinQueue (serviceCmd f.tag .serviceRead 0 s) s
  | .store i => formTitle f.tag i (storeFields f.op s) s
  | .erase i => formTitle f.tag i emptyFields s
  | .headerWrite e => formRecord f.tag (sealedHeader e s.driveCapacity) (catalogueTweak 0 0) s

/-- While an operation waits and a tag is free, the oldest takes the lowest free tag (R149). There are four tags. -/
def takeTags : Nat → State → State
  | 0, s => s
  | fuel + 1, s =>
    match s.cat.queue, s.freeTag with
    | op :: rest, some t =>
      let f : Flight := { tag := t, op := op }
      takeTags fuel (beginFlight f { s with cat := { s.cat with queue := rest, flights := s.cat.flights ++ [f] } })
    | _, _ => s

/-- An operation joins the service queue, and takes a tag if one is free (R149). -/
def requestOp (k : SvcKind) (o : SvcOwner) (ext : Option (List RecExtent)) (s : State) : State :=
  let op : SvcOp := { num := s.stamp, kind := k, owner := o, extents := ext }
  takeTags 4 { s with cat := { s.cat with queue := s.cat.queue ++ [op] }, stamp := s.stamp + 1 }

/-- An operation ends: its tag and frame are free, the frame's content erased, and the oldest waiting operation takes the
tag (R149). -/
def endFlight (t : SvcTag) (s : State) : State :=
  takeTags 4 { s with cat := { s.cat with flights := s.cat.flights.filter fun f => decide (f.tag ≠ t) } }

/-- A title slot claims an index (R152). -/
def State.slotClaims (s : State) (i : Nat) : Bool :=
  match s.claim? i with
  | some c => match c.owner with
    | .slot _ => true
    | .sweep | .header => false
  | none => false

/-- The slot that waits in LOADING for an index that another owner claims (R152). -/
def State.claimWaiter (s : State) (i : Nat) : Option SlotIx :=
  allSlots.find? fun k => decide ((s.slot k).phase = .loading) && decide ((s.slot k).number = some i)

/-- A slot in LOADING takes its claim and requests its LOAD, or waits for the sweep's claim (R152). -/
def claimAndLoad (k : SlotIx) (i : Nat) (s : State) : State :=
  match s.claim? i with
  | some _ => s
  | none => requestOp (.load i) (.slot k) none (takeClaim i (.slot k) s)

/-- The sweep moves to index j, or past it while slots claim it; after index 1023 it ends (R163). -/
def sweepTo : Nat → Nat → State → State
  | 0, _, s => ({ s with cat := { s.cat with sweeping := false, progress := 0 } }).setFlag .sweepDone
  | fuel + 1, j, s =>
    if s.slotClaims j then sweepTo fuel (j + 1) s
    else requestOp (.load j) .sweep none
      (takeClaim j .sweep { s with cat := { s.cat with progress := j } })

/-- The sweep moves on from index j: its claim is released, a slot that waits for the index takes it and its LOAD joins
the queue first, and the sweep goes to j + 1 (R152, R163). -/
def sweepOn (j : Nat) (s : State) : State :=
  let s1 := dropClaims .sweep s
  let s2 := match s1.claimWaiter j with
    | some k => claimAndLoad k j s1
    | none => s1
  sweepTo (1023 - j) (j + 1) s2

end Sys2Proof.Machine
end

