-- ==== Sys2Proof/Machine/Slots.lean ====
section
/-!
DEFINITION. The steps of a title slot from phase to phase, and the finish of the executing control command (R9 to R13,
R21 to R23, R193, R198).
-/

namespace Sys2Proof.Machine

/-! ### The finish of a control command (R193, R198) -/

/-- A command's work is over: its slot enters ENDING and its completion GOOD is due (R72, R127). -/
def completeGood (t : HostTag) (s : State) : State :=
  let s1 := s.setCmdState t .ending
  { s1 with host := { s1.host with due := s1.host.due ++ [{ tag := t, ending := .good }] } }

/-- The number of the next reply (R198). -/
def State.nextReply (s : State) : Nat :=
  match s.win.reply with
  | none => 1
  | some r => nextNumber Config.maxCount32 r.number

/-- The reply that the executing record gets with this result (R198). -/
def State.replyFor (s : State) (e : Executing) (r : Result) (d : Details) : Reply :=
  { request := recRequest e.record, code := recCode e.record, slot := recSlot e.record, result := r,
    nonce := s.win.nonce, number := s.nextReply, details := d }

/-- The executing command finishes: the reply is written, the window becomes IDLE, and the CONTROL_WRITE, if a host link
reset has not freed its slot, completes GOOD (R193). -/
def finishControl (r : Result) (d : Details) (s : State) : State :=
  match s.win.executing with
  | none => s
  | some e =>
    let s1 := { s with win := { s.win with executing := none, reply := some (s.replyFor e r d) } }
    match e.tag with
    | some t => completeGood t s1
    | none => s1

/-- The executing command waits at this stage on this slot. -/
def State.waitsAt (s : State) (st : Stage) (i : SlotIx) : Bool :=
  match s.win.executing with
  | some e => decide (e.stage = st) && decide (recSlot e.record = i.val)
  | none => false

/-- The command that waits at this stage on this slot, if one does, is answered. -/
def answer (st : Stage) (i : SlotIx) (r : Result) (s : State) : State :=
  if s.waitsAt st i then finishControl r .none s else s

/-- The executing command goes on to wait at a stage. -/
def setStage (st : Stage) (s : State) : State :=
  match s.win.executing with
  | some e => { s with win := { s.win with executing := some { e with stage := st } } }
  | none => s

/-! ### Slot phases -/

/-- The step into IDLE: every field returns to its IDLE value and the slot's claim is released (R13, R152). -/
def enterIdle (i : SlotIx) (s : State) : State := (dropClaims (.slot i) s).setSlot i TitleSlot.empty

/-- A slot asks for a store (R21, R23). -/
def requestStore (i : SlotIx) (s : State) : State :=
  requestOp (.store ((s.slot i).number.getD 0)) (.slot i) none
    (s.modSlot i fun t => { t with storeInFlight := true })

/-- A change of persistent fields: the last-changer, dirty, and a store (R21). -/
def changeAndStore (i : SlotIx) (request : Nat) (f : TitleSlot → TitleSlot) (s : State) : State :=
  requestStore i (s.modSlot i fun t => { f t with lastChanger := request, dirty := true })

/-- The step out of DRAINING: the slot's extents leave the map, and the drain reason and kind decide what follows (R11,
R38, R153). -/
def leaveDraining (i : SlotIx) (s : State) : State :=
  let t := s.slot i
  let kept := recordExtents s.map i
  let s1 := { s with map := s.map.filter fun e => decide (e.slot ≠ i) }
  match t.kind, t.drain with
  | some .recording, some .closed =>
    if t.dirty then
      requestOp (.store (t.number.getD 0)) (.slot i) (some kept) (s1.modSlot i fun t => { t with phase := .storing })
    else answer .idle i .ok (enterIdle i s1)
  | some .recording, _ =>
    requestOp (.erase (t.number.getD 0)) (.slot i) none
      (s1.modSlot i fun t => { t with phase := .erasing, key := none, retired := none })
  | _, _ => answer .idle i .ok (enterIdle i s1)

/-- The test of R11: a slot in DRAINING leaves it when its in-flight count is 0 and no store is in flight. -/
def drainTest (i : SlotIx) (s : State) : State :=
  let t := s.slot i
  if t.phase = .draining ∧ t.inFlight = 0 ∧ t.storeInFlight = false then leaveDraining i s else s

/-- The step into DRAINING with a reason, and the first test of R11 (R10). -/
def startDrain (i : SlotIx) (r : DrainReason) (s : State) : State :=
  drainTest i (s.modSlot i fun t => { t with phase := .draining, drain := some r })

/-- Whether an ACTIVE recording slot's expiry is due (R9). -/
def TitleSlot.expires (t : TitleSlot) (clock : Option Nat) : Bool :=
  decide (t.phase = .active) && decide (t.kind = some .recording) && expiryDue t.expiry clock

/-- The expiry of a slot, if it is due (R9). -/
def expireSlot (i : SlotIx) (s : State) : State :=
  if (s.slot i).expires s.clock then startDrain i .expired (s.setFlag .titleExpired) else s

/-- The expiry test over every slot (R170). Slots that leave DRAINING at this same test leave it in the order 0 to 7
(notes/assumptions/37.md). -/
def expiryTest (s : State) : State := allSlots.foldl (fun s i => expireSlot i s) s

/-- How many slots the expiry test would put into DRAINING (R168). -/
def State.expiring (s : State) : Nat := (allSlots.filter fun i => (s.slot i).expires s.clock).length

/-- The step of a recording slot into ACTIVE, with its expiry test (R9). -/
def enterActive (i : SlotIx) (s : State) : State := expireSlot i (s.modSlot i fun t => { t with phase := .active })

/-- At a piece's end the in-flight count falls, and the retired key's count if the piece referenced its generation; at 0
the retired key is destroyed (R16, R19). -/
def TitleSlot.pieceEnds (t : TitleSlot) (gen : Nat) : TitleSlot :=
  let t1 := { t with inFlight := t.inFlight - 1 }
  match t.retired with
  | some r =>
    if r.gen = gen then { t1 with retired := if r.refs ≤ 1 then none else some { r with refs := r.refs - 1 } } else t1
  | none => t1

/-- A piece ends (R19), and a slot in DRAINING makes its test (R11). -/
def endPiece (p : Piece) (s : State) : State :=
  match p.owned with
  | some o => drainTest o.slot (s.modSlot o.slot fun t => t.pieceEnds o.gen)
  | none => s

end Sys2Proof.Machine
end

