-- ==== Sys2Proof/Machine/Rings.lean ====
section
/-!
DEFINITION. Time-shift rings: geometry, retention, the ring test on a trial copy, readability (chapter 3).
-/

namespace Sys2Proof.Machine

/-- Division rounded up (00_scope.md 3.2). -/
def ceilDiv (a b : Nat) : Nat := (a + b - 1) / b

/-- Segment size of a ring of S units (R50). -/
def ringG (size : Nat) : Nat := ceilDiv size 64
/-- Segment count of a ring of S units (R50). -/
def ringM (size : Nat) : Nat := ceilDiv size (ringG size)

/-- The retention a ring takes (R48). -/
def normRetention (cls : CopyClass) (r : Nat) : Nat :=
  if r = 0 then (if cls = .never then 5400 else 0)
  else if r < 60 then 60
  else if r > 10800 then 10800
  else r

/-- A ring as CREATE_RING makes it (R49). -/
def newRing (size retention : Nat) : Ring :=
  { size := size, g := ringG size, m := ringM size, head := none, lapCounter := 0, retention := retention,
    segs := List.replicate (ringM size) {} }

/-- The entry of segment k. -/
def Ring.seg (r : Ring) (k : Nat) : Segment := r.segs.getD k {}

/-- A segment is readable at a clock (R60). -/
def Segment.readable (g : Segment) (clock : Option Nat) : Bool :=
  decide (g.lap ≠ 0) && (decide (g.stamp = 0) || match g.firstWrite, clock with
    | some f, some c => decide (c < f + g.stamp)
    | _, _ => false)

/-- A trial copy of a ring, whether it has been rekeyed, and the lap list so far (R54, R55, R57). -/
structure Trial where
  ring : Ring
  rekeyed : Bool := false
  laps : List LapEntry := []
  deriving DecidableEq, Repr

/-- A segment is started with a lap: its entry, the lap counter and the head (R55). -/
def Ring.start (r : Ring) (k lap : Nat) (clock : Option Nat) : Ring :=
  { r with
    head := some k, lapCounter := lap,
    segs := r.segs.set k { lap := lap, firstWrite := clock, stamp := r.retention } }

/-- Every segment entry empty (R57, R64). -/
def Ring.clearSegs (r : Ring) : Ring := { r with segs := r.segs.map fun _ => {} }

/-- A start on the trial copy: plain, or by a rekey when the lap would be beyond 65,535 (R54, R57, R58). -/
def Trial.start (t : Trial) (k lap : Nat) (clock : Option Nat) (retired : Bool) : Except Reason Trial :=
  if lap > Config.maxCount16 then
    if retired then .error .rekeyBusy
    else .ok { ring := t.ring.clearSegs.start k 1 clock, rekeyed := true,
               laps := t.laps ++ [{ seg := k, lap := 1, started := true }] }
  else .ok { t with ring := t.ring.start k lap clock, laps := t.laps ++ [{ seg := k, lap := lap, started := true }] }

/-- The ring test of one segment (R54). -/
def Trial.touch (t : Trial) (k : Nat) (clock : Option Nat) (retired : Bool) : Except Reason Trial :=
  match t.ring.head with
  | none => t.start k (t.ring.lapCounter + 1) clock retired
  | some h =>
    if k = h then .ok { t with laps := t.laps ++ [{ seg := k, lap := (t.ring.seg h).lap }] }
    else if k = (h + 1) % t.ring.m then
      t.start k (if k = 0 then (t.ring.seg h).lap + 1 else (t.ring.seg h).lap) clock retired
    else .error .ringOrder

/-- The ring test over the segments a piece touches, in order (R54). -/
def ringTest (clock : Option Nat) (retired : Bool) : List Nat → Trial → Except Reason Trial
  | [], t => .ok t
  | k :: ks, t =>
    match t.touch k clock retired with
    | .error r => .error r
    | .ok t' => ringTest clock retired ks t'

/-- The segments that the offsets a … b touch, in order (R50). -/
def segsTouched (g a b : Nat) : List Nat := List.range' (a / g) (b / g - a / g + 1)

/-- The lap list of a read piece, with its readable marks (R60). -/
def readLaps (r : Ring) (clock : Option Nat) (ks : List Nat) : List LapEntry :=
  ks.map fun k => { seg := k, lap := (r.seg k).lap, readable := (r.seg k).readable clock }

/-- The segments by age: after the head to the end, then from 0 to the head (R65). -/
def Ring.byAge (r : Ring) (h : Nat) : List Nat := List.range' (h + 1) (r.m - (h + 1)) ++ List.range' 0 (h + 1)

/-- The oldest readable segment (R65). -/
def Ring.oldestReadable (r : Ring) (clock : Option Nat) : Option Nat :=
  match r.head with
  | none => none
  | some h => (r.byAge h).find? fun k => (r.seg k).readable clock

/-- The key step of a rekey: the current key is retired with the pieces that reference it, or destroyed if there are
none, and a fresh key becomes current with the next generation (R17, R57). -/
def rekeySlot (i : SlotIx) (s : State) : State :=
  let t := s.slot i
  let old : Option Retired := match t.key, t.gen with
    | some k, some g => if t.inFlight = 0 then none else some { key := k, gen := g, refs := t.inFlight }
    | _, _ => none
  let new : TitleSlot :=
    { t with retired := old, key := some s.freshKey, gen := some (nextNumber Config.maxCount16 (t.gen.getD 0)) }
  ((s.setSlot i new).drawn).setFlag .ringRekeyed

end Sys2Proof.Machine
end

