-- ==== Sys2Proof/Machine/Sectors.lean ====
section
/-!
DEFINITION. The sectors of the control window as the host reads them: the command sector's read-back, the reply, the part
status and the slot status (R192, R198 to R200, section 11.9).
-/

namespace Sys2Proof.Machine

/-- The details fields of a reply (section 11.9). -/
def Details.fields : Details → List (Nat × Nat × Nat)
  | .none => []
  | .ring g m r => [(20, 4, g), (24, 1, m), (26, 2, r)]
  | .openFailed p k => [(20, 1, p), (21, 1, k)]
  | .retention r => [(26, 2, r)]
  | .clock v held unset n => [(20, 4, v), (24, 1, markCode held), (25, 1, markCode unset), (26, 1, n)]
  | .window ms => [(20, 4, ms)]
  | .monitor st set => [(20, 1, st.code), (22, 2, set.toNat)]
  | .epoch e => [(20, 2, e)]

/-- The reply sector (R198). -/
def Reply.sector (r : Reply) : Sector :=
  layout ([(0, 4, r.request), (4, 1, r.code), (5, 1, r.result.code), (6, 1, r.slot), (8, 8, r.nonce.toNat),
    (16, 4, r.number)] ++ r.details.fields)

/-- Command slots in a state (R199). -/
def State.inState (s : State) (st : CmdState) : Nat := (s.table.filter fun c => decide (c.state = st)).length

/-- The time left of a window of this length after n more free values have been read: free, within the window, and no
more than was left before (R177, notes/assumptions/8.md). -/
def timeLeft (length since : Nat) : Nat → Nat
  | 0 => Config.msRemaining since % (length + 1)
  | n + 1 => min (timeLeft length since n) (Config.msRemaining (since + n + 1) % (length + 1))

/-- The time remaining of the alarm window, 0 outside ALARM (R177). -/
def State.remaining (s : State) : Nat :=
  match s.mon.deadline with
  | some d => timeLeft d.length d.since (s.freeReads - d.since)
  | none => 0

/-- Whether a PUSH stalls the drive link (R119). -/
def State.stalled (s : State) : Bool :=
  match s.drive.hold with
  | some (.stall _) => true
  | some (.pull _) => false
  | none => false

/-- The fields of a violation kind's counter or reaction. -/
def kindFields (base width : Nat) (v : Vector Nat 10) : List (Nat × Nat × Nat) :=
  (List.range 10).map fun k => (base + width * k, width, v.toList.getD k 0)

/-- The part status sector (R199). A failed command whose completion is on its way counts in ENDING
(notes/assumptions/35.md). -/
def State.partStatus (s : State) : Sector :=
  layout (
    [(0, 1, s.phase.code), (1, 1, markCode s.clock.isSome), (2, 1, s.mon.state.code), (3, 1, markCode s.cat.sweeping),
     (4, 4, s.clock.getD 0), (8, 8, s.win.nonce.toNat), (16, 2, s.win.flags.toNat), (18, 2, s.mon.alarmed.toNat),
     (20, 4, s.remaining), (24, 4, s.mon.window)]
    ++ kindFields 28 1 (s.mon.reactions.map Reaction.code)
    ++ [(38, 1, s.buffer.ceiling), (39, 1, s.win.readPolicy.code), (40, 1, s.win.writePolicy.code),
        (41, 1, s.win.deallocatePolicy.code), (42, 1, s.framesInUse), (43, 1, markCode s.stalled)]
    ++ kindFields 44 2 s.mon.counters
    ++ (match s.mon.refusal with
        | some r => [(64, 2, r.number), (66, 1, tagCode r.tag), (67, 1, r.reason.code), (68, 8, r.lba), (76, 4, r.count)]
        | none => [])
    ++ [(80, 1, 29 - s.table.length), (81, 1, s.inState .waitOverlap), (82, 1, s.inState .waitControl),
        (83, 1, s.inState .mergeRead), (84, 1, s.inState .active), (85, 1, s.inState .ending + s.inState .failed),
        (86, 1, markCode s.win.executing.isSome), (87, 1, s.cat.flights.length),
        (88, 4, match s.win.executing with | some e => recRequest e.record | none => 0),
        (92, 4, s.cat.queue.length), (96, 2, s.cat.progress), (98, 2, s.cat.erased),
        (100, 4, match s.win.reply with | some r => r.number | none => 0),
        (104, 8, s.presented), (112, 8, s.driveCapacity), (120, 2, s.epoch)])

/-- The ring fields of a slot status sector (R65). -/
def Ring.fields (r : Ring) (clock : Option Nat) : List (Nat × Nat × Nat) :=
  [(36, 4, r.size), (40, 4, r.g), (44, 1, r.m), (52, 2, r.lapCounter), (54, 2, r.retention)]
  ++ (match r.head with
      | some h => [(45, 1, 1), (46, 1, h), (50, 2, (r.seg h).lap)]
      | none => [])
  ++ (match r.oldestReadable clock with
      | some k => [(47, 1, 1), (48, 1, k)] ++
          (match (r.seg k).firstWrite with
           | some f => [(49, 1, 1), (56, 4, f)]
           | none => [])
      | none => [])

/-- The slot status sector of slot i (R200). -/
def State.slotStatus (s : State) (i : SlotIx) : Sector :=
  let t := s.slot i
  layout (
    [(0, 1, i.val), (1, 1, t.phase.code), (2, 1, kindCode t.kind), (3, 1, stateCode t.state), (4, 1, classCode t.cls),
     (5, 1, drainCode t.drain), (6, 1, markCode t.halted), (7, 1, markCode t.dirty), (8, 1, markCode t.storeInFlight),
     (9, 1, markCode t.expiry.isSome), (10, 1, markCode t.retired.isSome), (12, 2, t.number.getD 0),
     (14, 2, t.gen.getD 0)]
    ++ (match t.retired with
        | some r => [(16, 2, r.gen), (18, 2, r.refs)]
        | none => [])
    ++ [(20, 2, t.inFlight), (22, 2, t.extentCount), (24, 4, t.expiry.getD 0), (28, 4, t.nextUnit), (32, 4, t.lastChanger)]
    ++ (match t.ring with
        | some r => r.fields s.clock
        | none => []))

/-- The sector of the control window at an LBA (R192). -/
def State.windowSector (s : State) (lba : Nat) : Sector :=
  let k := lba - s.windowBase
  if k = 0 then (match s.win.last with | some r => recReadBack r | none => Sector.zero)
  else if k = 1 then (match s.win.reply with | some r => r.sector | none => Sector.zero)
  else if k = 2 then s.partStatus
  else match slotOfNat (k - 3) with
    | some i => s.slotStatus i
    | none => Sector.zero

/-- n sectors of the control window from an LBA on, as they stand now (R82). -/
def State.windowSectors (s : State) (lba n : Nat) : List Sector := (List.range' lba n).map s.windowSector

end Sys2Proof.Machine
end

