-- ==== Sys2Proof/Machine/Commands.lean ====
section
/-!
DEFINITION. A host command's way from admission to its end, and the host port: entry into MERGE_READ and ACTIVE, the end
of a command with all that follows from it, completions and transfers (R19, R72, R79, R99, R100, R107, R126, R127, R139).
-/

namespace Sys2Proof.Machine

/-! ### Into MERGE_READ and ACTIVE -/

/-- Run k of a command, as an entry of the drive issue queue (R79). -/
def joinRun (c : Cmd) (op : DriveOp) (k : Nat) (s : State) : State :=
  match c.runs[k]? with
  | some r => (joinQueue { who := .host c.tag, op := op, lba := r.lba, count := r.len } s).modCmd c.tag
      fun c => { c with nextRun := k + 1 }
  | none => s

/-- The entry into ACTIVE: the first run or the command's one drive command joins the queue, and requests begin (R72,
R79, R83, R87, R89, R91). A READ with no run enters ENDING at once (R80). -/
def enterCmdActive (t : HostTag) (s : State) : State :=
  match s.cmd? t with
  | none => s
  | some c =>
    let s1 := s.setCmdState t .active
    makeRequests t (match c.kind with
      | .read => if c.runs.isEmpty then s.setCmdState t .ending else joinRun c .read 0 s1
      | .write => joinRun c .write 0 s1
      | .flush => joinQueue { who := .host t, op := .flush } s1
      | .deallocate => joinQueue { who := .host t, op := .deallocate c.entries } s1
      | .pass => joinQueue { who := .host t, op := .pass c.words, lba := c.lba, count := c.count } s1
      | .windowRead | .identify | .controlWrite => s1)

/-- The first PENDING entry of a merge list. -/
def Cmd.nextMerge (c : Cmd) : Option MergeEntry := c.merges.find? fun e => decide (e.state = .pending)

/-- The next merge read joins the drive issue queue and its entry becomes READING (R98, R99). -/
def joinMergeRead (c : Cmd) (s : State) : State :=
  match c.nextMerge with
  | some e => (joinQueue { who := .host c.tag, op := .mergeRead, lba := 8 * e.unit, count := 8 } s).modCmd c.tag
      fun c => c.setMerge e.unit .reading
  | none => s

/-- A command that need not wait: a write with a READ base enters MERGE_READ, any other enters ACTIVE (R99, R100). -/
def beginCmd (t : HostTag) (s : State) : State :=
  match s.cmd? t with
  | none => s
  | some c =>
    if c.kind = .write ∧ c.nextMerge.isSome then joinMergeRead c (s.setCmdState t .mergeRead) else enterCmdActive t s

/-! ### The end of a command -/

/-- Commands in WAIT_OVERLAP that wait for nothing any more. -/
def State.released (s : State) : List HostTag :=
  (s.table.filter fun c =>
    decide (c.state = .waitOverlap) && decide (c.waitFor = []) && decide (c.waitStores = [])).map (·.tag)

/-- Those leave WAIT_OVERLAP, in admission order (R107, R87). -/
def beginReleased (s : State) : State := s.released.foldl (fun s t => beginCmd t s) s

/-- A tag leaves every wait set (R107, R87). -/
def dropWaits (t : HostTag) (s : State) : State :=
  { s with table := s.table.map fun c => { c with waitFor := c.waitFor.filter fun w => decide (w ≠ t) } }

/-- A store leaves every flush's list, and the flushes that wait for nothing any more enter ACTIVE (R87). -/
def storeEnded (num : Nat) (s : State) : State :=
  beginReleased { s with table := s.table.map fun c =>
    { c with waitStores := c.waitStores.filter fun n => decide (n ≠ num) } }

/-- A command leaves the drive port (R92, R93). A transfer of its own that is in progress on the host link is over: no more
of its sectors move, completions may go, and the link is busy until HOST_TRANSFER_END (notes/assumptions/32.md). -/
def leaveLinks (t : HostTag) (s : State) : State :=
  { s with
    drive := { s.drive with
      queue := s.drive.queue.filter fun d => decide (d.who ≠ .host t)
      outstanding := s.drive.outstanding.filter fun d => decide (d.who ≠ .host t)
      xfer := match s.drive.xfer with
        | some x => if x.tag = t then none else some x
        | none => none }
    host := { s.host with xfer := match s.host.xfer with
      | some x => if x.tag = t then some { x with done := true } else some x
      | none => none } }

/-- The work of a command is over: its jobs are withdrawn or cut off (R139), its requests and drive commands go (R126, R92),
and its frames are freed (R126). Those of another command that ends with it still wait (notes/assumptions/41.md). -/
def endWork (t : HostTag) (s : State) : State :=
  freeFramesOf t (leaveLinks t (dropRequests t (dropJobs (.host t) s)))

/-- The pieces of the commands end, in the order of the list, and so do the slots in DRAINING whose last piece ends (R19,
R28, notes/assumptions/18.md). -/
def endPieces (cs : List Cmd) (s : State) : State := (cs.flatMap (·.pieces)).foldl (fun s p => endPiece p s) s

/-- The entry of a command has left the overlap list: the commands behind it are released (R107). -/
def releaseBehind (t : HostTag) (s : State) : State := beginReleased (dropWaits t s)

/-- A command leaves the table and the overlap list, and its pieces end (R19, R104, R107). -/
def leaveTable (c : Cmd) (s : State) : State :=
  releaseBehind c.tag (endPieces [c] { s with table := s.table.filter fun d => decide (d.tag ≠ c.tag) })

/-- A command that completed GOOD ends as its completion is sent (R19, R107). -/
def endCommand (t : HostTag) (s : State) : State :=
  match s.cmd? t with
  | none => s
  | some c => leaveTable c (endWork t s)

/-- A completion becomes due (R127). -/
def completionDue (c : Completion) (s : State) : State :=
  { s with host := { s.host with due := s.host.due ++ [c] } }

/-- The failing LBA as the host sees it: the nearest of its own range (R86). -/
def Cmd.clampLba (c : Cmd) (lba : Nat) : Nat :=
  match c.kind with
  | .read | .write => max c.lba (min lba (c.lba + c.count - 1))
  | .deallocate | .flush | .windowRead | .controlWrite | .identify | .pass => lba

/-- A command fails at the drive: its work is over (R92). Its pieces and its entry in the overlap list stand until its
completion is sent (R19, R104, R107, notes/assumptions/35.md). -/
def failWork (t : HostTag) (s : State) : State :=
  match s.cmd? t with
  | some _ => endWork t (s.setCmdState t .failed)
  | none => s

/-- A command ends with DRIVE_ERROR: its work is over at the failure, its completion is due (R72, R92). -/
def failCommand (t : HostTag) (e : Ending) (s : State) : State :=
  match s.cmd? t with
  | some _ => failWork t (completionDue { tag := t, ending := e } s)
  | none => s

/-- The failed command of a tag. -/
def State.failed? (s : State) (t : HostTag) : Option Cmd :=
  s.table.find? fun c => decide (c.tag = t) && decide (c.state = .failed)

/-- A failed command ends as its completion is sent, and its pieces with it (R19, R107). -/
def endFailed (t : HostTag) (s : State) : State :=
  match s.failed? t with
  | some c => leaveTable c s
  | none => s

/-! ### The host port (R127) -/

/-- Between transfers: no transfer is in progress, or the one in progress has moved its last sector. -/
def HostPort.between (h : HostPort) : Bool :=
  match h.xfer with
  | none => true
  | some x => x.done

/-- A completion is sent, and its command ends: one in ENDING, or one that has failed (R72, R107, R19). A refusal took no
slot (R77). -/
def sendCompletion (c : Completion) (s : State) : State :=
  let s1 := s.emit (.completion c)
  match c.ending with
  | .good => match s1.cmd? c.tag with
    | some k => if k.state = .ending then endCommand c.tag s1 else s1
    | none => s1
  | .driveError _ | .deviceError => endFailed c.tag s1
  | .refused => s1

/-- The due completions are sent, oldest first. -/
def sendDue : Nat → State → State
  | 0, s => s
  | fuel + 1, s =>
    match s.host.due with
    | [] => s
    | c :: cs => sendDue fuel (sendCompletion c { s with host := { s.host with due := cs } })

/-- A frame whose transfer to the host is due (R127). -/
def Frame.sendDue (f : Frame) (s : State) : Bool :=
  decide (f.dir = .toHost) && (decide (f.cond = .ready) || (decide (f.cond = .passing) && decide (1 ≤ f.present))) &&
  match s.cmd? f.holder with
  | some c => decide (f.unit = c.firstUnit + c.delivered)
  | none => false

/-- A frame whose sectors are due to be taken from the host (R127). -/
def Frame.takeDue (f : Frame) : Bool :=
  f.fromHost && (decide (f.cond = .filling) || (decide (f.cond = .passing) && decide (f.present = 0)))

/-- The older of two frames. -/
def olderFrame (a : Option Frame) (f : Frame) : Option Frame :=
  match a with
  | none => some f
  | some g => if f.order < g.order then some f else some g

/-- The oldest due transfer (R127). -/
def State.oldestDue (s : State) : Option Frame :=
  (s.buffer.frames.filter fun f => f.takeDue || f.sendDue s).foldl olderFrame none

/-- The WINDOW_READ that the host link is serving, with its transfer and its frame (R82). -/
def State.serving (s : State) : Option (HostXfer × Cmd × Frame) :=
  match s.host.xfer with
  | some x => match s.cmd? x.tag, s.frame? x.frame with
    | some c, some f =>
      if s.host.up = true ∧ c.kind = .windowRead ∧ x.send = true ∧ x.done = false then some (x, c, f) else none
    | _, _ => none
  | none => none

/-- The next sectors of the WINDOW_READ unit on the host link are produced, n at most, as the window stands now (R82,
R199). -/
def produceSectors (n : Nat) (s : State) : State :=
  match s.serving with
  | some (x, c, f) =>
    let lo := c.hostLo f.unit + x.made
    let k := min n (c.hostHi f.unit + 1 - lo)
    { s.modFrame f.num (fun g => { g with data := placeSectors g.data lo (s.windowSectors (8 * f.unit + lo) k) }) with
      host := { s.host with xfer := some { x with made := x.made + k } }
      freeReads := s.freeReads + 1 }
  | none => s

/-- The host link goes on with a WINDOW_READ unit: of the sectors that are left, those whose turn has come by the end of
this step are produced. How many they are is free (R82, notes/assumptions/11.md). -/
def serveOn (s : State) : State := produceSectors (Config.sectorsGone s.freeReads) s

/-- A transfer starts; the turn of the first sector of a WINDOW_READ unit has come (R82), and a pull that waits for the
unit is served with its first sector (R125). -/
def startHostXfer (f : Frame) (s : State) : State :=
  let s1 := { s with host := { s.host with xfer := some { frame := f.num, tag := f.holder, send := !f.fromHost } } }
  match s.cmd? f.holder with
  | some c => if c.kind = .windowRead then produceSectors (1 + Config.sectorsGone s.freeReads) s1 else servePull f.holder s1
  | none => s1

/-- An idle host link starts the oldest due transfer, but not while the range sector of a DEALLOCATE is due: it goes
between transfers (R127). -/
def startNext (s : State) : State :=
  if s.host.up ∧ s.host.xfer = none ∧ s.host.rangeSector = none then
    match s.oldestDue with
    | some f => startHostXfer f s
    | none => s
  else s

/-- Between transfers the completions due are sent (R127). A completion sent can make another due, of the control command
that waited for a slot, so it looks again for as many times as there can be commands. -/
def sendAll (s : State) : State := if s.host.up ∧ s.host.between then sendDue (s.host.due.length + 30) s else s

/-- The host port does what it can: it goes on with a WINDOW_READ unit, between transfers it sends the completions due, and
an idle link starts the oldest due transfer. -/
def pump (s : State) : State := startNext (sendAll (serveOn s))

/-- A READ, WINDOW_READ, IDENTIFY or passed-through read whose drive work is over and whose units have all gone to the
host is complete (R81, R82, R90). -/
def checkDelivered (t : HostTag) (s : State) : State :=
  match s.cmd? t with
  | some c => if c.state = .ending ∧ c.units ≤ c.delivered then completeGood t s else s
  | none => s

end Sys2Proof.Machine
end

