-- ==== Sys2Proof/Machine/Admission.lean ====
section
/-!
DEFINITION. Admission: the tag test, refusal, the cut into pieces, the tests of each piece, the downstream range, the
merge list, the wait set and the admission step (R43 to R45, R54 to R61, R73 to R79, R87 to R91, R96 to R98, R105), and
the host port's way of holding commands off (R69, R88, R205).
-/

namespace Sys2Proof.Machine

/-! ### Tag and mode (R73) -/

/-- A completion on its way still holds its tag, unless it is a refusal's, which took no slot (R72, R73). -/
def Completion.holdsTag (c : Completion) : Bool := decide (c.ending ≠ .refused)

/-- The tag's slot is not FREE: a command holds it, its completion has not been sent, or its range sector is being taken
(R73, R88). -/
def State.tagBusy (s : State) (t : HostTag) : Bool :=
  (s.table.any fun c => decide (c.tag = t)) || decide (s.host.rangeSector = some t) ||
  s.host.due.any fun c => decide (c.tag = t) && c.holdsTag

/-- Some slot of the command table is not FREE. -/
def State.anyBusy (s : State) : Bool :=
  !s.table.isEmpty || s.host.rangeSector.isSome || s.host.due.any Completion.holdsTag

/-- The tests of R73: the reason of the refusal, if there is one. -/
def tagTest (s : State) : HostTag → Option Reason
  | .queued n =>
    if 27 < n.val then some .tag
    else if s.tagBusy (.queued n) then some .tag
    else if s.tagBusy .immediate then some .notNow
    else none
  | .immediate => if s.anyBusy then some .notNow else none

/-! ### Refusal (R77, R189) -/

/-- The number of the next refusal (R189). -/
def State.nextRefusal (s : State) : Nat :=
  match s.mon.refusal with
  | none => 1
  | some r => nextNumber Config.maxCount16 r.number

/-- A refusal: the completion, the last-refusal record, and then the monitor is told (R77). -/
def refuse (t : HostTag) (lba count : Nat) (r : Reason) (named : List SlotIx) (s : State) : State :=
  let s1 := completionDue { tag := t, ending := .refused } s
  let record : RefusalRecord := { tag := t, lba := lba, count := count, reason := r, number := s1.nextRefusal }
  let s2 := { s1 with mon := { s1.mon with refusal := some record } }
  match r.violation with
  | some k => violate k named s2
  | none => s2

/-! ### Pieces (R43, R44) -/

/-- The protected piece of a run of sectors that lies in an extent (R44). -/
def pieceIn (e : Extent) (lba count : Nat) : Piece :=
  { lba := lba, count := count, owned := some { slot := e.slot, title := 0, extStart := e.start, first := e.first } }

/-- The end of the run of unclaimed sectors that starts at x: the next extent or the command's end (R43). -/
def unclaimedStop (map : List Extent) (x stop : Nat) : Nat :=
  match nextStart map (unitOf x) with
  | some u => min stop (8 * u)
  | none => stop

/-- The pieces of the sectors x … stop − 1, in LBA order (R43). With `fuel` = 5 a cut into more than 4 pieces shows 5. -/
def cutPieces : Nat → List Extent → Nat → Nat → List Piece
  | 0, _, _, _ => []
  | fuel + 1, map, x, stop =>
    if stop ≤ x then []
    else match lookupUnit map (unitOf x) with
      | some e =>
        let y := min stop (8 * e.stop)
        pieceIn e x (y - x) :: cutPieces fuel map y stop
      | none =>
        let y := unclaimedStop map x stop
        { lba := x, count := y - x } :: cutPieces fuel map y stop

/-- A refusal that a test gives: its reason and the slots its violation names (R76, R178). -/
structure Refused where
  reason : Reason
  named : List SlotIx := []
  deriving DecidableEq, Repr

/-- A piece that passed its tests, with the trial copy of its ring if it writes one (R54, R76). -/
structure Tested where
  piece : Piece
  trial : Option Trial := none
  deriving DecidableEq, Repr

/-- The setting of the unclaimed-space policy for a data access (R42). -/
def State.dataPolicy (s : State) (write : Bool) : Setting := if write then s.win.writePolicy else s.win.readPolicy

/-- The segments of a ring that a piece touches (R50, R54, R60). -/
def pieceSegs (r : Ring) (o : Owned) (p : Piece) : List Nat :=
  segsTouched r.g (p.firstUnit - o.extStart) (p.lastUnit - o.extStart)

/-- Test 6 of a ring write, and the lap list of a ring read (R54, R55, R60). -/
def testRing (write : Bool) (s : State) (p : Piece) (o : Owned) (t : TitleSlot) (r : Ring) : Except Refused Tested :=
  if write then
    match ringTest s.clock t.retired.isSome (pieceSegs r o p) { ring := r } with
    | .error .ringOrder => .error { reason := .ringOrder, named := [o.slot] }
    | .error e => .error { reason := e }
    | .ok tr => .ok { piece := { p with owned := some { o with g := r.g, laps := some tr.laps } }, trial := some tr }
  else
    .ok { piece := { p with owned := some { o with g := r.g, laps := some (readLaps r s.clock (pieceSegs r o p)) } } }

/-- The tests of a protected piece, in order (R76). A halted slot in DRAINING is refused with HALTED, which stands before
CLOSING in R76, where R181 speaks of CLOSING (notes/assumptions/36.md). -/
def testProtected (write : Bool) (s : State) (p : Piece) (o : Owned) : Except Refused Tested :=
  let t := s.slot o.slot
  let o := { o with title := t.number.getD 0 }
  if s.mon.state = .lockdown then .error { reason := .lockdown }
  else if t.halted then .error { reason := .halted }
  else if t.phase ≠ .active then .error { reason := .closing }
  else if write = true ∧ t.state ≠ some .recording then .error { reason := .sealed, named := [o.slot] }
  else if write = false ∧ t.kind = some .recording ∧ t.expiry.isSome ∧ s.clock = none then
    .error { reason := .clockUnset }
  else match t.ring with
    | some r => testRing write s p o t r
    | none => .ok { piece := { p with owned := some o } }

/-- The tests of a piece (R76). -/
def testPiece (write : Bool) (s : State) (p : Piece) : Except Refused Tested :=
  match p.owned with
  | some o => testProtected write s p o
  | none => if s.dataPolicy write = .pass then .ok { piece := p } else .error { reason := .policy }

/-- The tests of every piece in LBA order; the first that fails refuses the command (R76). -/
def testPieces (write : Bool) (s : State) : List Piece → Except Refused (List Tested)
  | [] => .ok []
  | p :: ps =>
    match testPiece write s p with
    | .error e => .error e
    | .ok t => match testPieces write s ps with
      | .error e => .error e
      | .ok ts => .ok (t :: ts)

/-! ### The downstream range (R79) -/

/-- The unit ranges of a ring read piece that are read from the drive: those of its readable segments (R61, R79). -/
def readableRanges (o : Owned) (p : Piece) (laps : List LapEntry) : List Range :=
  (laps.filter (·.readable)).map fun e =>
    let a := max p.firstUnit (o.extStart + e.seg * o.g)
    let b := min (p.lastUnit + 1) (o.extStart + (e.seg + 1) * o.g)
    { lba := 8 * a, len := 8 * (b - a) }

/-- The drive ranges of a piece of a READ: whole units of a protected piece, an unclaimed piece as it is (R79). -/
def pieceRanges (p : Piece) : List Range :=
  match p.owned with
  | none => [{ lba := p.lba, len := p.count }]
  | some o => match o.laps with
    | none => [{ lba := 8 * p.firstUnit, len := 8 * (p.lastUnit + 1 - p.firstUnit) }]
    | some laps => readableRanges o p laps

/-- Ranges that follow on each other become one run. -/
def joinRanges : List Range → List Range
  | [] => []
  | a :: rest =>
    match joinRanges rest with
    | [] => [a]
    | b :: bs => if a.lba + a.len = b.lba then { lba := a.lba, len := a.len + b.len } :: bs else a :: b :: bs

/-- A run longer than 65,536 sectors is cut in two (R79). -/
def cutRun (r : Range) : List Range :=
  if Config.maxSectors < r.len then
    [{ lba := r.lba, len := Config.maxSectors }, { lba := r.lba + Config.maxSectors, len := r.len - Config.maxSectors }]
  else [r]

/-- The runs of a READ or WRITE (R79). A WRITE has no readable marks, so each of its pieces gives its whole range. -/
def runsOf (write : Bool) (pieces : List Piece) : List Range :=
  let whole (p : Piece) : List Range := match p.owned with
    | none => [{ lba := p.lba, len := p.count }]
    | some _ => [{ lba := 8 * p.firstUnit, len := 8 * (p.lastUnit + 1 - p.firstUnit) }]
  (joinRanges (pieces.flatMap (if write then whole else pieceRanges))).flatMap cutRun

/-! ### The merge list (R96 to R98) -/

/-- The head unit is a merge unit (R96). -/
def Cmd.headMerges (c : Cmd) : Bool :=
  (c.ownedOf c.firstUnit).isSome &&
  (decide (c.lba % 8 ≠ 0) || (decide (c.firstUnit = c.lastUnit) && decide ((c.lba + c.count) % 8 ≠ 0)))

/-- The tail unit is a merge unit of its own (R96). -/
def Cmd.tailMerges (c : Cmd) : Bool :=
  decide (c.firstUnit ≠ c.lastUnit) && (c.ownedOf c.lastUnit).isSome && decide ((c.lba + c.count) % 8 ≠ 0)

/-- The base of a merge unit (R97). -/
def Owned.baseOf (o : Owned) (u : Nat) : MergeBase :=
  match o.laps with
  | none => .read
  | some laps => match laps.find? (fun e => decide (e.seg = o.segOf u)) with
    | some e => if e.started then .zero else .read
    | none => .read

/-- The merge entry of a unit as admission makes it (R98). -/
def Cmd.mergeEntry (c : Cmd) (u : Nat) : List MergeEntry :=
  match c.ownedOf u with
  | none => []
  | some o =>
    let b := o.baseOf u
    [{ unit := u, lo := c.hostLo u, hi := c.hostHi u, base := b, tweak := o.tweak u, gen := o.gen,
       state := if b = .read then .pending else .zero }]

/-- The merge list, head unit first (R98). -/
def Cmd.mergeList (c : Cmd) : List MergeEntry :=
  (if c.headMerges then c.mergeEntry c.firstUnit else []) ++ (if c.tailMerges then c.mergeEntry c.lastUnit else [])

/-! ### The wait set (R105) -/

/-- Two ranges of units share a unit. -/
def rangesMeet (a b : Nat × Nat) : Bool := decide (a.1 ≤ b.2) && decide (b.1 ≤ a.2)

/-- An entry of the overlap list conflicts with a new command (R105). -/
def Cmd.conflicts (old new : Cmd) : Bool :=
  (decide (old.kind = .write) || decide (new.kind = .write)) &&
  old.unitRanges.any fun a => new.unitRanges.any fun b => rangesMeet a b

/-- The wait set of a new command (R105). The overlap list has an entry for every command of the table that has a protected
piece, in admission order, the failed ones whose completion has not been sent among them (R104, R107). -/
def State.waitSet (s : State) (c : Cmd) : List HostTag := (s.table.filter fun o => o.conflicts c).map (·.tag)

/-! ### The admission step (R78) -/

/-- A ring's trial copy takes effect, with the key step of a rekey (R56, R57). -/
def applyTrial (x : Tested) (s : State) : State :=
  match x.piece.owned, x.trial with
  | some o, some tr =>
    (if tr.rekeyed then rekeySlot o.slot s else s).modSlot o.slot fun t => { t with ring := some tr.ring }
  | _, _ => s

/-- A piece references its slot's current key generation (R16). -/
def Piece.takeGen (p : Piece) (s : State) : Piece :=
  { p with owned := p.owned.map fun o => { o with gen := (s.slot o.slot).gen.getD 0 } }

/-- A piece counts in its slot's in-flight count (R18). -/
def raiseFlight (p : Piece) (s : State) : State :=
  match p.owned with
  | some o => s.modSlot o.slot fun t => { t with inFlight := t.inFlight + 1 }
  | none => s

/-- A ring read piece touches a segment that is not readable (R61). -/
def Piece.zeroes (p : Piece) : Option SlotIx :=
  match p.owned with
  | some o => match o.laps with
    | some laps => if laps.any (fun e => !e.readable) then some o.slot else none
    | none => none
  | none => none

/-- The EXPIRED_READ violation of an admitted read, if any of its units is zero-filled (R61, R178). -/
def countExpired (c : Cmd) (s : State) : State :=
  match c.kind, c.pieces.filterMap Piece.zeroes with
  | .read, i :: is => violate .expiredRead (i :: is) s
  | _, _ => s

/-- A command joins the table; it waits or begins (R72, R78). -/
def enterTable (c : Cmd) (s : State) : State :=
  if c.waitFor = [] ∧ c.waitStores = [] then beginCmd c.tag { s with table := s.table ++ [c] }
  else { s with table := s.table ++ [{ c with state := .waitOverlap }] }

/-- The admission of a READ or WRITE below the window whose pieces have passed (R78). -/
def admitData (write : Bool) (t : HostTag) (lba count : Nat) (xs : List Tested) (s : State) : State :=
  let s1 := xs.foldl (fun s x => applyTrial x s) s
  let pieces := xs.map fun x => x.piece.takeGen s1
  let c0 : Cmd := { tag := t, kind := if write then .write else .read, lba := lba, count := count, pieces := pieces,
                    runs := runsOf write pieces }
  let c1 := { c0 with merges := if write then c0.mergeList else [] }
  let c := { c1 with waitFor := s.waitSet c1 }
  enterTable c (countExpired c (pieces.foldl (fun s p => raiseFlight p s) s1))

/-- A READ or WRITE below the control window (R76). -/
def admitBelow (write : Bool) (t : HostTag) (lba count : Nat) (s : State) : State :=
  let pieces := cutPieces (Config.maxPieces + 1) s.map lba (lba + count)
  if Config.maxPieces < pieces.length then refuse t lba count .span [] s
  else match testPieces write s pieces with
    | .error e => refuse t lba count e.reason e.named s
    | .ok xs => admitData write t lba count xs s

/-- A command admitted without pieces. -/
def admitPlain (c : Cmd) (s : State) : State := enterTable c s

/-- A READ or WRITE against the presented capacity and the window (R75). -/
def admitRange (write : Bool) (t : HostTag) (lba count : Nat) (s : State) : State :=
  if s.presented < lba + count then refuse t lba count .hidden [] s
  else if s.windowBase < lba + count then
    if write then
      if lba = s.windowBase ∧ count = 1 then
        { s with table := s.table ++ [{ tag := t, kind := .controlWrite, lba := lba, count := 1, state := .waitControl }] }
      else refuse t lba count .controlMisuse [] s
    else if s.windowBase ≤ lba then admitPlain { tag := t, kind := .windowRead, lba := lba, count := count } s
    else refuse t lba count .controlMisuse [] s
  else admitBelow write t lba count s

/-! ### The other kinds (R74, R87 to R91) -/

/-- The tag of a queued command. -/
def tagQueued : HostTag → Bool
  | .queued _ => true
  | .immediate => false

/-- The writes and deallocates that a FLUSH waits for (R87). -/
def State.flushWaits (s : State) : List HostTag :=
  (s.table.filter fun c => decide (c.kind = .write) || decide (c.kind = .deallocate)).map (·.tag)

/-- An operation is a STORE. -/
def SvcOp.isStore (o : SvcOp) : Bool :=
  match o.kind with
  | .store _ => true
  | .load _ | .erase _ | .headerRead | .headerWrite _ => false

/-- The stores queued or in flight (R87). -/
def State.storesPending (s : State) : List Nat :=
  ((s.cat.flights.map (·.op) ++ s.cat.queue).filter SvcOp.isStore).map (·.num)

/-- The sectors of a passed-through command's data. -/
def passSectors : PassData → Nat
  | .none => 0
  | .toHost n => n
  | .toDrive n => n

/-- A refusal that names no slot, for a command with the given range. -/
def refuseAt (t : HostTag) (r : Reason) (range : Option Range) (s : State) : State :=
  match range with
  | some x => refuse t x.lba x.len r [] s
  | none => refuse t 0 0 r [] s

/-- A command that has passed the tests of R73 (R74). -/
def takeKind (a : Arrival) (s : State) : State :=
  match a with
  | .read t lba count => admitRange false t lba count s
  | .write t lba count => admitRange true t lba count s
  | .deallocate t => { s with host := { s.host with rangeSector := some t } }
  | .flush t => admitPlain { tag := t, kind := .flush, waitFor := s.flushWaits, waitStores := s.storesPending } s
  | .identify t =>
    if tagQueued t then refuseAt t .capacity none s else admitPlain { tag := t, kind := .identify, lba := 0, count := 1 } s
  | .pass t words data =>
    if tagQueued t then refuseAt t .capacity none s
    else admitPlain { tag := t, kind := .pass, words := words, data := data, lba := 0, count := passSectors data } s
  | .other t range => refuseAt t .capacity range s

/-- The tag of an arriving command. -/
def Arrival.tag : Arrival → HostTag
  | .read t _ _ => t
  | .write t _ _ => t
  | .deallocate t => t
  | .flush t => t
  | .identify t => t
  | .pass t _ _ => t
  | .other t _ => t

/-- The range of an arriving command, if it names one. A DEALLOCATE has none before its range sector has come: refused with
TAG or NOT_NOW it is recorded with LBA 0 and count 0, as a command without a range (R77, notes/assumptions/34.md). -/
def Arrival.range : Arrival → Option Range
  | .read _ lba count => some { lba := lba, len := count }
  | .write _ lba count => some { lba := lba, len := count }
  | .other _ r => r
  | .deallocate _ | .flush _ | .identify _ | .pass _ _ _ => none

/-- The command table takes a command from the host port (R73, R74). -/
def takeCommand (a : Arrival) (s : State) : State :=
  match tagTest s a.tag with
  | some r => refuseAt a.tag r a.range s
  | none => takeKind a s

/-- The host port holds arriving commands off (R69, R88). -/
def State.holdsOff (s : State) : Bool := decide (s.phase = .starting) || s.host.rangeSector.isSome

/-- A command arrives at the host port; without a link none does (R69, R88, R206). -/
def arrive (a : Arrival) (s : State) : State :=
  if s.host.up then
    if s.holdsOff then { s with host := { s.host with held := s.host.held ++ [a] } } else takeCommand a s
  else s

/-- The commands held off are taken in the order they arrived, until one makes the port hold off again. -/
def takeHeldList : List Arrival → State → State
  | [], s => s
  | a :: rest, s =>
    if s.holdsOff then { s with host := { s.host with held := a :: rest } } else takeHeldList rest (takeCommand a s)

/-- The host port takes the commands it held off (R88, R205). -/
def takeHeld (s : State) : State := takeHeldList s.host.held { s with host := { s.host with held := [] } }

/-! ### Deallocate (R88, R89) -/

def rangeStop (r : Range) : Nat := r.lba + r.len

/-- The extent of the first protected unit that a range touches (R45). -/
def touched (map : List Extent) (r : Range) : Option Extent :=
  meets map (unitOf r.lba) (unitOf (rangeStop r - 1) + 1 - unitOf r.lba)

/-- The first range that touches a protected unit, with the extent met (R89, R178). -/
def firstTouched (map : List Extent) : List Range → Option (Range × Extent)
  | [] => none
  | r :: rs => match touched map r with
    | some e => some (r, e)
    | none => firstTouched map rs

/-- The tests of a DEALLOCATE's ranges, each over every range before the next (R89): the range that failed, and why. -/
def rangeTests (s : State) (rs : List Range) : Option (Range × Refused) :=
  match rs.find? (fun r => decide (s.presented < rangeStop r)) with
  | some r => some (r, { reason := .hidden })
  | none => match rs.find? (fun r => decide (s.windowBase < rangeStop r)) with
    | some r => some (r, { reason := .controlMisuse })
    | none => match firstTouched s.map rs with
      | some (r, e) => some (r, { reason := .trimProtected, named := [e.slot] })
      | none => if s.win.deallocatePolicy = .pass then none else rs.head?.map fun r => (r, { reason := .policy })

/-- The range sector of the deallocate in hand arrives (R88, R89): without an entry of a length the command completes at
once, else it is tested. The commands held off behind it are then taken. -/
def rangeSectorArrives (t : HostTag) (ranges : List Range) (s : State) : State :=
  let s1 := { s with host := { s.host with rangeSector := none } }
  let rs := ranges.filter fun r => decide (r.len ≠ 0)
  takeHeld (
    if rs.isEmpty then sendAll (completionDue { tag := t, ending := .good } s1)
    else match rangeTests s1 rs with
      | some (r, e) => refuse t r.lba r.len e.reason e.named s1
      | none => admitPlain { tag := t, kind := .deallocate, ranges := rs, entries := ranges } s1)

/-! ### How a step acts -/

/-- A step starts with nothing on the links (R69, R70). -/
def State.quiet (s : State) : State := { s with out := [] }

/-- What a command of the table makes of the state. While RESET_N is asserted the part does nothing (R95, R204). -/
def act (s : State) (f : State → State) : Host.Outcome State Fault Refusal :=
  .next (if s.inReset then s.quiet else f s.quiet)

end Sys2Proof.Machine
end

