-- ==== Sys2Proof/Machine/CatalogueEnd.lean ====
section
/-!
DEFINITION. The ends of service operations and what their owners do with them (R7, R8, R12, R22, R36, R144, R146, R147,
R154 to R161, R163, R205), and the resets of the drive link (R92, R93, R119, R156 to R158).
-/

namespace Sys2Proof.Machine

/-! ### Reading a unit of the catalogue (R143 to R146) -/

/-- The clear part of a unit read at a title's index. A unit that holds an area header carries its marker and epoch, and
no index of a title; that it shows the generation 0, so that the next record at the index takes 1 (R147), is the model's
choice too (notes/assumptions/14.md). -/
def titleClear : DiskUnit → TitleClear
  | .title c _ => c
  | .header c _ => { marker := c.marker, epoch := c.epoch, index := 0, gen := 0 }

/-- The clear part of a unit read at index 0 (notes/assumptions/14.md). -/
def headerClear : DiskUnit → HeaderClear
  | .header c _ => c
  | .title c _ => { marker := c.marker, epoch := c.epoch, capacity := 0 }

/-- The outcome of a LOAD (R146). -/
inductive LoadOutcome where
  | drive
  | empty
  | damaged
  | title (fields : TitleFields)
  deriving DecidableEq, Repr

/-- Lines 2 and 3 of R146: the clear part decides alone. -/
def State.decidesClear (s : State) (unit : DiskUnit) : Bool :=
  let c := titleClear unit
  !c.marker || decide (c.epoch ≠ s.epoch)

/-- A LOAD submits no job where the clear part decides, a HEADER_READ none where the marker is absent (R144, R146). -/
def State.needsJob (s : State) (k : SvcKind) (unit : DiskUnit) : Bool :=
  match k with
  | .headerRead => (headerClear unit).marker
  | .load _ | .store _ | .erase _ | .headerWrite _ => !s.decidesClear unit

/-- The check value of a title record opens under the tweak of its clear generation and matches (R145, R146). -/
def sealOpens (i : Nat) (c : TitleClear) (b : TitleSeal) : Bool :=
  b.ours && decide (b.tweak = catalogueTweak c.gen i) && decide (b.check = { clear := c, fields := b.fields })

/-- The classification of a unit read at index i (R146, lines 2 to 6). -/
def State.classify (s : State) (i : Nat) (unit : DiskUnit) : LoadOutcome :=
  if s.decidesClear unit then .empty
  else match unit with
    | .header _ _ => .damaged
    | .title c b =>
      if c.index ≠ i ∨ c.gen = 0 ∨ sealOpens i c b = false then .damaged
      else if b.fields.state = .empty then .empty
      else .title b.fields

/-- The generation that a LOAD found (R146, R147). -/
def foundGen (unit : DiskUnit) : Option Nat :=
  let c := titleClear unit
  if c.marker then some c.gen else none

/-- The condition that a HEADER_READ gives (R144). -/
def State.headerOf (s : State) (unit : DiskUnit) : HeaderCopy :=
  if (headerClear unit).marker = false then .absent
  else match unit with
    | .title _ _ => .foreign
    | .header c b =>
      if b.ours = true ∧ b.tweak = catalogueTweak 0 0 ∧ b.check = c ∧ c.capacity = s.driveCapacity then .valid c.epoch
      else .foreign

/-! ### The part phase (R205) -/

/-- The phase of a header condition (R205). -/
def phaseOf : HeaderCopy → Phase
  | .valid _ => .ready
  | .absent | .unreadable | .unknown => .unformatted
  | .foreign => .foreign

/-- The violation and the flag of a damaged record or an unreadable header (R144, R146). -/
def catalogueDamaged (s : State) : State := (violate .catalogueDamaged [] s).setFlag .catalogueDamaged

/-- The HEADER_READ ends with a condition: the phase is set, and the commands held off are taken (R144, R205). -/
def headerEnd (h : HeaderCopy) (s : State) : State :=
  let s1 := dropClaims .header { s with cat := { s.cat with header := h } }
  let s2 := if h = .unreadable then catalogueDamaged s1 else s1
  takeHeld { s2 with phase := phaseOf h }

/-! ### A slot's LOAD (R7, R8, R36, R154, R155) -/

/-- The command that waits at a stage on a slot is answered with details. -/
def answerWith (st : Stage) (i : SlotIx) (r : Result) (d : Details) (s : State) : State :=
  if s.waitsAt st i then finishControl r d s else s

/-- The parameters of a CREATE_TITLE record that the slot takes at its load's end (R7). -/
def recClass (r : Sector) : CopyClass := (classOfNat (Sector.field r 18 1)).getD .free
def recExpiry (r : Sector) : Option Nat := expiryOf (decide (Sector.field r 19 1 = 1)) (Sector.field r 20 4)
def recOverwrite (r : Sector) : Bool := decide (Sector.field r 24 1 = 1)

/-- The slot leaves LOADING for IDLE, and its command is answered (R7, R8). -/
def failLoading (i : SlotIx) (r : Result) (s : State) : State := answer .load i r (enterIdle i s)

/-- A created title: its fresh key, its fields, and its store (R7, R154). -/
def makeTitle (i : SlotIx) (r : Sector) (s : State) : State :=
  setStage .store (changeAndStore i (recRequest r)
    (fun t => { t with key := some s.freshKey, gen := some 1, state := some .recording, cls := some (recClass r),
                       expiry := recExpiry r, nextUnit := 0, extentCount := 0 }) s.drawn)

/-- The outcome of a LOAD at CREATE_TITLE (R7). -/
def createLoaded (i : SlotIx) (r : Sector) (o : LoadOutcome) (s : State) : State :=
  match o with
  | .empty => makeTitle i r s
  | .damaged => if recOverwrite r then makeTitle i r s else failLoading i .damaged s
  | .title _ => failLoading i .inUse s
  | .drive => failLoading i .drive s

/-- Why an extent of a record does not fit: the slot met, or 8 for the control window (R36). Of several extents met it
names the one of lowest start unit (notes/assumptions/23.md). -/
def State.extentMeets (s : State) (e : RecExtent) : Option Nat :=
  match meets s.map e.start e.len with
  | some x => some x.slot.val
  | none => if s.windowUnit < e.start + e.len then some 8 else none

/-- The first extent of a record that does not fit, by its place (R36). -/
def State.firstUnfit (s : State) : Nat → List RecExtent → Option (Nat × Nat)
  | _, [] => none
  | n, e :: es => match s.extentMeets e with
    | some k => some (n, k)
    | none => s.firstUnfit (n + 1) es

/-- Title state of a record (R145). -/
def titleStateOf : RecState → Option TitleState
  | .recording => some .recording
  | .sealed => some .sealed
  | .moving => some .moving
  | .empty => none

/-- The extents of a record enter the map (R36). -/
def insertExtents (i : SlotIx) (es : List RecExtent) (map : List Extent) : List Extent :=
  es.foldl (fun m e => insertExtent { start := e.start, len := e.len, slot := i, first := e.first } m) map

/-- An opened title takes its fields from the record (R8, R155). -/
def takeFields (f : TitleFields) (t : TitleSlot) : TitleSlot :=
  { t with state := titleStateOf f.state, cls := some f.cls, expiry := f.expiry, nextUnit := f.nextUnit,
           extentCount := f.extents.length, key := f.key, gen := some 1, lastChanger := f.lastChanger,
           dirty := false, storeInFlight := false }

/-- The test of R36 and the step of an opened title into ACTIVE (R8, R155). -/
def openTitle (i : SlotIx) (f : TitleFields) (s : State) : State :=
  let n := f.extents.length
  if Config.mapLimit < s.map.length + n then answerWith .load i .mapFull (.openFailed n 255) (enterIdle i s)
  else match s.firstUnfit 0 f.extents with
    | some (p, k) => answerWith .load i .overlap (.openFailed p k) (enterIdle i s)
    | none =>
      answer .load i .ok (enterActive i (({ s with map := insertExtents i f.extents s.map }).modSlot i (takeFields f)))

/-- The outcome of a LOAD at OPEN_TITLE (R8, R155). -/
def openLoaded (i : SlotIx) (o : LoadOutcome) (s : State) : State :=
  match o with
  | .empty => failLoading i .empty s
  | .damaged => failLoading i .damaged s
  | .drive => failLoading i .drive s
  | .title f =>
    if expiryDue f.expiry s.clock then
      setStage .erase (requestOp (.erase ((s.slot i).number.getD 0)) (.slot i) none s)
    else openTitle i f s

/-- A slot's LOAD ends while the slot is in LOADING: the command that waits for it says what follows (R7, R8). -/
def slotLoaded (i : SlotIx) (o : LoadOutcome) (s : State) : State :=
  match (s.slot i).phase, s.win.executing with
  | .loading, some e => if recCode e.record = 1 then createLoaded i e.record o s else openLoaded i o s
  | .loading, none => openLoaded i o s
  | .idle, _ | .active, _ | .draining, _ | .storing, _ | .erasing, _ => s

/-- The sweep's LOAD of index j ends (R163). -/
def sweepLoaded (j : Nat) (o : LoadOutcome) (s : State) : State :=
  match o with
  | .title f => if expiryDue f.expiry s.clock then requestOp (.erase j) .sweep none s else sweepOn j s
  | .empty | .damaged | .drive => sweepOn j s

/-- A LOAD ends with an outcome: a damaged record is counted whoever asked for it (R146), and the owner acts. -/
def loadEnd (f : Flight) (i : Nat) (o : LoadOutcome) (s : State) : State :=
  let s1 := endFlight f.tag s
  let s2 := if o = .damaged then catalogueDamaged s1 else s1
  match f.op.owner with
  | .slot k => slotLoaded k o s2
  | .sweep => sweepLoaded i o s2
  | .header => s2

/-! ### The end of a store or an erase (R7, R12, R22, R163) -/

/-- The result that a write's end gives its command. -/
def writeResult (good : Bool) : Result := if good then .ok else .drive

/-- STORE_FAILED at a failure (R201). -/
def flagFailed (good : Bool) (s : State) : State := if good then s else s.setFlag .storeFailed

/-- A slot in LOADING, STORING or ERASING enters IDLE, and the command at this stage is answered. -/
def idleWith (st : Stage) (i : SlotIx) (r : Result) (s : State) : State := answer st i r (enterIdle i s)

/-- A store of a slot in ACTIVE or DRAINING ends (R22). -/
def storeSettled (i : SlotIx) (good : Bool) (s : State) : State :=
  drainTest i (answer .store i (writeResult good)
    (s.modSlot i fun t => { t with storeInFlight := false, dirty := t.dirty && !good }))

/-- A store of a slot ends (R7, R12, R22). -/
def slotStored (i : SlotIx) (good : Bool) (s : State) : State :=
  match (s.slot i).phase with
  | .loading =>
    if good then
      answer .store i .ok (enterActive i (s.modSlot i fun t => { t with storeInFlight := false, dirty := false }))
    else idleWith .store i .drive s
  | .storing => idleWith .idle i (writeResult good) s
  | .active | .draining | .idle | .erasing => storeSettled i good s

/-- A STORE ends: its slot acts, and the flushes that waited for it are told (R22, R87). -/
def storeEnd (f : Flight) (good : Bool) (s : State) : State :=
  let s1 := flagFailed good (endFlight f.tag s)
  storeEnded f.op.num (match f.op.owner with
    | .slot k => slotStored k good s1
    | .sweep | .header => s1)

/-- An erase of a slot ends (R8, R12). -/
def slotErased (i : SlotIx) (good : Bool) (s : State) : State :=
  match (s.slot i).phase with
  | .loading => idleWith .erase i (if good then .expired else .drive) s
  | .erasing | .storing | .draining | .active | .idle => idleWith .idle i (writeResult good) s

/-- The sweep's erase of index j ends (R163). -/
def sweepErased (j : Nat) (good : Bool) (s : State) : State :=
  sweepOn j (if good then { s with cat := { s.cat with erased := s.cat.erased + 1 } } else s)

/-- An ERASE ends. -/
def eraseEnd (f : Flight) (i : Nat) (good : Bool) (s : State) : State :=
  let s1 := flagFailed good (endFlight f.tag s)
  match f.op.owner with
  | .slot k => slotErased k good s1
  | .sweep => sweepErased i good s1
  | .header => s1

/-- The FORMAT whose header write ended is answered (R161). -/
def finishFormat (r : Result) (d : Details) (s : State) : State :=
  match s.win.executing with
  | some e => if e.stage = .header then finishControl r d s else s
  | none => s

/-- A HEADER_WRITE ends (R161, R205). -/
def headerWriteEnd (f : Flight) (e : Nat) (good : Bool) (s : State) : State :=
  let s1 := dropClaims .header (endFlight f.tag s)
  if good then finishFormat .ok (.epoch e) { s1 with cat := { s1.cat with header := .valid e }, phase := .ready }
  else finishFormat .drive .none s1

/-- An operation fails (R156, R158). -/
def opFailed (f : Flight) (s : State) : State :=
  match f.op.kind with
  | .load i => loadEnd f i .drive s
  | .store _ => storeEnd f false s
  | .erase i => eraseEnd f i false s
  | .headerRead => headerEnd .unreadable (endFlight f.tag s)
  | .headerWrite e => headerWriteEnd f e false s

/-- The write of an operation completes good at the drive (R151). A read has no such end. -/
def opWritten (f : Flight) (s : State) : State :=
  match f.op.kind with
  | .store _ => storeEnd f true s
  | .erase i => eraseEnd f i true s
  | .headerWrite e => headerWriteEnd f e true s
  | .load _ | .headerRead => s

/-- A unit read for an operation is classified, and the operation ends (R144, R146, R150). A write has no such end. -/
def opRead (f : Flight) (unit : DiskUnit) (s : State) : State :=
  match f.op.kind with
  | .load i => loadEnd f i (s.classify i unit) (setKnownGen i (foundGen unit) s)
  | .headerRead => headerEnd (s.headerOf unit) (endFlight f.tag s)
  | .store _ | .erase _ | .headerWrite _ => s

/-- A service job ends: a record read is classified, a record formed goes to the drive (R138, R150, R151). -/
def serviceJobEnd (t : SvcTag) (s : State) : State :=
  match s.flight? t with
  | none => s
  | some f => match f.content with
    | .formed unit =>
      joinQueue (serviceCmd t .forcedWrite f.op.kind.index s) (s.modFlight t fun f => { f with content := .whole unit })
    | .whole unit => opRead f unit s
    | .erased => s

/-! ### Drive link resets (R92, R93, R119, R156, R157) -/

/-- One flight was first issued no later than another; a flight never issued comes last (R156). -/
def issuedBefore (a b : Flight) : Bool :=
  match a.issued, b.issued with
  | some x, some y => decide (x ≤ y)
  | none, some _ => false
  | some _, none => true
  | none, none => true

/-- Flights in the order of first issue (R156). -/
def insertIssued (f : Flight) : List Flight → List Flight
  | [] => [f]
  | x :: xs => if issuedBefore f x then f :: x :: xs else x :: insertIssued f xs

def byIssue (fs : List Flight) : List Flight := fs.foldr insertIssued []

/-- The command of a service tag is outstanding at the drive. -/
def State.svcOutstanding (s : State) (t : SvcTag) : Bool := s.drive.outstanding.any fun d => decide (d.who = .service t)

/-- The operations whose commands are outstanding at the drive, in the order of first issue (R156, R157). -/
def State.abandonedOps (s : State) : List Nat :=
  (byIssue (s.cat.flights.filter fun f => s.svcOutstanding f.tag)).map (·.op.num)

/-- The host commands that have a command outstanding at the drive, in admission order (R93). -/
def State.abandonedTags (s : State) : List HostTag :=
  (s.table.filter fun c => (s.driveCmdOf c.tag).isSome).map (·.tag)

/-- The data on the drive link stops: the hold and the transfer end, and a waiting PUSH is removed (R119). -/
def stopLink (s : State) : State :=
  { s with
    drive := { s.drive with hold := none, xfer := none }
    buffer := { s.buffer with requests := s.buffer.requests.filter fun q => decide (q.kind ≠ .push) } }

/-- The drive command of an operation whose command is issued again: a read, or a write with the ciphertext its frame
holds (R156, R157). -/
def State.reissueCmd (s : State) (num : Nat) : Option DriveCmd :=
  match s.flightOfOp num with
  | none => none
  | some f => match f.op.kind with
    | .load i => some (serviceCmd f.tag .serviceRead i s)
    | .headerRead => some (serviceCmd f.tag .serviceRead 0 s)
    | .store i => some (serviceCmd f.tag .forcedWrite i s)
    | .erase i => some (serviceCmd f.tag .forcedWrite i s)
    | .headerWrite _ => some (serviceCmd f.tag .forcedWrite 0 s)

/-- Service commands rejoin the drive issue queue ahead of every waiting entry (R156, R157). -/
def reissueOps (nums : List Nat) (s : State) : State :=
  { s with drive := { s.drive with queue := nums.filterMap s.reissueCmd ++ s.drive.queue } }

/-- The completion of a command whose failure waits for the error record is due, with the indication that f gives (R86,
R92). -/
def failingKnown (f : Completion → Completion) (s : State) : State :=
  match s.drive.failing with
  | some c => completionDue (f c) { s with drive := { s.drive with failing := none } }
  | none => s

/-- The drive link is reset: the outstanding pass-through commands end with the device-error indication, and so does one
whose error record has not been read (R92), its completion before theirs (notes/assumptions/40.md); they end one by one,
in admission order, each with its own jobs, requests and frames (notes/assumptions/18.md and 41.md). So the arbitration of
the first one's frames may grant a request of a command that ends next, and raise bypass counts. The outstanding service
commands wait to be issued again (R93, R157). -/
def resetDriveLink (s : State) : State :=
  let ended := s.abandonedTags
  let s1 := stopLink { s with drive := { s.drive with
    link := .resetting, outstanding := [], errorRead := false, reissue := s.drive.reissue ++ s.abandonedOps } }
  ended.foldl (fun s t => failCommand t .deviceError s)
    (failingKnown (fun c => { c with ending := .deviceError }) (s1.emit .driveLinkReset))

/-- The drive can be at work on its commands: the link is up, and no queued error waits for the error record (R92). -/
def State.driveWorks (s : State) : Bool := decide (s.drive.link = .up) && !s.drive.errorRead

/-- The drive command of who leaves the outstanding set. -/
def driveCompletes (w : DriveWho) (s : State) : State :=
  { s with drive := { s.drive with outstanding := s.drive.outstanding.filter fun d => decide (d.who ≠ w) } }

/-- A command the drive takes beside others, on a tag of its own; the immediate slot's are non-queued (R70). -/
def queuedWho : DriveWho → Bool
  | .host t => tagQueued t
  | .service _ => true

/-- The drive reports an error on a command: on a queued one it abandons the others, and the port issues nothing until it
has read the error record (R92, R156). -/
def driveReportsError (w : DriveWho) (s : State) : State :=
  if queuedWho w then
    let s1 := stopLink s
    { s1 with drive := { s1.drive with errorRead := true } }
  else s

/-- The operation fails, if it is still in flight. -/
def failOp (num : Nat) (s : State) : State :=
  match s.flightOfOp num with
  | some f => opFailed f s
  | none => s

/-- The failing host command of a drive error ends with the drive's indication: on a non-queued command at once, on a
queued one its work is over and the indication waits for the error record (R86, R92, notes/assumptions/9.md). -/
def failAtDrive (t : HostTag) (lba : Option Nat) (s : State) : State :=
  match s.cmd? t with
  | some c =>
    let e : Ending := .driveError (lba.map c.clampLba)
    if queuedWho (.host t) then
      let s1 := driveReportsError (.host t) s
      failWork t { s1 with drive := { s1.drive with failing := some { tag := t, ending := e } } }
    else failCommand t e s
  | none => s

end Sys2Proof.Machine
end

