-- ==== Sys2Proof/Machine/Resets.lean ====
section
/-!
DEFINITION. The hard reset and its release, the host link reset and the link's return, and start-up: HARD_RESET,
RESET_RELEASE, HOST_LINK_RESET, HOST_LINK_RETURN, DRIVE_IDENTITY, START_UP_LIMIT (R27, R28, R94, R95, R128, R141, R159,
R204 to R207).
-/

namespace Sys2Proof.Machine

/-- HARD_RESET: every block takes its hard-reset state; the key generator goes on (R95, R133). -/
def execHardReset (s : State) : Host.Outcome State Fault Refusal :=
  .next { State.reset with draws := s.draws, stamp := s.stamp, freeReads := s.freeReads, pending := s.pending }

/-- The drive port brings up the drive link and asks the drive for its identity (R204). -/
def askIdentity (s : State) : State :=
  ({ s with drive := { s.drive with link := .up, asking := true } }).emit .identityRequest

/-- RESET_RELEASE: the part enters STARTING, draws a nonce, offers the host link and asks the drive for its identity
(R196, R204). -/
def execResetRelease (s : State) : Host.Outcome State Fault Refusal :=
  .next (if s.inReset then
      (askIdentity { s.quiet with inReset := false, phase := .starting, host := { s.host with up := true } }).drawNonce
    else s.quiet)

/-- The part enters NO_DRIVE: the host link is withdrawn, and the drive left alone (R206). -/
def enterNoDrive (s : State) : State := { s with phase := .noDrive, host := {}, drive := {} }

/-- A drive the part takes (R204). -/
def suitable (d : Identity) : Bool :=
  decide (Config.smallestDrive ≤ d.capacity) && d.queued && decide (32 ≤ d.depth)

/-- The drive's identity fixes D, T and P, and the HEADER_READ is requested under the header's claim (R142, R144, R152). -/
def takeIdentity (d : Identity) (s : State) : State :=
  requestOp .headerRead .header none
    (takeClaim 0 .header { s with identity := some d, drive := { s.drive with asking := false } })

/-- The answer to the identity read (R204). The stored identity is never replaced (R90). -/
def identityArrives (answer : Option Identity) (s : State) : State :=
  if s.phase = .starting ∧ s.identity = none ∧ s.drive.asking = true then
    match answer with
    | some d => if suitable d then takeIdentity d s else enterNoDrive s
    | none => enterNoDrive s
  else s

/-- DRIVE_IDENTITY (R204). -/
def execDriveIdentity (answer : Option Identity) (s : State) : Host.Outcome State Fault Refusal :=
  act s (identityArrives answer)

/-- The HEADER_READ in flight. -/
def State.headerFlight (s : State) : Option Flight := s.cat.flights.find? fun f => decide (f.op.kind = .headerRead)

/-- The HEADER_READ is abandoned: its job is cut off, its frame erased, its command gone, and the drive link reset
(R204). -/
def abandonHeader (f : Flight) (s : State) : State :=
  let s1 := driveCompletes (.service f.tag) (dropJobs (.service f.tag) s)
  let s2 := { s1 with drive := { s1.drive with
    queue := s1.drive.queue.filter fun d => decide (d.who ≠ .service f.tag)
    reissue := s1.drive.reissue.filter fun n => decide (n ≠ f.op.num)
    restart := s1.drive.restart.filter fun n => decide (n ≠ f.op.num) } }
  headerEnd .unreadable (resetDriveLink (endFlight f.tag s2))

/-- The 30 s start-up limit runs out (R204). -/
def startUpLimitEnds (s : State) : State :=
  if s.phase = .starting then
    if s.identity = none then enterNoDrive s
    else match s.headerFlight with
      | some f => pump (abandonHeader f s)
      | none => s
  else s

/-- START_UP_LIMIT (R204). -/
def execStartUpLimit (s : State) : Host.Outcome State Fault Refusal := act s startUpLimitEnds

/-- Every host command and its jobs, frames, requests and drive entries are gone (R94, R128, R141); every service
operation in flight is taken back to its start, to begin again when the drive link is back (R159). -/
def clearTraffic (s : State) : State :=
  let back := (byIssue s.cat.flights).map (·.op.num)
  { s with
    lanes := {}
    table := []
    buffer := { s.buffer with frames := [], requests := [] }
    host := {}
    cat := { s.cat with flights := s.cat.flights.map fun f => { f with content := .erased } }
    win := { s.win with executing := s.win.executing.map fun e => { e with tag := none } }
    drive := { s.drive with
      link := if s.drive.asking then s.drive.link else .resetting
      queue := [], outstanding := [], errorRead := false, failing := none, hold := none, xfer := none, reissue := []
      restart := back } }

/-- The drive link is reset with the host link, but not while the drive has been asked for its identity: that goes on
(R94, R207, notes/assumptions/24.md). -/
def emitLinkReset (s : State) : State := if s.drive.asking then s else s.emit .driveLinkReset

/-- The host link is reset (R94). Without a link there is nothing to reset. -/
def hostLinkResets (s : State) : State :=
  if s.host.up then endPieces s.table (emitLinkReset (clearTraffic s)) else s

/-- HOST_LINK_RESET (R94). -/
def execHostLinkReset (s : State) : Host.Outcome State Fault Refusal := act s hostLinkResets

/-- The host link is offered again (R94, R207). In NO_DRIVE it is not (R206). -/
def hostLinkReturns (s : State) : State :=
  if s.phase = .noDrive then s else { s with host := { s.host with up := true } }

/-- HOST_LINK_RETURN (R207). -/
def execHostLinkReturn (s : State) : Host.Outcome State Fault Refusal := act s hostLinkReturns

end Sys2Proof.Machine
end

