-- ==== Sys2Proof/Machine/Time.lean ====
section
/-!
DEFINITION. The clock's tick and the alarm window's deadline: TICK, WINDOW_DEADLINE (R167, R170, R185).
-/

namespace Sys2Proof.Machine

/-- A tick: a set clock rises by one, or stays at its highest value, and the expiry test follows; an unset one changes
nothing (R167). -/
def tickClock (s : State) : State :=
  match s.clock with
  | none => s
  | some c => pump (expiryTest { s with clock := some (min Config.maxCount32 (c + 1)) })

/-- TICK (R167). -/
def execTick (s : State) : Host.Outcome State Fault Refusal := act s tickClock

/-- The alarm window's deadline is reached (R185). -/
def deadlineReached (s : State) : State :=
  match s.mon.state with
  | .alarm => ({ s with mon := { s.mon with state := .lockdown, deadline := none } }).setFlag .lockdown
  | .normal | .lockdown => s

/-- The alarm window's deadline in ALARM, with the sectors of the window that go to the host in this step (R82, R185). -/
def deadlineEnds (s : State) : State := if s.mon.state = .alarm then pump (deadlineReached s) else s

/-- WINDOW_DEADLINE (R185). -/
def execWindowDeadline (s : State) : Host.Outcome State Fault Refusal := act s deadlineEnds

end Sys2Proof.Machine
end

