-- ==== Sys2Proof/Machine/DriveLink.lean ====
section
/-!
DEFINITION. The drive link: DRIVE_ISSUE, DRIVE_ERROR, ERROR_RECORD_READ, ERROR_RECORD_TIMEOUT, SERVICE_TIMER,
HOLD_LIMIT, DRIVE_LINK_RESET_END, LINK_RESET_NO_ANSWER (R70, R92, R93, R119, R156 to R159).
-/

namespace Sys2Proof.Machine

/-! ### Issue (R70) -/

/-- The drive can take an entry: a queued one while no non-queued command is outstanding, a non-queued one while none is
(R70). -/
def State.canTake (s : State) (d : DriveCmd) : Bool :=
  if queuedWho d.who then s.drive.outstanding.all fun o => queuedWho o.who else s.drive.outstanding.isEmpty

/-- The first issue of a service operation is noted (R156). -/
def noteIssue (w : DriveWho) (s : State) : State :=
  match w with
  | .service t =>
    (s.modFlight t fun f => match f.issued with
      | none => { f with issued := some s.stamp }
      | some _ => f).tickStamp
  | .host _ => s

/-- The head of the queue is issued, if the drive can take it; nothing is while the link is down, held, or waits for the
error record (R70, R92, R119). -/
def issueHead (s : State) : State :=
  match s.drive.queue with
  | [] => s
  | d :: rest =>
    if s.driveWorks ∧ s.drive.hold = none ∧ s.canTake d then
      noteIssue d.who
        (({ s with drive := { s.drive with queue := rest, outstanding := s.drive.outstanding ++ [d] } }).emit (.issued d))
    else s

/-- DRIVE_ISSUE (R70). -/
def execDriveIssue (s : State) : Host.Outcome State Fault Refusal := act s issueHead

/-! ### Errors (R92) -/

/-- The drive completes the pass-through command of a tag with an error (R92). -/
def driveFails (t : HostTag) (lba : Option Nat) (s : State) : State :=
  if s.driveWorks ∧ (s.driveCmdOf t).isSome then pump (failAtDrive t lba s) else s

/-- DRIVE_ERROR (R92). -/
def execDriveError (t : HostTag) (lba : Option Nat) (s : State) : Host.Outcome State Fault Refusal :=
  act s (driveFails t lba)

/-- The error record has been read: the failing command ends with the drive's indication, the abandoned pass-through
commands with the device-error indication, and the abandoned service commands rejoin the queue ahead of every waiting
entry (R92, R156). R92 gives no order: the failing command's completion becomes due before those of the abandoned
commands (notes/assumptions/40.md), which end one by one, in admission order, each with its own jobs, requests and frames
(notes/assumptions/18.md and 41.md). -/
def errorRecordArrives (s : State) : State :=
  if s.drive.errorRead then
    let ended := s.abandonedTags
    let s1 := failingKnown id (reissueOps s.abandonedOps
      { s with drive := { s.drive with outstanding := [], errorRead := false } })
    pump (ended.foldl (fun s t => failCommand t .deviceError s) s1)
  else s

/-- ERROR_RECORD_READ (R92). -/
def execErrorRecordRead (s : State) : Host.Outcome State Fault Refusal := act s errorRecordArrives

/-- The error record cannot be had: the drive link is reset (R92). -/
def errorRecordFails (s : State) : State := if s.drive.errorRead then pump (resetDriveLink s) else s

/-- ERROR_RECORD_TIMEOUT (R92). -/
def execErrorRecordTimeout (s : State) : Host.Outcome State Fault Refusal := act s errorRecordFails

/-! ### Timers and resets of the link (R119, R157 to R159) -/

/-- The timeout count of an operation is raised, to at most 1 (R157). -/
def raiseTimeouts (t : SvcTag) (s : State) : State :=
  s.modFlight t fun f => { f with op := { f.op with timeouts := min 1 (f.op.timeouts + 1) } }

/-- An operation is not issued again (R158). -/
def dropReissue (num : Nat) (s : State) : State :=
  { s with drive := { s.drive with reissue := s.drive.reissue.filter fun n => decide (n ≠ num) } }

/-- The 10 s timer of the command on a service tag runs out: the link is reset, and at the second time the operation
fails (R157, R158). -/
def timerEnds (t : SvcTag) (s : State) : State :=
  match s.flight? t with
  | none => s
  | some f =>
    if s.drive.link = .up ∧ s.svcOutstanding t then
      if f.op.timeouts = 0 then pump (resetDriveLink (raiseTimeouts t s))
      else pump (failOp f.op.num ((dropReissue f.op.num (resetDriveLink s)).setFlag .serviceTimeout))
    else s

/-- SERVICE_TIMER (R157). -/
def execServiceTimer (t : SvcTag) (s : State) : Host.Outcome State Fault Refusal := act s (timerEnds t)

/-- A hold of the drive link has lasted 10 s (R119). -/
def holdEnds (s : State) : State := if s.drive.hold = none then s else pump (resetDriveLink s)

/-- HOLD_LIMIT (R119). -/
def execHoldLimit (s : State) : Host.Outcome State Fault Refusal := act s holdEnds

/-- An operation begins again from the moment it took its tag (R159). -/
def restartOp (num : Nat) (s : State) : State :=
  match s.flightOfOp num with
  | some f => beginFlight f s
  | none => s

/-- The drive answers again: commands outstanding at a reset of the drive link are issued again first, operations taken
back at a host link reset begin again (R157, R159). -/
def linkBack (s : State) : State :=
  if s.drive.link = .resetting then
    let s1 := reissueOps s.drive.reissue s
    s.drive.restart.foldl (fun s n => restartOp n s)
      { s1 with drive := { s1.drive with link := .up, reissue := [], restart := [] } }
  else s

/-- DRIVE_LINK_RESET_END (R157). -/
def execDriveLinkResetEnd (s : State) : Host.Outcome State Fault Refusal := act s linkBack

/-- The drive has not answered within 10 s of the reset: every operation that waits for the link fails, and the link is
reset again (R158, R159). R158 gives no order in which they fail. That those to be issued again fail before those that
were to begin again, each list in the order of first issue, is the model's choice (notes/assumptions/38.md). -/
def noAnswer (s : State) : State :=
  if s.drive.link = .resetting then
    let waiting := s.drive.reissue ++ s.drive.restart
    let s1 := ({ s with drive := { s.drive with reissue := [], restart := [] } }).setFlag .serviceTimeout
    pump (waiting.foldl (fun s n => failOp n s) (s1.emit .driveLinkReset))
  else s

/-- LINK_RESET_NO_ANSWER (R158). -/
def execLinkResetNoAnswer (s : State) : Host.Outcome State Fault Refusal := act s noAnswer

end Sys2Proof.Machine
end

