-- ==== Sys2Proof/WellFormed.lean ====
section
/-!
DEFINITION. Which commands can be sent: the bounds the manual gives their operands. A command that fails its check stands
for nothing a host or a drive can send, and its meaning refuses it by name.
-/

namespace Sys2Proof

/-- A count of sectors that a host command can carry, 1 … 65,536 (R71). -/
def countOk (count : Nat) : Bool := decide (1 ≤ count) && decide (count ≤ Config.maxSectors)

/-- A transfer of one unit moves 1 … 8 sectors (R114, R119). -/
def transferOk (data : List Sector) : Bool := decide (1 ≤ data.length) && decide (data.length ≤ 8)

/-- A range sector holds at most 64 entries (R88). -/
def rangesOk (ranges : List Range) : Bool := decide (ranges.length ≤ 64)

/-- A passed-through command that moves data moves at least one sector. -/
def passOk : PassData → Bool
  | .none => true
  | .toHost n => decide (1 ≤ n)
  | .toDrive n => decide (1 ≤ n)

/-- The operand bounds of every command. -/
def Instr.WellFormed : Instr → Bool
  | .hostRead _ _ count => countOk count
  | .hostWrite _ _ count => countOk count
  | .deallocateRangeSector ranges => rangesOk ranges
  | .pass _ _ data => passOk data
  | .unitReceived data => transferOk data
  | .unitTaken data => transferOk data
  | .hardReset | .resetRelease | .hostLinkReset | .driveIdentity _ | .startUpLimit | .tick | .windowDeadline
  | .serviceTimer _ | .driveLinkResetEnd | .linkResetNoAnswer | .holdLimit | .driveError _ _ | .errorRecordRead
  | .errorRecordTimeout | .driveIssue | .deallocate _ | .flush _ | .identify _ | .capacityRefusedCommand _ _
  | .drivePushUnit _ | .readRunComplete _ | .mergeReadComplete _ | .writeRunComplete _ | .driveFlushComplete _ _
  | .deallocateComplete _ _ | .passComplete _ _ | .drivePullUnit _ | .unitPulled | .unitDelivered | .hostTransferEnd
  | .jobEnd _ | .serviceReadComplete _ _ | .serviceWriteComplete _ _ | .controlTurn | .unknownCommandCode
  | .createTitle | .openTitle | .createRing | .attach | .sealTitle | .sync | .close | .delete | .setRights
  | .ringEmpty | .resumeTitle | .moveBegin | .moveCommit | .moveCancel | .setClock | .setPolicy | .clearEvents
  | .resume | .format | .sweep | .hostLinkReturn => true

end Sys2Proof
end

