-- ==== Sys2Proof/Machine/HostCommands.lean ====
section
/-!
DEFINITION. The commands of the host as they arrive: HOST_READ, HOST_WRITE, DEALLOCATE, DEALLOCATE_RANGE_SECTOR, FLUSH,
IDENTIFY, PASS, CAPACITY_REFUSED_COMMAND (R69, R73 to R78, R87 to R91).
-/

namespace Sys2Proof.Machine

/-- A command arrives, and the host port does what it can. -/
def arriveAndPump (a : Arrival) (s : State) : State := pump (arrive a s)

/-- HOST_READ (R76). -/
def execHostRead (t : HostTag) (lba count : Nat) (s : State) : Host.Outcome State Fault Refusal :=
  if countOk count then act s (arriveAndPump (.read t lba count)) else .refused (.illFormed "HOST_READ")

/-- HOST_WRITE (R76). -/
def execHostWrite (t : HostTag) (lba count : Nat) (s : State) : Host.Outcome State Fault Refusal :=
  if countOk count then act s (arriveAndPump (.write t lba count)) else .refused (.illFormed "HOST_WRITE")

/-- DEALLOCATE (R88). -/
def execDeallocate (t : HostTag) (s : State) : Host.Outcome State Fault Refusal := act s (arriveAndPump (.deallocate t))

/-- The range sector of the deallocate in hand arrives, if one is being taken: it goes between transfers (R88, R127). -/
def rangeSector (ranges : List Range) (s : State) : State :=
  match s.host.rangeSector with
  | some t => if s.host.between then pump (rangeSectorArrives t ranges s) else s
  | none => s

/-- DEALLOCATE_RANGE_SECTOR (R89). -/
def execDeallocateRangeSector (ranges : List Range) (s : State) : Host.Outcome State Fault Refusal :=
  if rangesOk ranges then act s (rangeSector ranges) else .refused (.illFormed "DEALLOCATE_RANGE_SECTOR")

/-- FLUSH (R87). -/
def execFlush (t : HostTag) (s : State) : Host.Outcome State Fault Refusal := act s (arriveAndPump (.flush t))

/-- IDENTIFY (R90). -/
def execIdentify (t : HostTag) (s : State) : Host.Outcome State Fault Refusal := act s (arriveAndPump (.identify t))

/-- PASS (R91). -/
def execPass (t : HostTag) (words : Nat) (data : PassData) (s : State) : Host.Outcome State Fault Refusal :=
  if passOk data then act s (arriveAndPump (.pass t words data)) else .refused (.illFormed "PASS")

/-- CAPACITY_REFUSED_COMMAND (R74). -/
def execCapacityRefusedCommand (t : HostTag) (range : Option Range) (s : State) : Host.Outcome State Fault Refusal :=
  act s (arriveAndPump (.other t range))

end Sys2Proof.Machine
end

