-- ==== Sys2Proof/Machine/DataPath.lean ====
section
/-!
DEFINITION. The movement of data and the ends of drive commands and jobs: DRIVE_PUSH_UNIT, UNIT_RECEIVED,
READ_RUN_COMPLETE, MERGE_READ_COMPLETE, WRITE_RUN_COMPLETE, DRIVE_FLUSH_COMPLETE, DEALLOCATE_COMPLETE, PASS_COMPLETE,
DRIVE_PULL_UNIT, UNIT_PULLED, UNIT_TAKEN, UNIT_DELIVERED, HOST_TRANSFER_END, JOB_END (R80 to R85, R87 to R91, R99, R100,
R102, R114, R119, R125 to R127, R138).
-/

namespace Sys2Proof.Machine

/-! ### The drive pushes (R80, R99, R119) -/

/-- A drive command that pushes data into frames: a READ run, a merge read, or a passed-through read (R117). -/
def pushes (d : DriveCmd) (c : Cmd) : Bool :=
  match d.op with
  | .read => true
  | .mergeRead => true
  | .pass _ => c.sends
  | .write | .flush | .deallocate _ | .serviceRead | .forcedWrite => false

/-- A drive command that pulls data from frames: a WRITE run or a passed-through write (R84). -/
def pulls (d : DriveCmd) (c : Cmd) : Bool :=
  match d.op with
  | .write => true
  | .pass _ => c.takes
  | .read | .mergeRead | .flush | .deallocate _ | .serviceRead | .forcedWrite => false

/-- The drive link is free for the next unit of a command (R119). -/
def State.linkFree (s : State) : Bool := s.driveWorks && decide (s.drive.hold = none) && decide (s.drive.xfer = none)

/-- The PUSH request of a unit is granted, or it waits and stalls the drive link (R118, R119). -/
def requestPush (r : Req) (s : State) : State :=
  if grantable r s then grant r s
  else { s.setRequests (s.buffer.requests ++ [r]) with drive := { s.drive with hold := some (.stall r.tag) } }

/-- The first sector of the next unit of a command's push reaches the part. A unit whose first sectors came with the run
before goes on in its frame (R79, R80). -/
def pushUnit (t : HostTag) (s : State) : State :=
  match s.cmd? t, s.driveCmdOf t with
  | some c, some d =>
    if s.linkFree ∧ pushes d c ∧ d.moved < d.count then
      let u := unitOf d.next
      match s.frameOf t u with
      | some f => startDriveXfer true t f.num s
      | none => requestPush { kind := .push, cls := c.classOf u, tag := t, unit := u } s
    else s
  | _, _ => s

/-- DRIVE_PUSH_UNIT (R119). -/
def execDrivePushUnit (t : HostTag) (s : State) : Host.Outcome State Fault Refusal := act s fun s => pump (pushUnit t s)

/-- The transfer on the drive link is over, and the sectors count as moved. -/
def endDriveXfer (x : DriveXfer) (s : State) : State :=
  { s with drive := { s.drive with
      xfer := none
      outstanding := s.drive.outstanding.map fun d =>
        if d.who = .host x.tag then { d with moved := d.moved + x.count } else d } }

/-- The job of a protected unit: its tweak and generation from its piece, its class that of its frame (R116, R134). -/
def unitJob (c : Cmd) (f : Frame) (o : Owned) (d : JobDir) : Job :=
  { frame := f.num, dir := d, source := .slot o.slot o.gen, tweak := o.tweak f.unit, owner := .host c.tag, cls := f.cls }

/-- The frame goes IN_JOB and its job is submitted (R134). -/
def submitUnit (c : Cmd) (f : Frame) (d : JobDir) (s : State) : State :=
  match c.ownedOf f.unit with
  | some o => submitJob (unitJob c f o d) (s.modFrame f.num fun f => { f with cond := .inJob })
  | none => s

/-- A unit of a push stands whole in its frame (R80, R99, R125): a merge base waits for its read's completion, a
protected unit of a READ gets its decrypt job, any other passes through. -/
def unitWhole (c : Cmd) (f : Frame) (s : State) : State :=
  if c.state = .mergeRead then s.modFrame f.num fun f => { f with cond := .inJob }
  else
    let s1 := s.modCmd c.tag fun c => { c with received := c.received + 1 }
    makeRequests c.tag (if f.cls = .bulk then s1 else submitUnit c f .decrypt s1)

/-- The sectors of a push transfer arrive in their frame (R80). -/
def receiveUnit (data : List Sector) (s : State) : State :=
  match s.drive.xfer with
  | none => s
  | some x => match s.cmd? x.tag, s.frame? x.frame with
    | some c, some f =>
      if x.push ∧ data.length = x.count then
        let lo := x.lba % 8
        let n := lo + x.count - c.stageLo f.unit
        let s1 := (endDriveXfer x s).modFrame f.num fun f =>
          { f with data := placeSectors f.data lo data, present := n }
        if c.need f.unit ≤ n then unitWhole c f s1 else s1
      else s
    | _, _ => s

/-- UNIT_RECEIVED (R80). -/
def execUnitReceived (data : List Sector) (s : State) : Host.Outcome State Fault Refusal :=
  if transferOk data then act s fun s => pump (receiveUnit data s) else .refused (.illFormed "UNIT_RECEIVED")

/-! ### Drive completions (R80, R84, R87, R89, R91, R99) -/

/-- The drive command of a tag, if its completion can arrive: the drive is at work and every sector has moved. -/
def State.completing (s : State) (t : HostTag) : Option DriveCmd :=
  match s.driveCmdOf t with
  | some d => if s.driveWorks ∧ d.moved = d.count then some d else none
  | none => none

/-- A READ run has completed good: the next run, or ENDING (R80). -/
def readRunEnds (t : HostTag) (s : State) : State :=
  match s.cmd? t, s.completing t with
  | some c, some d =>
    if d.op = .read then
      let s1 := driveCompletes (.host t) s
      if c.nextRun < c.runs.length then joinRun c .read c.nextRun s1
      else checkDelivered t (s1.setCmdState t .ending)
    else s
  | _, _ => s

/-- READ_RUN_COMPLETE (R80). -/
def execReadRunComplete (t : HostTag) (s : State) : Host.Outcome State Fault Refusal :=
  act s fun s => pump (readRunEnds t s)

/-- The entry of a merge list that is being read. -/
def Cmd.reading (c : Cmd) : Option MergeEntry := c.merges.find? fun e => decide (e.state = .reading)

/-- The decrypt job of a merge base: in RECORD, under the entry's tweak and generation (R99). -/
def baseJob (t : HostTag) (f : Frame) (slot : SlotIx) (e : MergeEntry) : Job :=
  { frame := f.num, dir := .decrypt, source := .slot slot e.gen, tweak := e.tweak, owner := .host t, cls := .record }

/-- A merge read has completed good: its base decrypts, and the next merge read joins the queue (R99). -/
def mergeReadEnds (t : HostTag) (s : State) : State :=
  match s.cmd? t, s.completing t with
  | some c, some d =>
    match d.op, c.reading with
    | .mergeRead, some e =>
      match s.frameOf t e.unit, c.ownedOf e.unit with
      | some f, some o =>
        let c1 := c.setMerge e.unit .decrypting
        let s1 := submitJob (baseJob t f o.slot e) ((driveCompletes (.host t) s).modCmd t fun _ => c1)
        joinMergeRead c1 s1
      | _, _ => s
    | _, _ => s
  | _, _ => s

/-- MERGE_READ_COMPLETE (R99). -/
def execMergeReadComplete (t : HostTag) (s : State) : Host.Outcome State Fault Refusal :=
  act s fun s => pump (mergeReadEnds t s)

/-- A WRITE run has completed good: the next run, or the completion (R84). -/
def writeRunEnds (t : HostTag) (s : State) : State :=
  match s.cmd? t, s.completing t with
  | some c, some d =>
    if d.op = .write then
      let s1 := driveCompletes (.host t) s
      if c.nextRun < c.runs.length then joinRun c .write c.nextRun s1 else completeGood t s1
    else s
  | _, _ => s

/-- WRITE_RUN_COMPLETE (R84). -/
def execWriteRunComplete (t : HostTag) (s : State) : Host.Outcome State Fault Refusal :=
  act s fun s => pump (writeRunEnds t s)

/-- The drive command of a tag that the drive may now complete with its status, good or not. -/
def statusArrives (t : HostTag) (good : Bool) (s : State) : State :=
  if good then completeGood t (driveCompletes (.host t) s) else failAtDrive t none s

/-- The drive completes a flush (R87). -/
def flushEnds (t : HostTag) (good : Bool) (s : State) : State :=
  match s.driveCmdOf t with
  | some d => if s.driveWorks ∧ d.op = .flush then statusArrives t good s else s
  | none => s

/-- DRIVE_FLUSH_COMPLETE (R87). -/
def execDriveFlushComplete (t : HostTag) (good : Bool) (s : State) : Host.Outcome State Fault Refusal :=
  act s fun s => pump (flushEnds t good s)

/-- The drive completes a deallocate (R89). -/
def deallocateEnds (t : HostTag) (good : Bool) (s : State) : State :=
  match s.driveCmdOf t with
  | some d => match d.op with
    | .deallocate _ => if s.driveWorks then statusArrives t good s else s
    | .read | .mergeRead | .write | .flush | .pass _ | .serviceRead | .forcedWrite => s
  | none => s

/-- DEALLOCATE_COMPLETE (R89). -/
def execDeallocateComplete (t : HostTag) (good : Bool) (s : State) : Host.Outcome State Fault Refusal :=
  act s fun s => pump (deallocateEnds t good s)

/-- A passed-through command that sends data completes once the data has gone to the host (R81, R91). -/
def passGood (c : Cmd) (s : State) : State :=
  let s1 := driveCompletes (.host c.tag) s
  if c.sends then checkDelivered c.tag (s1.setCmdState c.tag .ending) else completeGood c.tag s1

/-- The drive completes a passed-through command (R91). -/
def passEnds (t : HostTag) (good : Bool) (s : State) : State :=
  match s.cmd? t, s.driveCmdOf t with
  | some c, some d => match d.op with
    | .pass _ =>
      if s.driveWorks then
        if good then (if d.moved = d.count then passGood c s else s) else failAtDrive t none s
      else s
    | .read | .mergeRead | .write | .flush | .deallocate _ | .serviceRead | .forcedWrite => s
  | _, _ => s

/-- PASS_COMPLETE (R91). -/
def execPassComplete (t : HostTag) (good : Bool) (s : State) : Host.Outcome State Fault Refusal :=
  act s fun s => pump (passEnds t good s)

/-! ### The drive pulls (R84, R126) -/

/-- The drive asks for the next unit of a command: it is given, or the link is held (R84). -/
def pullUnit (t : HostTag) (s : State) : State :=
  match s.cmd? t, s.driveCmdOf t with
  | some c, some d =>
    if s.linkFree ∧ pulls d c ∧ d.moved < d.count then
      match s.pullFrame c d with
      | some f => startDriveXfer false t f.num s
      | none => { s with drive := { s.drive with hold := some (.pull t) } }
    else s
  | _, _ => s

/-- DRIVE_PULL_UNIT (R84). -/
def execDrivePullUnit (t : HostTag) (s : State) : Host.Outcome State Fault Refusal := act s (pullUnit t)

/-- The drive has taken the sectors of a pull transfer, the last of which has come from the host by then (R125); a whole
unit's frame is freed, and intake goes on (R84, R121, R126). R121 does not say whether the command's next INTAKE request
comes before or after the arbitration of that frame: here the arbitration comes first (notes/assumptions/43.md). -/
def unitGone (s : State) : State :=
  match s.drive.xfer with
  | none => s
  | some x => match s.cmd? x.tag, s.frame? x.frame with
    | some c, some f =>
      if x.push ∨ f.arrived c = false then s
      else
        let s1 := (endDriveXfer x s).emit (.toDrive x.tag x.lba (takeSectors f.data (x.lba % 8) x.count))
        if c.need f.unit ≤ x.lba % 8 + x.count - c.stageLo f.unit then
          makeRequests x.tag (freeFrame f.num (s1.modCmd x.tag fun c => { c with pulled := c.pulled + 1 }))
        else s1
    | _, _ => s

/-- UNIT_PULLED (R126). -/
def execUnitPulled (s : State) : Host.Outcome State Fault Refusal := act s fun s => pump (unitGone s)

/-! ### The host link (R81, R83, R85, R102, R127) -/

/-- The last sector of the transfer on the host link has moved. -/
def endHostXfer (s : State) : State :=
  { s with host := { s.host with xfer := s.host.xfer.map fun x => { x with done := true } } }

/-- The sector of a CONTROL_WRITE has arrived: its frame is freed and its record handed to the window (R85, R125,
R193). -/
def handOver (c : Cmd) (f : Frame) (record : Sector) (s : State) : State :=
  freeFrame f.num ({ s.modCmd c.tag fun c => { c with taken := c.taken + 1 } with
    win := { s.win with executing := some { tag := some c.tag, record := record, stage := .handed }, last := some record } })

/-- The host sectors of an intake unit have arrived, placed over what its frame holds (R83, R102). -/
def intakeWhole (c : Cmd) (f : Frame) (data : List Sector) (s : State) : State :=
  let s1 := (s.modFrame f.num fun f =>
    { f with data := placeSectors f.data (c.hostLo f.unit) data, present := c.need f.unit }).modCmd c.tag
      fun c => { c with taken := c.taken + 1 }
  if f.cls = .bulk then s1 else submitUnit c f .encrypt s1

/-- The host sectors of the intake unit on the host link arrive. -/
def takeUnit (data : List Sector) (s : State) : State :=
  match s.host.xfer with
  | none => s
  | some x => match s.cmd? x.tag, s.frame? x.frame with
    | some c, some f =>
      if x.send = false ∧ x.done = false ∧ data.length = c.hostHi f.unit + 1 - c.hostLo f.unit then
        let s1 := endHostXfer s
        if c.kind = .controlWrite then handOver c f (data.headD Sector.zero) s1 else intakeWhole c f data s1
      else s
    | _, _ => s

/-- UNIT_TAKEN (R83). -/
def execUnitTaken (data : List Sector) (s : State) : Host.Outcome State Fault Refusal :=
  if transferOk data then act s fun s => pump (takeUnit data s) else .refused (.illFormed "UNIT_TAKEN")

/-- A WINDOW_READ or IDENTIFY whose last sector has gone is over (R82, R90). -/
def endServed (t : HostTag) (s : State) : State :=
  match s.cmd? t with
  | some c =>
    if (c.kind = .windowRead ∨ c.kind = .identify) ∧ c.units ≤ c.delivered then s.setCmdState t .ending else s
  | none => s

/-- Every sector that the frame owes has come from its source: a unit still coming from the drive has not (R127). -/
def Frame.sendable (f : Frame) (c : Cmd) : Bool :=
  (decide (f.cond = .ready) || decide (f.cond = .passing)) && decide (f.unit < c.firstUnit + c.received)

/-- The content of a frame as it stands, or as it was. -/
def State.dataNow (s : State) (f : Frame) : UnitData :=
  match s.frame? f.num with
  | some g => g.data
  | none => f.data

/-- The last requested sector of a unit has gone to the host (R81). The sectors of a WINDOW_READ unit whose turn had not
come before this step are produced now (R82). -/
def deliverUnit (s : State) : State :=
  match s.host.xfer with
  | none => s
  | some x => match s.cmd? x.tag, s.frame? x.frame with
    | some c, some f =>
      if x.send ∧ x.done = false ∧ f.sendable c then
        let lo := c.hostLo f.unit
        let s0 := produceSectors 8 s
        let s1 := (endHostXfer s0).emit
          (.toHost x.tag (8 * f.unit + lo) (takeSectors (s0.dataNow f) lo (c.hostHi f.unit + 1 - lo)))
        let s2 := freeFrame f.num (s1.modCmd x.tag fun c => { c with delivered := c.delivered + 1 })
        checkDelivered x.tag (endServed x.tag (makeRequests x.tag s2))
      else s
    | _, _ => s

/-- UNIT_DELIVERED (R81). -/
def execUnitDelivered (s : State) : Host.Outcome State Fault Refusal := act s fun s => pump (deliverUnit s)

/-- The transfer on the host link ends (R127). -/
def transferEnds (s : State) : State :=
  match s.host.xfer with
  | some x => if x.done then { s with host := { s.host with xfer := none } } else s
  | none => s

/-- HOST_TRANSFER_END (R127). -/
def execHostTransferEnd (s : State) : Host.Outcome State Fault Refusal := act s fun s => pump (transferEnds s)

/-! ### The end of a job (R138) -/

/-- Every READ base of a merge list is held (R100). -/
def Cmd.basesHeld (c : Cmd) : Bool := c.merges.all fun e => decide (e.base = .zero) || decide (e.state = .held)

/-- A merge base is held; with the last one the write enters ACTIVE (R99, R100). -/
def baseHeld (c : Cmd) (f : Frame) (s : State) : State :=
  let c1 := c.setMerge f.unit .held
  let s1 := s.modCmd c.tag fun _ => c1
  if c1.basesHeld then enterCmdActive c.tag s1 else s1

/-- The job of a host command ends, and its frame goes on (R138). -/
def hostJobEnd (r : Running) (t : HostTag) (s : State) : State :=
  match s.cmd? t, s.frame? r.job.frame with
  | some c, some f =>
    let data := transformUnit r.job.dir r.key r.job.tweak f.data
    let put (cond : Condition) (dir : Direction) (s : State) : State :=
      (s.modFrame f.num fun f => { f with data := data, cond := cond, dir := dir, order := s.stamp }).tickStamp
    if c.state = .mergeRead then baseHeld c f (put .base .toDrive s)
    else match r.job.dir with
      | .decrypt => put .ready .toHost s
      | .encrypt => servePull t (put .ready .toDrive s)
  | _, _ => s

/-- The lane hands the frame to its job's owner. -/
def handBack (r : Running) (s : State) : State :=
  match r.job.owner with
  | .host t => hostJobEnd r t s
  | .service t => serviceJobEnd t s

/-- A lane's job ends, and the lane makes its selection (R136, R138). A job started later than the other lane's ends later
(R135). -/
def laneEnds (l : Fin 2) (s : State) : State :=
  match s.lanes.lane l with
  | some r => if s.lanes.endsNext l then refillLane l (handBack r s) else s
  | none => s

/-- JOB_END (R138). -/
def execJobEnd (l : Fin 2) (s : State) : Host.Outcome State Fault Refusal := act s fun s => pump (laneEnds l s)

end Sys2Proof.Machine
end

