-- ==== Sys2Proof/Machine/ServiceEnds.lean ====
section
/-!
DEFINITION. The completions of service commands at the drive: SERVICE_READ_COMPLETE, SERVICE_WRITE_COMPLETE (R144, R146,
R150, R151, R156).
-/

namespace Sys2Proof.Machine

/-- The flight on a service tag whose command the drive can now complete. Its transfer is one with a good completion, so
that comes only while the drive link is neither held nor moving another unit (R119, notes/assumptions/31.md). -/
def State.serviceCompleting (s : State) (t : SvcTag) (good : Bool) : Option Flight :=
  match s.flight? t with
  | some f => if s.driveWorks ∧ s.svcOutstanding t ∧ (good = true → s.linkFree = true) then some f else none
  | none => none

/-- The tweak of the DECRYPT job of a unit read (R130, R144, R146). -/
def readTweak (k : SvcKind) (unit : DiskUnit) : Tweak :=
  match k with
  | .headerRead => catalogueTweak 0 0
  | .load i => catalogueTweak (titleClear unit).gen i
  | .store i => catalogueTweak (titleClear unit).gen i
  | .erase i => catalogueTweak (titleClear unit).gen i
  | .headerWrite _ => catalogueTweak 0 0

/-- An operation reads the catalogue. -/
def SvcKind.reads : SvcKind → Bool
  | .load _ => true
  | .headerRead => true
  | .store _ => false
  | .erase _ => false
  | .headerWrite _ => false

/-- A read has brought its unit: the clear part decides, or the DECRYPT job is submitted (R144, R146, R150). -/
def unitRead (f : Flight) (unit : DiskUnit) (s : State) : State :=
  if s.needsJob f.op.kind unit then
    submitJob (serviceJob f.tag .decrypt (readTweak f.op.kind unit))
      (s.modFlight f.tag fun f => { f with content := .whole unit })
  else opRead f unit s

/-- The drive completes a service command with an error: the operation fails, and the error abandons the other queued
commands (R92, R156). -/
def serviceFails (f : Flight) (s : State) : State :=
  failOp f.op.num (driveReportsError (.service f.tag) (driveCompletes (.service f.tag) s))

/-- The read on a service tag completes (R150). -/
def serviceReadEnds (t : SvcTag) (unit : Option DiskUnit) (s : State) : State :=
  match s.serviceCompleting t unit.isSome with
  | none => s
  | some f =>
    if f.op.kind.reads then
      match unit with
      | some u => unitRead f u (driveCompletes (.service t) s)
      | none => serviceFails f s
    else s

/-- SERVICE_READ_COMPLETE (R150). -/
def execServiceReadComplete (t : SvcTag) (unit : Option DiskUnit) (s : State) : Host.Outcome State Fault Refusal :=
  act s fun s => pump (serviceReadEnds t unit s)

/-- The unit that a flight's write has put on the disk. -/
def emitWritten (f : Flight) (s : State) : State :=
  match f.content with
  | .whole u => s.emit (.catalogue (s.catalogueLba f.op.kind.index) u)
  | .formed _ | .erased => s

/-- The forced write on a service tag completes (R151). -/
def serviceWriteEnds (t : SvcTag) (good : Bool) (s : State) : State :=
  match s.serviceCompleting t good with
  | none => s
  | some f =>
    if f.op.kind.reads then s
    else if good then opWritten f (emitWritten f (driveCompletes (.service t) s))
    else serviceFails f s

/-- SERVICE_WRITE_COMPLETE (R151). -/
def execServiceWriteComplete (t : SvcTag) (good : Bool) (s : State) : Host.Outcome State Fault Refusal :=
  act s fun s => pump (serviceWriteEnds t good s)

end Sys2Proof.Machine
end

