-- ==== Sys2Proof/Machine/Control.lean ====
section
/-!
DEFINITION. The control window's turn and checks, and the tests that the commands on titles share: CONTROL_TURN,
UNKNOWN_COMMAND_CODE (R5, R6, R193, R195 to R197).
-/

namespace Sys2Proof.Machine

/-! ### The turn (R193) -/

/-- The window is IDLE, and no CONTROL_WRITE that had its turn still waits for its sector. -/
def State.windowIdle (s : State) : Bool :=
  s.win.executing.isNone && s.table.all fun c => decide (c.kind ≠ .controlWrite) || decide (c.state ≠ .active)

/-- The oldest CONTROL_WRITE that waits. -/
def State.nextControl (s : State) : Option Cmd :=
  s.table.find? fun c => decide (c.kind = .controlWrite) && decide (c.state = .waitControl)

/-- The oldest waiting CONTROL_WRITE has its turn (R193). -/
def takeTurn (s : State) : State :=
  if s.windowIdle then
    match s.nextControl with
    | some c => pump (enterCmdActive c.tag s)
    | none => s
  else s

/-- CONTROL_TURN (R193). -/
def execControlTurn (s : State) : Host.Outcome State Fault Refusal := act s takeTurn

/-! ### The checks (R195) -/

/-- What the window needs to know of a control command: its code, and the columns of R194. -/
structure ControlRow where
  code : Nat
  authorised : Bool := false
  inUnformatted : Bool := false
  inLockdown : Bool := false

/-- Checks 4 to 6 of a record, and then the command's own tests (R195). -/
def checkRecord (row : ControlRow) (fieldsOk : Sector → State → Bool) (body : Sector → State → State) (r : Sector)
    (s : State) : State :=
  if s.mon.state = .lockdown ∧ row.inLockdown = false then finishControl .lockdown .none s
  else if s.phase ≠ .ready ∧ row.inUnformatted = false then finishControl .unformatted .none s
  else if fieldsOk r s = false then finishControl .badParam .none s
  else body r s

/-- Checks 2 and 3, and the acceptance of an authorised record (R195, R196, R197). Which altered records the code tells
apart stands in `AuthCode` (notes/assumptions/42.md). -/
def authorise (row : ControlRow) (next : Sector → State → State) (r : Sector) (s : State) : State :=
  if row.authorised then
    if recNonce r ≠ s.win.nonce then finishControl .stale .none (violate .staleNonce [] s)
    else if recAuth r ≠ Config.authCode (recCovered r) then finishControl .authFail .none (violate .authFail [] s)
    else next r s.drawNonce
  else next r s

/-- The record that has been handed to the window and not yet executed, if its code passes a test. -/
def State.handedRecord (s : State) (isCode : Nat → Bool) : Option Sector :=
  match s.win.executing with
  | some e => if e.stage = .handed ∧ isCode (recCode e.record) = true then some e.record else none
  | none => none

/-- The window checks and executes the record in hand, if it carries this command's code (R195). -/
def runControl (row : ControlRow) (fieldsOk : Sector → State → Bool) (body : Sector → State → State) (s : State) :
    State :=
  match s.handedRecord (fun c => decide (c = row.code)) with
  | some r => pump (authorise row (checkRecord row fieldsOk body) r s)
  | none => s

/-- UNKNOWN_COMMAND_CODE: check 1 fails (R195). -/
def execUnknownCommandCode (s : State) : Host.Outcome State Fault Refusal :=
  act s fun s =>
    match s.handedRecord (fun c => decide (c = 0) || decide (20 < c)) with
    | some _ => pump (finishControl .badParam .none s)
    | none => s

/-! ### Tests that commands on a slot share (R5, R6) -/

/-- The slot of a record is 0 … 7 (R195, check 6). -/
def slotOk (r : Sector) : Bool := (slotOfNat (recSlot r)).isSome

/-- A command that names no slot and has no other field to test. -/
def noFields (_ : Sector) (_ : State) : Bool := true

/-- A command that has a slot alone. -/
def slotField (r : Sector) (_ : State) : Bool := slotOk r

/-- The command is answered at a test. -/
def fail (x : Result) (s : State) : State := finishControl x .none s

/-- The command is answered OK with nothing to wait for. -/
def succeed (s : State) : State := finishControl .ok .none s

/-- The body of a command on a slot. Check 6 has tested the number. -/
def withSlot (f : SlotIx → Sector → State → State) (r : Sector) (s : State) : State :=
  match slotOfNat (recSlot r) with
  | some i => f i r s
  | none => fail .badParam s

/-- The slot must be ACTIVE (R5). -/
def needActive (f : SlotIx → Sector → State → State) (i : SlotIx) (r : Sector) (s : State) : State :=
  match (s.slot i).phase with
  | .active => f i r s
  | .idle => fail .state s
  | .loading | .draining | .storing | .erasing => fail .slotBusy s

/-- A title number is held by a slot other than i (R6). -/
def State.numberHeld (s : State) (i : SlotIx) (n : Nat) : Bool :=
  allSlots.any fun k => decide (k ≠ i) && decide ((s.slot k).phase ≠ .idle) && decide ((s.slot k).number = some n)

/-- The slot must be IDLE, the title number in its range and held by no other slot (R5, R6). -/
def needIdle (lo hi n : Nat) (f : SlotIx → Sector → State → State) (i : SlotIx) (r : Sector) (s : State) : State :=
  if (s.slot i).phase ≠ .idle then fail .slotBusy s
  else if n < lo ∨ hi < n then fail .badParam s
  else if s.numberHeld i n then fail .inUse s
  else f i r s

/-- Title number of CREATE_TITLE, OPEN_TITLE and CREATE_RING. -/
def recNumber (r : Sector) : Nat := Sector.field r 16 2

/-- The slot enters LOADING with its number, and its LOAD is requested or kept back (R7, R8, R152). -/
def enterLoading (i : SlotIx) (n : Nat) (s : State) : State :=
  claimAndLoad i n (setStage .load
    (s.setSlot i { number := some n, phase := .loading, kind := some .recording }))

/-- The slot holds a recording title. -/
def TitleSlot.isRecording (t : TitleSlot) : Bool := decide (t.kind = some .recording)

/-- A change of state that is stored, answered at the store's end (R21, R22). -/
def storeState (i : SlotIx) (r : Sector) (st : TitleState) (s : State) : State :=
  setStage .store (changeAndStore i (recRequest r) (fun t => { t with state := some st }) s)

/-- A slot starts to drain, and its command waits for IDLE (R10). -/
def drainFor (reason : DrainReason) (i : SlotIx) (s : State) : State := startDrain i reason (setStage .idle s)

end Sys2Proof.Machine
end

