-- ==== Sys2Proof/Machine/TitleCommands.lean ====
section
/-!
DEFINITION. The control commands on titles: CREATE_TITLE, OPEN_TITLE, CREATE_RING, ATTACH, SEAL, SYNC, CLOSE, DELETE,
SET_RIGHTS, RING_EMPTY, RESUME_TITLE, MOVE_BEGIN, MOVE_COMMIT, MOVE_CANCEL (R7, R8, R10, R14, R20 to R26, R33, R34, R47
to R49, R63, R64).
-/

namespace Sys2Proof.Machine

/-! ### CREATE_TITLE and OPEN_TITLE -/

/-- The fields of a CREATE_TITLE record hold values of their encodings (section 11.9). -/
def createFields (r : Sector) (_ : State) : Bool :=
  slotOk r && (classOfNat (Sector.field r 18 1)).isSome && (markOfNat (Sector.field r 19 1)).isSome &&
  (markOfNat (Sector.field r 24 1)).isSome

/-- CREATE_TITLE's own tests (R5, R6, R7). -/
def createBody : Sector → State → State :=
  withSlot fun i r s => needIdle 1 1023 (recNumber r)
    (fun i r s => if recClass r = .never then fail .badParam s else enterLoading i (recNumber r) s) i r s

/-- CREATE_TITLE (R7). -/
def execCreateTitle (s : State) : Host.Outcome State Fault Refusal :=
  act s (runControl { code := 1, authorised := true } createFields createBody)

/-- OPEN_TITLE's own tests (R5, R6, R8). -/
def openBody : Sector → State → State :=
  withSlot fun i r s => needIdle 1 1023 (recNumber r) (fun i r s => enterLoading i (recNumber r) s) i r s

/-- OPEN_TITLE (R8). -/
def execOpenTitle (s : State) : Host.Outcome State Fault Refusal := act s (runControl { code := 2 } slotField openBody)

/-! ### CREATE_RING (R14, R47 to R49) -/

def createRingFields (r : Sector) (_ : State) : Bool := slotOk r && (classOfNat (Sector.field r 18 1)).isSome

def ringLba (r : Sector) : Nat := Sector.field r 20 8
def ringSize (r : Sector) : Nat := Sector.field r 28 4
/-- The retention field of CREATE_RING and SET_RIGHTS. -/
def recRetention (r : Sector) : Nat := Sector.field r 32 4

/-- The slot of a new ring (R14, R49). -/
def ringSlot (r : Sector) (key : Key) : TitleSlot :=
  { number := some (recNumber r), phase := .active, kind := some .ring, state := some .recording,
    cls := some (recClass r), extentCount := 1, key := some key, gen := some 1, lastChanger := recRequest r,
    ring := some (newRing (ringSize r) (normRetention (recClass r) (recRetention r))) }

/-- The ring is made: its extent enters the map, its key is drawn (R14, R37, R49). -/
def makeRing (i : SlotIx) (r : Sector) (s : State) : State :=
  let e : Extent := { start := ringLba r / 8, len := ringSize r, slot := i, first := 0 }
  let s1 := (({ s with map := insertExtent e s.map }).setSlot i (ringSlot r s.freshKey)).drawn
  finishControl .ok
    (.ring (ringG (ringSize r)) (ringM (ringSize r)) (normRetention (recClass r) (recRetention r))) s1

/-- The tests of R47, in order. Test 2 is check 6. -/
def createRingTests (i : SlotIx) (r : Sector) (s : State) : State :=
  if ringSize r < 64 ∨ 4194304 < ringSize r then fail .badParam s
  else if ringLba r % 8 ≠ 0 then fail .align s
  else if s.windowUnit < ringLba r / 8 + ringSize r then fail .badParam s
  else if (meets s.map (ringLba r / 8) (ringSize r)).isSome then fail .overlap s
  else if Config.mapLimit ≤ s.map.length then fail .mapFull s
  else makeRing i r s

def createRingBody : Sector → State → State :=
  withSlot fun i r s => needIdle 1024 1031 (recNumber r) createRingTests i r s

/-- CREATE_RING (R14, R47). -/
def execCreateRing (s : State) : Host.Outcome State Fault Refusal :=
  act s (runControl { code := 3 } createRingFields createRingBody)

/-! ### ATTACH (R33, R34) -/

def attachLba (r : Sector) : Nat := Sector.field r 16 8
def attachLen (r : Sector) : Nat := Sector.field r 24 8

/-- The extent of a slot with the highest first logical unit. -/
def lastExtent (map : List Extent) (i : SlotIx) : Option Extent := (slotExtents map i).getLast?

/-- The extent that a run at unit a lengthens, if there is one (R34). -/
def grows (map : List Extent) (i : SlotIx) (a : Nat) : Option Extent :=
  match lastExtent map i with
  | some e => if e.stop = a then some e else none
  | none => none

/-- The map with a run of k units at unit a added to slot i's title, whose next unit is n (R34). -/
def addRun (map : List Extent) (i : SlotIx) (a k n : Nat) : List Extent :=
  match grows map i a with
  | some e => map.map fun x => if x = e then { x with len := x.len + k } else x
  | none => insertExtent { start := a, len := k, slot := i, first := n } map

/-- The run joins the title, and the change is stored (R34). -/
def attachRun (i : SlotIx) (r : Sector) (s : State) : State :=
  let a := attachLba r / 8
  let k := attachLen r / 8
  let new := if (grows s.map i a).isSome then 0 else 1
  let s1 := { s with map := addRun s.map i a k (s.slot i).nextUnit }
  setStage .store (changeAndStore i (recRequest r)
    (fun t => { t with nextUnit := t.nextUnit + k, extentCount := t.extentCount + new }) s1)

/-- The tests of R33, in order. -/
def attachTests (i : SlotIx) (r : Sector) (s : State) : State :=
  let t := s.slot i
  let a := attachLba r / 8
  let k := attachLen r / 8
  if t.isRecording = false then fail .state s
  else if t.state ≠ some .recording then fail .state s
  else if attachLen r < 1 ∨ s.windowBase < attachLba r + attachLen r then fail .badParam s
  else if attachLba r % 8 ≠ 0 ∨ attachLen r % 8 ≠ 0 then fail .align s
  else if Config.unitLimit < t.nextUnit + k then fail .units s
  else if (meets s.map a k).isSome then fail .overlap s
  else if (grows s.map i a).isNone ∧ Config.titleExtents ≤ t.extentCount then fail .extentsFull s
  else if (grows s.map i a).isNone ∧ Config.mapLimit ≤ s.map.length then fail .mapFull s
  else attachRun i r s

def attachBody : Sector → State → State := withSlot (needActive attachTests)

/-- ATTACH (R33, R34). -/
def execAttach (s : State) : Host.Outcome State Fault Refusal := act s (runControl { code := 4 } slotField attachBody)

/-! ### SEAL and SYNC (R23, R24) -/

def sealSlot (i : SlotIx) (r : Sector) (s : State) : State :=
  let t := s.slot i
  if t.isRecording = false then fail .state s
  else if t.state = some .recording then storeState i r .sealed s
  else if t.state = some .sealed then succeed s
  else fail .state s

/-- SEAL (R24). -/
def execSeal (s : State) : Host.Outcome State Fault Refusal :=
  act s (runControl { code := 5 } slotField (withSlot (needActive sealSlot)))

/-- SYNC waits for a store in flight, or asks for one if the slot is dirty (R23). -/
def syncSlot (i : SlotIx) (_ : Sector) (s : State) : State :=
  let t := s.slot i
  if t.isRecording = false then succeed s
  else if t.storeInFlight then setStage .store s
  else if t.dirty then setStage .store (requestStore i s)
  else succeed s

/-- SYNC (R23). -/
def execSync (s : State) : Host.Outcome State Fault Refusal :=
  act s (runControl { code := 6 } slotField (withSlot (needActive syncSlot)))

/-! ### CLOSE and DELETE (R10) -/

def closeSlot (i : SlotIx) (_ : Sector) (s : State) : State := drainFor .closed i s

/-- CLOSE (R10). -/
def execClose (s : State) : Host.Outcome State Fault Refusal :=
  act s (runControl { code := 7 } slotField (withSlot (needActive closeSlot)))

def deleteSlot (i : SlotIx) (_ : Sector) (s : State) : State := drainFor .deleted i s

/-- DELETE (R10). -/
def execDelete (s : State) : Host.Outcome State Fault Refusal :=
  act s (runControl { code := 8 } slotField (withSlot (needActive deleteSlot)))

/-! ### SET_RIGHTS (R25, R63) -/

def rightsFields (r : Sector) (_ : State) : Bool :=
  slotOk r && (classOfNat (Sector.field r 18 1)).isSome && (markOfNat (Sector.field r 19 1)).isSome

/-- The rights of a recording (R25), with the expiry test of R9. -/
def recordingRights (i : SlotIx) (r : Sector) (s : State) : State :=
  if recClass r = .never then fail .badParam s
  else if (s.slot i).state = some .moving then fail .state s
  else expireSlot i (setStage .store (changeAndStore i (recRequest r)
    (fun t => { t with cls := some (recClass r), expiry := recExpiry r }) s))

/-- A written segment's stamp is lowered to a retention other than 0 (R63). -/
def Segment.tighten (x : Nat) (g : Segment) : Segment :=
  if x ≠ 0 ∧ g.lap ≠ 0 ∧ (g.stamp = 0 ∨ x < g.stamp) then { g with stamp := x } else g

def Ring.tighten (x : Nat) (g : Ring) : Ring := { g with retention := x, segs := g.segs.map (Segment.tighten x) }

/-- The rights of a ring (R63). -/
def ringRights (i : SlotIx) (r : Sector) (s : State) : State :=
  if Sector.field r 19 1 ≠ 0 then fail .badParam s
  else
    let x := normRetention (recClass r) (recRetention r)
    finishControl .ok (.retention x) (s.modSlot i fun t =>
      { t with cls := some (recClass r), ring := t.ring.map (Ring.tighten x), lastChanger := recRequest r })

def rightsSlot (i : SlotIx) (r : Sector) (s : State) : State :=
  if (s.slot i).isRecording then recordingRights i r s else ringRights i r s

/-- SET_RIGHTS (R25, R63). -/
def execSetRights (s : State) : Host.Outcome State Fault Refusal :=
  act s (runControl { code := 9, authorised := true } rightsFields (withSlot (needActive rightsSlot)))

/-! ### RING_EMPTY and RESUME_TITLE (R20, R64) -/

/-- An emptied ring: no head, every entry unwritten, the lap counter kept (R64). -/
def Ring.emptied (g : Ring) : Ring := { g.clearSegs with head := none }

def ringEmptySlot (i : SlotIx) (r : Sector) (s : State) : State :=
  if (s.slot i).isRecording then fail .state s
  else succeed (s.modSlot i fun t => { t with ring := t.ring.map Ring.emptied, lastChanger := recRequest r })

/-- RING_EMPTY (R64). -/
def execRingEmpty (s : State) : Host.Outcome State Fault Refusal :=
  act s (runControl { code := 10 } slotField (withSlot (needActive ringEmptySlot)))

def resumeSlot (i : SlotIx) (_ : Sector) (s : State) : State :=
  succeed (s.modSlot i fun t => { t with halted := false })

/-- RESUME_TITLE (R20). -/
def execResumeTitle (s : State) : Host.Outcome State Fault Refusal :=
  act s (runControl { code := 11 } slotField (withSlot (needActive resumeSlot)))

/-! ### The move (R26) -/

def moveBeginSlot (i : SlotIx) (r : Sector) (s : State) : State :=
  let t := s.slot i
  if t.isRecording ∧ t.state = some .sealed ∧ t.cls = some .once then storeState i r .moving s else fail .state s

/-- MOVE_BEGIN (R26). -/
def execMoveBegin (s : State) : Host.Outcome State Fault Refusal :=
  act s (runControl { code := 12, authorised := true } slotField (withSlot (needActive moveBeginSlot)))

def moveCommitSlot (i : SlotIx) (_ : Sector) (s : State) : State :=
  let t := s.slot i
  if t.isRecording ∧ t.state = some .moving then drainFor .moved i s else fail .state s

/-- MOVE_COMMIT (R26). -/
def execMoveCommit (s : State) : Host.Outcome State Fault Refusal :=
  act s (runControl { code := 13, authorised := true } slotField (withSlot (needActive moveCommitSlot)))

def moveCancelSlot (i : SlotIx) (r : Sector) (s : State) : State :=
  let t := s.slot i
  if t.isRecording ∧ t.state = some .moving then storeState i r .sealed s else fail .state s

/-- MOVE_CANCEL (R26). -/
def execMoveCancel (s : State) : Host.Outcome State Fault Refusal :=
  act s (runControl { code := 14 } slotField (withSlot (needActive moveCancelSlot)))

end Sys2Proof.Machine
end

