-- ==== Sys2Proof/Machine/PartCommands.lean ====
section
/-!
DEFINITION. The control commands on the part as a whole: SET_CLOCK, SET_POLICY, CLEAR_EVENTS, RESUME, FORMAT, SWEEP
(R161, R162, R168, R180, R184, R188, R203).
-/

namespace Sys2Proof.Machine

/-! ### SET_CLOCK (R168) -/

/-- The value that a SET_CLOCK record gives, after the cap. -/
def clockValue (r : Sector) : Nat := min Config.maxCount32 (Sector.field r 16 8)

/-- The clock after a set, and whether the set was held. -/
def setTo (v : Nat) : Option Nat → Nat × Bool
  | none => (v, false)
  | some c => if v < c then (c, true) else (v, false)

def setClockBody (r : Sector) (s : State) : State :=
  let now := setTo (clockValue r) s.clock
  let s1 := { s with clock := some now.1 }
  finishControl .ok (.clock now.1 now.2 s.clock.isNone s1.expiring) (expiryTest s1)

/-- SET_CLOCK (R168). -/
def execSetClock (s : State) : Host.Outcome State Fault Refusal :=
  act s (runControl { code := 15, authorised := true, inUnformatted := true, inLockdown := true } noFields setClockBody)

/-! ### SET_POLICY (R180, R203) -/

/-- The ten reactions that a record gives, KEEP as they stand (R180). -/
def recReaction (r : Sector) (m : Monitor) (k : Fin 10) : Option Reaction :=
  reactionOfNat m.reactions[k] (Sector.field r (20 + k.val) 1)

/-- The fields of a SET_POLICY record hold values of their encodings. -/
def policyFields (r : Sector) (s : State) : Bool :=
  (settingOfNat s.win.readPolicy (Sector.field r 16 1)).isSome &&
  (settingOfNat s.win.writePolicy (Sector.field r 17 1)).isSome &&
  (settingOfNat s.win.deallocatePolicy (Sector.field r 18 1)).isSome &&
  (ceilingOfNat s.buffer.ceiling (Sector.field r 19 1)).isSome &&
  (List.finRange 10).all fun k => (recReaction r s.mon k).isSome

/-- A raised ceiling starts an arbitration (R122). -/
def setCeiling (c : Nat) (s : State) : State :=
  let s1 := { s with buffer := { s.buffer with ceiling := c } }
  if s.buffer.ceiling < c then arbitrate s1 else s1

def policyBody (r : Sector) (s : State) : State :=
  let len := windowOfNat s.mon.window (Sector.field r 32 4)
  let s1 := { s with
    win := { s.win with
      readPolicy := (settingOfNat s.win.readPolicy (Sector.field r 16 1)).getD s.win.readPolicy
      writePolicy := (settingOfNat s.win.writePolicy (Sector.field r 17 1)).getD s.win.writePolicy
      deallocatePolicy := (settingOfNat s.win.deallocatePolicy (Sector.field r 18 1)).getD s.win.deallocatePolicy }
    mon := { s.mon with
      reactions := Vector.ofFn fun k => (recReaction r s.mon k).getD s.mon.reactions[k]
      window := len } }
  finishControl .ok (.window len)
    (setCeiling ((ceilingOfNat s.buffer.ceiling (Sector.field r 19 1)).getD s.buffer.ceiling) s1)

/-- SET_POLICY (R203). -/
def execSetPolicy (s : State) : Host.Outcome State Fault Refusal :=
  act s (runControl { code := 16, authorised := true, inUnformatted := true } policyFields policyBody)

/-! ### CLEAR_EVENTS and RESUME (R184, R188) -/

def recEventMask (r : Sector) : BitVec 8 := BitVec.ofNat 8 (Sector.field r 16 2)
def recKindMask (r : Sector) : BitVec 10 := BitVec.ofNat 10 (Sector.field r 18 2)

/-- The monitor deals with the kind mask (R184). -/
def Monitor.acknowledge (kinds : BitVec 10) (m : Monitor) : Monitor :=
  match m.state with
  | .alarm =>
    if m.alarmed &&& ~~~kinds = 0#10 then { m with state := .normal, alarmed := 0#10, deadline := none }
    else { m with alarmed := m.alarmed &&& ~~~kinds }
  | .normal | .lockdown => m

/-- The named flags are cleared, but for ALARM while the monitor is still in ALARM (R184). -/
def clearFlags (events : BitVec 8) (s : State) : State :=
  let keep : BitVec 8 := if s.mon.state = .alarm then EventFlag.alarm.bit else 0#8
  { s with win := { s.win with flags := s.win.flags &&& (~~~events ||| keep) } }

def clearEventsBody (r : Sector) (s : State) : State :=
  let late := decide (s.mon.state = .lockdown) && decide (recKindMask r ≠ 0#10)
  let s1 := clearFlags (recEventMask r) { s with mon := s.mon.acknowledge (recKindMask r) }
  finishControl (if late then .late else .ok) (.monitor s1.mon.state s1.mon.alarmed) s1

/-- CLEAR_EVENTS (R184). -/
def execClearEvents (s : State) : Host.Outcome State Fault Refusal :=
  act s (runControl { code := 17, inUnformatted := true, inLockdown := true } noFields clearEventsBody)

/-- The monitor returns to NORMAL (R188). -/
def Monitor.resumed (m : Monitor) : Monitor :=
  match m.state with
  | .normal => m
  | .alarm | .lockdown => { m with state := .normal, alarmed := 0#10, deadline := none }

def resumeBody (_ : Sector) (s : State) : State :=
  finishControl .ok (.monitor s.mon.state s.mon.alarmed) { s with mon := s.mon.resumed }

/-- RESUME (R188). -/
def execResume (s : State) : Host.Outcome State Fault Refusal :=
  act s (runControl { code := 18, authorised := true, inUnformatted := true, inLockdown := true } noFields resumeBody)

/-! ### FORMAT and SWEEP (R161, R162) -/

/-- Some slot holds a recording title (R161). -/
def State.holdsRecording (s : State) : Bool :=
  allSlots.any fun i => decide ((s.slot i).phase ≠ .idle) && (s.slot i).isRecording

/-- The epoch that a FORMAT chooses (R161). -/
def State.newEpoch (s : State) : Nat :=
  match s.cat.header with
  | .valid e => nextNumber Config.maxCount16 e
  | .absent | .unreadable | .foreign | .unknown => s.freshEpoch

/-- A drawn epoch is a value of the key generator (R133, R161). -/
def drawEpoch (s : State) : State :=
  match s.cat.header with
  | .valid _ => s
  | .absent | .unreadable | .foreign | .unknown => s.drawn

/-- The new header is written (R152, R161). -/
def writeHeader (s : State) : State :=
  requestOp (.headerWrite s.newEpoch) .header none (takeClaim 0 .header (setStage .header (drawEpoch s)))

def formatBody (_ : Sector) (s : State) : State :=
  if s.holdsRecording then fail .state s
  else if s.cat.sweeping then fail .busy s
  else writeHeader s

/-- FORMAT (R161). -/
def execFormat (s : State) : Host.Outcome State Fault Refusal :=
  act s (runControl { code := 19, authorised := true, inUnformatted := true } noFields formatBody)

/-- The header copy is VALID. -/
def State.headerValid (s : State) : Bool :=
  match s.cat.header with
  | .valid _ => true
  | .absent | .unreadable | .foreign | .unknown => false

/-- The sweep starts at index 1 (R162, R163). -/
def startSweep (s : State) : State :=
  sweepTo 1023 1 { s with cat := { s.cat with sweeping := true, erased := 0 } }

def sweepBody (_ : Sector) (s : State) : State :=
  if s.headerValid = false then fail .unformatted s
  else if s.clock = none then fail .clockUnset s
  else if s.cat.sweeping then fail .busy s
  else startSweep (succeed s)

/-- SWEEP (R162). -/
def execSweep (s : State) : Host.Outcome State Fault Refusal :=
  act s (runControl { code := 20 } noFields sweepBody)

end Sys2Proof.Machine
end

