-- ==== Sys2Proof/Machine/Dispatch.lean ====
section
/-! DEFINITION. The meaning of each command of the table: one arm per constructor, each one direct call. -/

namespace Sys2Proof.Machine

/-- The effect of a command on everything but the queue. -/
def exec (i : Instr) (s : State) : Host.Outcome State Fault Refusal :=
  match i with
  | .hardReset => Sys2Proof.Machine.execHardReset s
  | .resetRelease => Sys2Proof.Machine.execResetRelease s
  | .hostLinkReset => Sys2Proof.Machine.execHostLinkReset s
  | .driveIdentity answer => Sys2Proof.Machine.execDriveIdentity answer s
  | .startUpLimit => Sys2Proof.Machine.execStartUpLimit s
  | .tick => Sys2Proof.Machine.execTick s
  | .windowDeadline => Sys2Proof.Machine.execWindowDeadline s
  | .serviceTimer t => Sys2Proof.Machine.execServiceTimer t s
  | .driveLinkResetEnd => Sys2Proof.Machine.execDriveLinkResetEnd s
  | .linkResetNoAnswer => Sys2Proof.Machine.execLinkResetNoAnswer s
  | .holdLimit => Sys2Proof.Machine.execHoldLimit s
  | .driveError t lba => Sys2Proof.Machine.execDriveError t lba s
  | .errorRecordRead => Sys2Proof.Machine.execErrorRecordRead s
  | .errorRecordTimeout => Sys2Proof.Machine.execErrorRecordTimeout s
  | .driveIssue => Sys2Proof.Machine.execDriveIssue s
  | .hostRead t lba count => Sys2Proof.Machine.execHostRead t lba count s
  | .hostWrite t lba count => Sys2Proof.Machine.execHostWrite t lba count s
  | .deallocate t => Sys2Proof.Machine.execDeallocate t s
  | .deallocateRangeSector ranges => Sys2Proof.Machine.execDeallocateRangeSector ranges s
  | .flush t => Sys2Proof.Machine.execFlush t s
  | .identify t => Sys2Proof.Machine.execIdentify t s
  | .pass t words data => Sys2Proof.Machine.execPass t words data s
  | .capacityRefusedCommand t range => Sys2Proof.Machine.execCapacityRefusedCommand t range s
  | .drivePushUnit t => Sys2Proof.Machine.execDrivePushUnit t s
  | .unitReceived data => Sys2Proof.Machine.execUnitReceived data s
  | .readRunComplete t => Sys2Proof.Machine.execReadRunComplete t s
  | .mergeReadComplete t => Sys2Proof.Machine.execMergeReadComplete t s
  | .writeRunComplete t => Sys2Proof.Machine.execWriteRunComplete t s
  | .driveFlushComplete t good => Sys2Proof.Machine.execDriveFlushComplete t good s
  | .deallocateComplete t good => Sys2Proof.Machine.execDeallocateComplete t good s
  | .passComplete t good => Sys2Proof.Machine.execPassComplete t good s
  | .drivePullUnit t => Sys2Proof.Machine.execDrivePullUnit t s
  | .unitPulled => Sys2Proof.Machine.execUnitPulled s
  | .unitTaken data => Sys2Proof.Machine.execUnitTaken data s
  | .unitDelivered => Sys2Proof.Machine.execUnitDelivered s
  | .hostTransferEnd => Sys2Proof.Machine.execHostTransferEnd s
  | .jobEnd l => Sys2Proof.Machine.execJobEnd l s
  | .serviceReadComplete t unit => Sys2Proof.Machine.execServiceReadComplete t unit s
  | .serviceWriteComplete t good => Sys2Proof.Machine.execServiceWriteComplete t good s
  | .controlTurn => Sys2Proof.Machine.execControlTurn s
  | .unknownCommandCode => Sys2Proof.Machine.execUnknownCommandCode s
  | .createTitle => Sys2Proof.Machine.execCreateTitle s
  | .openTitle => Sys2Proof.Machine.execOpenTitle s
  | .createRing => Sys2Proof.Machine.execCreateRing s
  | .attach => Sys2Proof.Machine.execAttach s
  | .sealTitle => Sys2Proof.Machine.execSeal s
  | .sync => Sys2Proof.Machine.execSync s
  | .close => Sys2Proof.Machine.execClose s
  | .delete => Sys2Proof.Machine.execDelete s
  | .setRights => Sys2Proof.Machine.execSetRights s
  | .ringEmpty => Sys2Proof.Machine.execRingEmpty s
  | .resumeTitle => Sys2Proof.Machine.execResumeTitle s
  | .moveBegin => Sys2Proof.Machine.execMoveBegin s
  | .moveCommit => Sys2Proof.Machine.execMoveCommit s
  | .moveCancel => Sys2Proof.Machine.execMoveCancel s
  | .setClock => Sys2Proof.Machine.execSetClock s
  | .setPolicy => Sys2Proof.Machine.execSetPolicy s
  | .clearEvents => Sys2Proof.Machine.execClearEvents s
  | .resume => Sys2Proof.Machine.execResume s
  | .format => Sys2Proof.Machine.execFormat s
  | .sweep => Sys2Proof.Machine.execSweep s
  | .hostLinkReturn => Sys2Proof.Machine.execHostLinkReturn s

end Sys2Proof.Machine
end

