-- ==== Sys2Proof/Safety.lean ====
section
/-!
DEFINITION. What statements about runs speak of: what a host has been told of a command, when the host port has nothing
to send, and the invariants of the blocks (R6, R13, R30, R53, R71, R73, R114, R166, R177).
-/

namespace Sys2Proof.Machine

/-! ### Completions (R86, R127) -/

/-- No completion can go out now: none is due, or a transfer is in progress on the host link (R127). -/
def State.noneToSend (s : State) : Prop := s.host.due = [] ∨ s.host.between = false

/-- A completion has been given: it is due, or this step has sent it (R127). -/
def State.told (s : State) (c : Completion) : Prop := c ∈ s.host.due ∨ .completion c ∈ s.out

/-- A command has completed GOOD: its completion is due and its slot in ENDING, or the completion has been sent and the
slot is FREE (R72, R86). -/
def State.endedGood (s : State) (t : HostTag) : Prop :=
  (({ tag := t, ending := .good } : Completion) ∈ s.host.due ∧ ∃ c ∈ s.table, c.tag = t ∧ c.state = .ending) ∨
  (.completion { tag := t, ending := .good } ∈ s.out ∧ s.cmd? t = none)

/-! ### The control window (R193, R195 to R197) -/

/-- The record r, of the CONTROL_WRITE with tag t, has been handed to the window and is to be checked (R193). -/
def State.handed (s : State) (t : Option HostTag) (r : Sector) : Prop :=
  s.win.executing = some { tag := t, record := r, stage := .handed }

/-- A record that passes checks 2 and 3 (R195). -/
def State.authentic (s : State) (r : Sector) : Prop :=
  recNonce r = s.win.nonce ∧ recAuth r = Config.authCode (recCovered r)

/-- The reply in the reply sector answers record r with a result and details (R198). -/
def State.replied (s : State) (r : Sector) (x : Result) (d : Details) : Prop :=
  ∃ p, s.win.reply = some p ∧ p.request = recRequest r ∧ p.code = recCode r ∧ p.slot = recSlot r ∧ p.result = x ∧
    p.nonce = s.win.nonce ∧ p.details = d

/-- The window waits with record r at a stage (R193). -/
def State.waiting (s : State) (t : Option HostTag) (r : Sector) (st : Stage) : Prop :=
  s.win.executing = some { tag := t, record := r, stage := st }

/-- The eight authorised commands (R194). -/
def authorisedCommands : List Instr :=
  [.createTitle, .setRights, .moveBegin, .moveCommit, .setClock, .setPolicy, .resume, .format]

/-! ### What statements about one command speak of -/

/-- The arrival that a command of the host is (R69). -/
def arrivalOf : Instr → Option Arrival
  | .hostRead t lba count => some (.read t lba count)
  | .hostWrite t lba count => some (.write t lba count)
  | .deallocate t => some (.deallocate t)
  | .flush t => some (.flush t)
  | .identify t => some (.identify t)
  | .pass t words data => some (.pass t words data)
  | .capacityRefusedCommand t range => some (.other t range)
  | _ => none

/-- The host port hands an arriving command to the command table at once (R69, R88, R205). -/
structure State.TakesHost (s : State) : Prop where
  running : s.inReset = false
  up : s.host.up = true
  started : s.phase ≠ .starting
  free : s.host.rangeSector = none

/-- A host command of tag t with a range is refused in going from s to u (R77, R189): its completion is due, the
last-refusal record is written, and the counter of the reason's violation goes up. Slots keep all but their halted flag,
the window all but its event flags, and the rest of the part is as it was. -/
structure State.Refuses (s u : State) (t : HostTag) (lba count : Nat) (r : Reason) : Prop where
  due : u.host = { s.host with due := s.host.due ++ [{ tag := t, ending := .refused }] }
  record : u.mon.refusal = some { tag := t, lba := lba, count := count, reason := r, number := s.nextRefusal }
  counted : ∀ k : Fin 10, u.mon.counters[k] =
    if r.violation.map Violation.ix = some k then min 65535 (s.mon.counters[k] + 1) else s.mon.counters[k]
  settings : u.mon.reactions = s.mon.reactions ∧ u.mon.window = s.mon.window
  slots : ∀ i, u.slot i = { s.slot i with halted := (u.slot i).halted }
  window : u.win = { s.win with flags := u.win.flags }
  rest : u = { s with host := u.host, mon := u.mon, slots := u.slots, win := u.win }

/-- The work of the command of a tag is over (R92, R126, R139): it has no drive command, job, frame or request. -/
structure State.WorkOver (u : State) (t : HostTag) : Prop where
  frames : u.framesHeld t = 0
  requests : ∀ q ∈ u.buffer.requests, q.tag ≠ t
  drive : (∀ d ∈ u.drive.queue, d.who ≠ .host t) ∧ ∀ d ∈ u.drive.outstanding, d.who ≠ .host t
  jobs : (∀ j ∈ u.lanes.jobs, j.owner ≠ .host t) ∧ ∀ l x, u.lanes.lane l = some x → x.job.owner ≠ .host t

/-- The next n sectors of the unit in frame f, of the WINDOW_READ c in the transfer x, are produced in going from s to u, as
the window stands in s (R82). -/
structure State.Produces (s u : State) (x : HostXfer) (c : Cmd) (f : Frame) (n : Nat) : Prop where
  few : n ≤ c.hostHi f.unit + 1 - c.hostLo f.unit - x.made
  frame : ∃ data : UnitData, u.frame? f.num = some { f with data := data } ∧ ∀ p : Fin 8,
    data[p] = if c.hostLo f.unit + x.made ≤ p.val ∧ p.val < c.hostLo f.unit + x.made + n
      then s.windowSector (8 * f.unit + p.val) else f.data[p]
  rest : u = { s with
    host := { s.host with xfer := some { x with made := x.made + n } }, buffer := u.buffer, freeReads := s.freeReads + 1 }
  buffer : u.buffer = { s.buffer with frames := u.buffer.frames } ∧ ∀ k, k ≠ f.num → u.frame? k = s.frame? k

/-- The drive link has been reset in going from s to u (R92, R93, R119): nothing is outstanding, held or in transfer, and
the work of every host command that had a drive command outstanding is over, its completion due with the device-error
indication, and so is that of one whose error record had not been read; its entry and its pieces stand until the
completion is sent (R19, R107, notes/assumptions/35.md). Every other command is at work as before. -/
structure State.LinkReset (s u : State) : Prop where
  link : u.drive.link = .resetting
  sent : .driveLinkReset ∈ u.out
  nothing : u.drive.outstanding = [] ∧ u.drive.errorRead = false ∧ u.drive.failing = none ∧ u.drive.hold = none ∧
    u.drive.xfer = none
  unread : ∀ c, s.drive.failing = some c → ({ c with ending := .deviceError } : Completion) ∈ u.host.due
  ended : ∀ t c, s.cmd? t = some c → (s.driveCmdOf t).isSome = true → u.cmd? t = none ∧ u.WorkOver t ∧
    ({ tag := t, ending := .deviceError } : Completion) ∈ u.host.due ∧
    ∃ d ∈ u.table, d.tag = t ∧ d.state = .failed ∧ d.pieces = c.pieces
  slots : u.slots = s.slots
  kept : ∀ t c, s.cmd? t = some c → s.driveCmdOf t = none → (u.cmd? t).isSome = true
  monitor : u.mon = s.mon ∧ u.clock = s.clock ∧ u.phase = s.phase

/-- The record r with this code, of the CONTROL_WRITE with this tag, is in hand and the part out of reset (R193). -/
structure State.InHand (s : State) (tag : Option HostTag) (r : Sector) (code : Nat) : Prop where
  running : s.inReset = false
  handed : s.handed tag r
  code : recCode r = code

/-- The command of record r finishes in going from s to u (R193, R198): the window is idle, the reply written, and the
completion GOOD of its CONTROL_WRITE due, its slot in ENDING. The rest of the part is as it was. -/
structure State.Answered (s u : State) (tag : Option HostTag) (r : Sector) (x : Result) (d : Details) : Prop where
  window : u.win = { s.win with
    executing := none
    reply := some { request := recRequest r, code := recCode r, slot := recSlot r, result := x, nonce := s.win.nonce,
                    number := s.nextReply, details := d } }
  due : u.host = { s.host with due := s.host.due ++ tag.toList.map fun t => { tag := t, ending := .good } }
  ending : u.table = s.table.map fun c => if tag = some c.tag then { c with state := .ending } else c
  rest : u = { s with win := u.win, host := u.host, table := u.table }

/-- An operation of this kind and owner waits in the service queue or is in flight (R149). -/
def State.asks (s : State) (k : SvcKind) (o : SvcOwner) : Prop :=
  (∃ op ∈ s.cat.queue, op.kind = k ∧ op.owner = o) ∨ ∃ f ∈ s.cat.flights, f.op.kind = k ∧ f.op.owner = o

/-- Nothing but the work of the catalogue controller up to the drive lies between s and u (R149 to R151). -/
structure State.ServiceWork (s u : State) : Prop where
  rest : u = { s with cat := u.cat, drive := u.drive, lanes := u.lanes, stamp := u.stamp }
  drive : u.drive = { s.drive with queue := u.drive.queue }
  cat : u.cat = { s.cat with queue := u.cat.queue, flights := u.cat.flights, claims := u.cat.claims }

/-- The state of an accepted authorised command: the nonce has been replaced (R195, R196). -/
def State.accepted (s : State) : State :=
  { s with out := [], win := { s.win with nonce := Config.nonce s.draws }, draws := s.draws + 1 }

/-- The twenty control commands with their columns of R194 and codes of section 11.9. -/
def controlRows : List (Instr × ControlRow) :=
  [(.createTitle, { code := 1, authorised := true }), (.openTitle, { code := 2 }), (.createRing, { code := 3 }),
   (.attach, { code := 4 }), (.sealTitle, { code := 5 }), (.sync, { code := 6 }), (.close, { code := 7 }),
   (.delete, { code := 8 }), (.setRights, { code := 9, authorised := true }), (.ringEmpty, { code := 10 }),
   (.resumeTitle, { code := 11 }), (.moveBegin, { code := 12, authorised := true }),
   (.moveCommit, { code := 13, authorised := true }), (.moveCancel, { code := 14 }),
   (.setClock, { code := 15, authorised := true, inUnformatted := true, inLockdown := true }),
   (.setPolicy, { code := 16, authorised := true, inUnformatted := true }),
   (.clearEvents, { code := 17, inUnformatted := true, inLockdown := true }),
   (.resume, { code := 18, authorised := true, inUnformatted := true, inLockdown := true }),
   (.format, { code := 19, authorised := true, inUnformatted := true }), (.sweep, { code := 20 })]

/-- Checks 1 to 5 of R195 pass for the record r in hand. -/
structure State.Passes (s : State) (row : ControlRow) (tag : Option HostTag) (r : Sector) : Prop
    extends s.InHand tag r row.code where
  authentic : row.authorised = true → s.authentic r
  monitor : row.inLockdown = false → s.mon.state ≠ .lockdown
  phase : row.inUnformatted = false → s.phase = .ready

/-- The state on which a command that has passed these checks acts: an authorised one has replaced the nonce (R196). -/
def State.base (s : State) (row : ControlRow) : State := if row.authorised then s.accepted else { s with out := [] }

/-- The state with the command in hand waiting at a stage (R193). -/
def State.staged (s : State) (tag : Option HostTag) (r : Sector) (st : Stage) : State :=
  { s with win := { s.win with executing := some { tag := tag, record := r, stage := st } } }

/-- A job waits or runs (R134, R135). Its bypass count apart, it is the given one. -/
def State.hasJob (s : State) (frame : Nat) (d : JobDir) (src : KeySource) (tw : Tweak) (o : Owner) (c : Class) : Prop :=
  ∃ j : Job, (j ∈ s.lanes.jobs ∨ ∃ l x, s.lanes.lane l = some x ∧ x.job = j) ∧
    j.frame = frame ∧ j.dir = d ∧ j.source = src ∧ j.tweak = tw ∧ j.owner = o ∧ j.cls = c

/-- The owner fields of the pieces on slot i (R44). -/
def ownedOn (ps : List Piece) (i : SlotIx) : List Owned := (ps.filterMap (·.owned)).filter fun o => decide (o.slot = i)

/-- A retired key once these pieces of its slot have ended: its count falls by those that reference its generation, and at
0 the key is gone (R16, R19). -/
def retiredAfter (r : Option Retired) (os : List Owned) : Option Retired :=
  r.bind fun x =>
    let k := (os.filter fun o => decide (o.gen = x.gen)).length
    if k = 0 then some x else if x.refs ≤ k then none else some { x with refs := x.refs - k }

/-- A slot once these pieces on it have ended (R16, R19). -/
def TitleSlot.afterPieces (t : TitleSlot) (os : List Owned) : TitleSlot :=
  { t with inFlight := t.inFlight - os.length, retired := retiredAfter t.retired os }

/-- A command ends in going from s to u (R19, R104, R107): it is out of the table and its pieces have ended; every other
command is still there. A slot in DRAINING makes its test at each end of a piece (R11), so that it may have left. -/
structure State.CommandEnded (s u : State) (c : Cmd) : Prop where
  gone : ∀ d ∈ u.table, d.tag ≠ c.tag
  others : ∀ d ∈ s.table, d.tag ≠ c.tag → ∃ k ∈ u.table, k.tag = d.tag
  slots : ∀ i, (s.slot i).phase ≠ .draining → u.slot i = (s.slot i).afterPieces (ownedOn c.pieces i)

/-- The pieces of the sectors x0 … stop − 1 in LBA order, cut at the bounds of extents; a cut into more than four shows its
first five (R43). -/
structure CutInto (map : List Extent) (x0 stop : Nat) (ps : List Piece) : Prop where
  first : ∃ p, ps.head? = some p ∧ p.lba = x0
  few : ps.length ≤ 5
  whole : ps.length ≤ 4 → ∃ p, ps.getLast? = some p ∧ p.lba + p.count = stop
  row : ps.IsChain fun p q => q.lba = p.lba + p.count
  inside : ∀ p ∈ ps, 1 ≤ p.count ∧ p.lba + p.count ≤ stop ∧ match p.owned with
    | some o => ∃ e ∈ map, o.slot = e.slot ∧ o.extStart = e.start ∧ o.first = e.first ∧
        8 * e.start ≤ p.lba ∧ p.lba + p.count ≤ 8 * e.stop ∧ (p.lba + p.count = 8 * e.stop ∨ p.lba + p.count = stop)
    | none => (∀ e ∈ map, 8 * e.stop ≤ p.lba ∨ p.lba + p.count ≤ 8 * e.start) ∧
        ((∃ e ∈ map, p.lba + p.count = 8 * e.start) ∨ p.lba + p.count = stop)

/-- The piece as an admitted command holds it: under its slot's title number and current key generation (R16, R44). -/
def State.taken (s : State) (p : Piece) : Piece :=
  { p with owned := p.owned.map fun o =>
      { o with title := (s.slot o.slot).number.getD 0, gen := (s.slot o.slot).gen.getD 0 } }

/-- The first and the end sector of what a READ or WRITE with these pieces moves at the drive: whole units of a protected
piece, an unclaimed one as it is (R79). -/
def driveSpan (ps : List Piece) : Nat × Nat :=
  (match ps.head? with
    | some p => if p.owned.isSome then 8 * (p.lba / 8) else p.lba
    | none => 0,
   match ps.getLast? with
    | some p => if p.owned.isSome then 8 * ((p.lba + p.count - 1) / 8) + 8 else p.lba + p.count
    | none => 0)

/-- The runs of the sectors lo … hi − 1: one, or two where they are more than 65,536 (R79). -/
def runsOver (lo hi : Nat) : List Range :=
  if hi - lo ≤ 65536 then [{ lba := lo, len := hi - lo }]
  else [{ lba := lo, len := 65536 }, { lba := lo + 65536, len := hi - lo - 65536 }]

/-- Some protected unit of these pieces is in a range of an earlier command's overlap entry (R105). -/
def piecesMeet (ps : List Piece) (r : Nat × Nat) : Prop :=
  ∃ p ∈ ps, p.owned.isSome = true ∧ r.1 ≤ (p.lba + p.count - 1) / 8 ∧ p.lba / 8 ≤ r.2

/-! ### The ends of service operations -/

/-- The control command that waits at a stage on slot k in s, if one does, is answered in going to u (R193). -/
def State.Answers (s u : State) (st : Stage) (k : SlotIx) (x : Result) (d : Details) : Prop :=
  ∀ tag r, s.waiting tag r st → recSlot r = k.val → u.win.executing = none ∧ u.replied r x d ∧
    ∀ t, tag = some t → ({ tag := t, ending := .good } : Completion) ∈ u.host.due

/-- A record is formed for flight f in going from s to u, and its encrypt job submitted under the root key (R134, R151). -/
structure State.FormsRecord (s u : State) (f : Flight) (unit : DiskUnit) (tw : Tweak) : Prop where
  content : u.flight? f.tag = some { f with content := .formed unit }
  job : u.hasJob f.tag.val .encrypt .root tw (.service f.tag) .service
  rest : u = { s with cat := u.cat, lanes := u.lanes }
  cat : u.cat = { s.cat with flights := u.cat.flights, claims := u.cat.claims }

/-- The generation that the next write at index i takes (R147). -/
def State.nextGen (s : State) (i : Nat) : Nat :=
  match s.knownGen i with
  | none => 1
  | some g => if 4294967295 ≤ g then 1 else g + 1

/-- The title record of index i with these fields, sealed under its own generation (R145, R147). -/
def recordUnit (s : State) (i : Nat) (x : TitleFields) : DiskUnit :=
  let clear : TitleClear := { marker := true, epoch := s.epoch, index := i, gen := s.nextGen i }
  .title clear { ours := true, tweak := { title := 0, seq := s.nextGen i, unit := i }, fields := x,
                 check := { clear := clear, fields := x } }

/-- The sealed fields of a store of slot k: the slot's own, with the extents kept for it or those of the map (R153). -/
structure StoredFields (t : TitleSlot) (es : List RecExtent) (x : TitleFields) : Prop where
  state : (t.state = some .recording → x.state = .recording) ∧ (t.state = some .sealed → x.state = .sealed) ∧
    (t.state = some .moving → x.state = .moving)
  cls : ∀ c, t.cls = some c → x.cls = c
  rest : x.expiry = t.expiry ∧ x.nextUnit = t.nextUnit ∧ x.key = t.key ∧ x.lastChanger = t.lastChanger
  extents : x.extents = es

/-- The sweep leaves index i in going from s to u (R152, R163): it is at the next index that no slot claims, whose load is
requested, or at its end; a slot that waits in LOADING for the index has its claim and its load. -/
structure State.SweepGoesOn (s u : State) (i : Nat) : Prop where
  next : ∀ j, i < j → j ≤ 1023 → (∀ m, i < m → m < j → s.slotClaims m = true) →
    (∀ c ∈ s.cat.claims, c.index = j → ∀ k, c.owner ≠ .slot k) →
    u.cat.progress = j ∧ u.cat.sweeping = s.cat.sweeping ∧ u.asks (.load j) .sweep ∧
      ∃ c ∈ u.cat.claims, c.index = j ∧ c.owner = .sweep
  last : (∀ m, i < m → m ≤ 1023 → s.slotClaims m = true) →
    u.cat.sweeping = false ∧ u.cat.progress = 0 ∧ u.hasFlag .sweepDone = true
  handed : ∀ k, (s.slot k).phase = .loading → (s.slot k).number = some i →
    (∀ m, m < k → ¬ ((s.slot m).phase = .loading ∧ (s.slot m).number = some i)) →
    (∀ c ∈ s.cat.claims, c.index = i → c.owner = .sweep) →
    u.asks (.load i) (.slot k) ∧ ∃ c ∈ u.cat.claims, c.index = i ∧ c.owner = .slot k
  slots : u.slots = s.slots ∧ u.map = s.map

/-- A damaged record or an unreadable header is counted, and its flag set (R144, R146, R179). -/
def State.CountsDamage (s u : State) : Prop :=
  u.mon.counters[(9 : Fin 10)] = min 65535 (s.mon.counters[(9 : Fin 10)] + 1) ∧ u.hasFlag .catalogueDamaged = true

/-- The operation of flight f fails in going from s to u (R7, R8, R12, R22, R144, R156, R158, R161, R163). -/
structure State.OpFails (s u : State) (f : Flight) : Prop where
  load : ∀ i k, f.op.kind = .load i → f.op.owner = .slot k → (s.slot k).phase = .loading →
    u.slot k = TitleSlot.empty ∧ s.Answers u .load k .drive .none
  flag : (∃ i, f.op.kind = .store i ∨ f.op.kind = .erase i) → u.hasFlag .storeFailed = true
  store : ∀ i k, f.op.kind = .store i → f.op.owner = .slot k →
    ((s.slot k).phase = .active ∨ ((s.slot k).phase = .draining ∧ (s.slot k).inFlight ≠ 0) →
      u.slot k = { s.slot k with storeInFlight := false } ∧ s.Answers u .store k .drive .none) ∧
    ((s.slot k).phase = .draining → (s.slot k).inFlight = 0 →
      (u.slot k).phase ≠ .draining ∧ ∀ e ∈ u.map, e.slot ≠ k) ∧
    ((s.slot k).phase = .loading → u.slot k = TitleSlot.empty ∧ s.Answers u .store k .drive .none) ∧
    ((s.slot k).phase = .storing → u.slot k = TitleSlot.empty ∧ s.Answers u .idle k .drive .none)
  erase : ∀ i k, f.op.kind = .erase i → f.op.owner = .slot k → u.slot k = TitleSlot.empty ∧
    ((s.slot k).phase = .loading → s.Answers u .erase k .drive .none) ∧
    ((s.slot k).phase = .erasing → s.Answers u .idle k .drive .none)
  sweep : ∀ i, f.op.kind = .load i ∨ f.op.kind = .erase i → f.op.owner = .sweep →
    s.SweepGoesOn u i ∧ u.cat.erased = s.cat.erased
  headerRead : f.op.kind = .headerRead → u.cat.header = .unreadable ∧ u.phase = .unformatted ∧ s.CountsDamage u
  headerWrite : ∀ e, f.op.kind = .headerWrite e → u.cat.header = s.cat.header ∧ u.phase = s.phase ∧
    ∀ tag r, s.waiting tag r .header → u.win.executing = none ∧ u.replied r .drive .none

/-- The forced write of flight f has completed good in going from s to u (R7, R8, R9, R12, R22, R161, R163). -/
structure State.OpDone (s u : State) (f : Flight) : Prop where
  store : ∀ i k, f.op.kind = .store i → f.op.owner = .slot k →
    ((s.slot k).phase = .active ∨ ((s.slot k).phase = .draining ∧ (s.slot k).inFlight ≠ 0) →
      u.slot k = { s.slot k with storeInFlight := false, dirty := false } ∧ s.Answers u .store k .ok .none ∧
      u.win.flags = s.win.flags) ∧
    ((s.slot k).phase = .draining → (s.slot k).inFlight = 0 →
      (u.slot k).phase ≠ .draining ∧ ∀ e ∈ u.map, e.slot ≠ k) ∧
    ((s.slot k).phase = .loading → s.Answers u .store k .ok .none ∧
      (expiryDue (s.slot k).expiry s.clock = false →
        u.slot k = { s.slot k with phase := .active, storeInFlight := false, dirty := false }) ∧
      ((s.slot k).kind = some .recording → expiryDue (s.slot k).expiry s.clock = true →
        (u.slot k).phase ≠ .active ∧ u.hasFlag .titleExpired = true)) ∧
    ((s.slot k).phase = .storing → u.slot k = TitleSlot.empty ∧ s.Answers u .idle k .ok .none)
  erase : ∀ i k, f.op.kind = .erase i → f.op.owner = .slot k → u.slot k = TitleSlot.empty ∧ u.map = s.map ∧
    ((s.slot k).phase = .loading → s.Answers u .erase k .expired .none) ∧
    ((s.slot k).phase = .erasing → s.Answers u .idle k .ok .none)
  sweep : ∀ i, f.op.kind = .erase i → f.op.owner = .sweep → s.SweepGoesOn u i ∧ u.cat.erased = s.cat.erased + 1
  headerWrite : ∀ e, f.op.kind = .headerWrite e → u.cat.header = .valid e ∧ u.phase = .ready ∧
    ∀ tag r, s.waiting tag r .header → u.win.executing = none ∧ u.replied r .ok (.epoch e)

/-- The piece that a command on sectors x0 … x0 + c − 1 of an extent references (R44, R16). -/
def pieceAt (s : State) (e : Extent) (x0 c : Nat) : Piece :=
  { lba := x0, count := c, owned := some
      { slot := e.slot, title := (s.slot e.slot).number.getD 0, extStart := e.start, first := e.first,
        gen := (s.slot e.slot).gen.getD 0 } }

/-- The runs of whole units a … b (R79). -/
def unitRuns (a b : Nat) : List Range :=
  if 8 * (b + 1 - a) ≤ 65536 then [{ lba := 8 * a, len := 8 * (b + 1 - a) }]
  else [{ lba := 8 * a, len := 65536 }, { lba := 8 * a + 65536, len := 8 * (b + 1 - a) - 65536 }]

/-! ### Invariants -/

/-- The rights clock is unset or within its range (R166). -/
def State.ClockOk (s : State) : Prop := ∀ c, s.clock = some c → c ≤ Config.maxCount32

/-- The violation monitor as R177 describes it, and the ALARM flag set while it is in ALARM (R182, R184). -/
structure State.MonOk (s : State) : Prop where
  counters : ∀ k : Fin 10, s.mon.counters[k] ≤ Config.maxCount16
  window : 10 ≤ s.mon.window ∧ s.mon.window ≤ 60000
  deadline : s.mon.deadline.isSome = true ↔ s.mon.state = .alarm
  normal : s.mon.state = .normal → s.mon.alarmed = 0#10
  alarm : s.mon.state = .alarm → s.mon.alarmed ≠ 0#10
  flag : s.mon.state = .alarm → s.hasFlag .alarm = true

/-- Every slot in IDLE holds the IDLE values of R4 (R13). -/
def State.IdleOk (s : State) : Prop := ∀ i, (s.slot i).phase = .idle → s.slot i = TitleSlot.empty

/-- Every slot that is not IDLE holds a title number, and no two hold the same (R4, R6). -/
def State.NumbersOk (s : State) : Prop :=
  (∀ i, (s.slot i).phase ≠ .idle → ∃ n, (s.slot i).number = some n ∧ 1 ≤ n ∧ n ≤ 1031) ∧
  (∀ i k, (s.slot i).phase ≠ .idle → (s.slot k).phase ≠ .idle → (s.slot i).number = (s.slot k).number → i = k)

/-- The held shared frames are numbered 4 … 63, each once, and no command holds more than 8 (R114). -/
structure State.FramesOk (s : State) : Prop where
  sorted : (s.buffer.frames.map (·.num)).Pairwise (· < ·)
  numbers : ∀ f ∈ s.buffer.frames, 4 ≤ f.num ∧ f.num ≤ 63
  holders : ∀ t, s.framesHeld t ≤ Config.framesPerCommand

/-- The tags whose slots hold a command, and the one whose range sector is being taken (R71, R88). -/
def State.occupied (s : State) : List HostTag := s.table.map (·.tag) ++ s.host.rangeSector.toList

/-- Each tag holds one command at most, no queued tag is above 27, and a non-queued command stands alone (R71, R73). -/
structure State.TableOk (s : State) : Prop where
  once : s.occupied.Nodup
  tags : ∀ n, HostTag.queued n ∈ s.occupied → n.val ≤ 27
  alone : HostTag.immediate ∈ s.occupied → s.occupied = [.immediate]

/-- A record whose extents are not empty and share no unit, as every record that a part writes is (R31, R153). -/
def soundExtents (es : List RecExtent) : Prop :=
  (∀ e ∈ es, 1 ≤ e.len) ∧ es.Pairwise fun a b => sharesUnit a.start a.len b.start b.len = false

/-- Every title that stands in a service frame, read and waiting for its classification, has sound extents. -/
def State.ReadsSound (s : State) : Prop :=
  ∀ f ∈ s.cat.flights, ∀ i unit x, f.op.kind = .load i → f.content = .whole unit → s.classify i unit = .title x →
    soundExtents x.extents

/-- The map is strictly sorted, its extents are not empty, share no unit and lie below the control window (R29, R30). -/
structure State.MapOk (s : State) : Prop where
  sorted : s.map.Pairwise fun a b => a.stop ≤ b.start
  held : ∀ e ∈ s.map, 1 ≤ e.len ∧ e.stop ≤ s.windowUnit

/-- The lap that follows the pass of the head: a segment behind the head is one lap back, with 65,535 before 1 (R53). -/
def lapBefore (l : Nat) : Nat := if l = 1 then Config.maxCount16 else l - 1

/-- The three statements of R53, over a ring whose head and entries fit its segment count. -/
structure RingOk (r : Ring) : Prop where
  entries : r.segs.length = r.m
  fits : ∀ h, r.head = some h → h < r.m
  empty : r.head = none → ∀ k, k < r.m → (r.seg k).lap = 0
  counter : ∀ h, r.head = some h → r.lapCounter = (r.seg h).lap
  laps : ∀ h k, r.head = some h → k < r.m → (r.seg k).lap ≠ 0 →
    (r.seg k).lap = if k ≤ h then (r.seg h).lap else lapBefore (r.seg h).lap

/-! ### What the part may show (R4, R133) -/

/-- A lane's working copy of a key, its bits hidden. -/
def keylessWork : WorkKey → WorkKey
  | .slot _ => .slot ⟨0⟩
  | .root => .root
  | .lost => .lost

/-- A catalogue unit, the title key that its seal covers hidden. -/
def keylessUnit : DiskUnit → DiskUnit
  | .header c b => .header c b
  | .title c b => .title c { b with
      fields := { b.fields with key := none }
      check := { b.check with fields := { b.check.fields with key := none } } }

/-- The content of a service frame, its title key hidden. -/
def keylessContent : SvcContent → SvcContent
  | .erased => .erased
  | .formed u => .formed (keylessUnit u)
  | .whole u => .whole (keylessUnit u)

/-- The state with every title key hidden: those of the slots, the working copies in the lanes, and those in the records
of the service frames. -/
def State.withoutKeys (s : State) : State :=
  { s with
    slots := s.slots.map fun t => { t with key := none, retired := t.retired.map fun x => { x with key := ⟨0⟩ } }
    lanes := { s.lanes with
      lane0 := s.lanes.lane0.map fun r => { r with key := keylessWork r.key }
      lane1 := s.lanes.lane1.map fun r => { r with key := keylessWork r.key } }
    cat := { s.cat with flights := s.cat.flights.map fun f => { f with content := keylessContent f.content } } }

/-! ### What the status sectors show (R65, R198 to R200, section 11.9) -/

/-- A sector shows these fields: byte offset, bytes, value (section 11.9). -/
def shows (x : Sector) (fs : List (Nat × Nat × Nat)) : Prop :=
  ∀ f ∈ fs, Sector.field x f.1 f.2.1 = f.2.2 % 2 ^ (8 * f.2.1)

/-- Bytes lo … hi − 1 of a sector read as zeros. -/
def zeros (x : Sector) (lo hi : Nat) : Prop := ∀ b, lo ≤ b → b < hi → Sector.field x b 1 = 0

/-- How many command slots are in a state (R72, R199). -/
def State.howMany (s : State) (st : CmdState) : Nat := s.table.countP fun c => decide (c.state = st)

end Sys2Proof.Machine
end

