-- ==== Sys2Proof/Certificates/Slice0/Obligations.lean ====
section
/-!
DEFINITION. The statements for the provers, in the order of OBLIGATIONS.json. The terms they use beside the model's own
are those of Safety.lean.
-/

open Sys2Proof Sys2Proof.Machine

/-! ### The queue, and what every step keeps -/

/-- A step is the command at the front of the queue, on the state with the queue's rest. On an empty queue the part
idles (the model's choice, notes/assumptions/1.md). -/
def Obligations.StepRunsTheFront : Prop :=
  (∀ (c : Instr) (rest : List Instr) (s : State), s.pending = c :: rest → step s = exec c { s with pending := rest }) ∧
  ∀ s : State, s.pending = [] → step s = .next s

/-- Every well-formed command gets a next state. An ill-formed one is refused by name: that is the model's choice, for
operands that no host and no drive can send (notes/assumptions/4.md). -/
def Obligations.EveryCommandAnswers : Prop :=
  ∀ (c : Instr) (s : State),
    (c.WellFormed = true → ∃ t, exec c s = .next t) ∧
    (c.WellFormed = false → ∃ name, exec c s = .refused (.illFormed name))

/-- R169: once set, the rights clock never decreases and never exceeds 4,294,967,295, until the next hard reset makes
it unset. -/
def Obligations.ClockNeverFalls : Prop :=
  ∀ s t : State, s.ClockOk → step s = .next t →
    t.ClockOk ∧
    if s.pending.head? = some .hardReset then t.clock = none
    else ∀ c, s.clock = some c → ∃ d, t.clock = some d ∧ c ≤ d

/-- R177, R182, R184: the monitor keeps its ranges; a deadline is present only in ALARM; the alarmed set is empty in
NORMAL and not empty in ALARM; the ALARM flag stays set while the monitor is in ALARM. -/
def Obligations.MonitorKept : Prop := ∀ s t : State, s.MonOk → step s = .next t → t.MonOk

/-- R13, R4, R6: every slot in IDLE holds the IDLE values; every other slot holds a title number of its own. R114: the
shared frames held are numbered 4 … 63, each once, and no command holds more than 8. R71, R73: each tag holds one
command at most, no tag is above 27, and a non-queued command stands alone. -/
def Obligations.BlocksKept : Prop :=
  (∀ s t : State, s.IdleOk → s.NumbersOk → step s = .next t → t.IdleOk ∧ t.NumbersOk) ∧
  (∀ s t : State, s.FramesOk → step s = .next t → t.FramesOk) ∧
  (∀ s t : State, s.TableOk → step s = .next t → t.TableOk)

/-- R29, R30, R36: the extents of the map stay sorted, disjoint, not empty and below the control window. A title opened
with the extents of its record keeps this when the record's own extents are not empty and do not meet; so every step
keeps it while the records in the service frames have such extents, and every step but the end of a job keeps it
whatever they have. -/
def Obligations.MapKept : Prop :=
  (∀ s t : State, s.MapOk → (∀ l, s.pending.head? ≠ some (.jobEnd l)) → step s = .next t → t.MapOk) ∧
  (∀ s t : State, s.MapOk → s.ReadsSound → step s = .next t → t.MapOk) ∧
  ∀ (i : SlotIx) (f : TitleFields) (s : State), s.MapOk → (∀ e ∈ f.extents, 1 ≤ e.len) →
    (f.extents.Pairwise fun a b => sharesUnit a.start a.len b.start b.len = false) → (openTitle i f s).MapOk

/-- R185, R188, R190: LOCKDOWN is left at an authentic RESUME alone, or at a hard reset. -/
def Obligations.LockdownLeftByResume : Prop :=
  ∀ s t : State, s.mon.state = .lockdown → step s = .next t → t.mon.state ≠ .lockdown →
    s.pending.head? = some .hardReset ∨
    (s.pending.head? = some .resume ∧ ∃ tag r, s.handed tag r ∧ s.authentic r)

/-- R187: while the monitor is in LOCKDOWN no protected piece is admitted: a command with one that is in the table
after a step was there before it, with the same pieces. -/
def Obligations.LockdownAdmitsNothingProtected : Prop :=
  ∀ s t : State, s.mon.state = .lockdown → step s = .next t →
    ∀ c ∈ t.table, (∃ p ∈ c.pieces, p.isProtected = true) → ∃ d ∈ s.table, d.tag = c.tag ∧ d.pieces = c.pieces

/-- R196, R133: the nonce is replaced by the key generator's next value at the release of RESET_N and at the
acceptance of an authentic authorised command, and at no other step but a hard reset; and the generator never goes
back, not even at a reset. -/
def Obligations.NonceAndGenerator : Prop :=
  ∀ s t : State, step s = .next t →
    s.draws ≤ t.draws ∧
    (t.win.nonce = s.win.nonce ∨ s.pending.head? = some .hardReset ∨
     (t.win.nonce = Config.nonce s.draws ∧ s.draws < t.draws ∧
      ((s.pending.head? = some .resetRelease ∧ s.inReset = true) ∨
       ∃ c ∈ authorisedCommands, s.pending.head? = some c ∧ ∃ tag r, s.handed tag r ∧ s.authentic r)))

/-- The invariants above hold after reset. -/
def Obligations.ResetMeetsTheInvariants : Prop :=
  State.reset.ClockOk ∧ State.reset.MonOk ∧ State.reset.IdleOk ∧ State.reset.NumbersOk ∧ State.reset.FramesOk ∧
    State.reset.TableOk ∧ State.reset.MapOk

/-- R4, R133, R199, R200: no sector of the control window depends on a key, in a slot, in a lane or in a service frame.
R192, R198, R199, R200, R65: the command sector reads back the last record, its authorisation code as zeros; the reply
sector holds the reply in its layout; the part status sector and the slot status sectors show their owners' fields as
they stand, in the layout of section 11.9; the last five sectors are zeros. The window time remaining is no more than
the window length, never more than at an earlier read in the same window, and 0 outside ALARM; how fast it falls is left
free (notes/assumptions/8.md). The model's choices are that a failed command whose completion has not been sent counts
at byte 85, in ENDING, and not in FREE (notes/assumptions/35.md), that the phase reads 0 in STARTING and NO_DRIVE
(notes/assumptions/15.md), and that what a reply or a slot does not have reads as zeros (notes/assumptions/30.md). R202:
ALERT is asserted, RESET_N released, while an event flag is set, in LOCKDOWN and in NO_DRIVE. -/
def Obligations.KeysHidden : Prop :=
  (∀ (s : State) (lba : Nat), s.withoutKeys.windowSector lba = s.windowSector lba) ∧
  (∀ s : State, let command := s.windowSector s.windowBase
    (s.win.last = none → zeros command 0 512) ∧
    ∀ r, s.win.last = some r → zeros command 480 512 ∧ ∀ b, b < 480 → Sector.field command b 1 = Sector.field r b 1) ∧
  (∀ s : State, let reply := s.windowSector (s.windowBase + 1)
    (s.win.reply = none → zeros reply 0 512) ∧
    ∀ p, s.win.reply = some p → zeros reply 7 8 ∧ zeros reply 64 512 ∧
      shows reply [(0, 4, p.request), (4, 1, p.code), (5, 1, p.result.code), (6, 1, p.slot), (8, 8, p.nonce.toNat),
        (16, 4, p.number)] ∧
      (p.details = .none → zeros reply 20 64) ∧
      (∀ g m x, p.details = .ring g m x → shows reply [(20, 4, g), (24, 1, m), (26, 2, x)]) ∧
      (∀ x k, p.details = .openFailed x k → shows reply [(20, 1, x), (21, 1, k)]) ∧
      (∀ x, p.details = .retention x → shows reply [(26, 2, x)]) ∧
      (∀ v held wasUnset n, p.details = .clock v held wasUnset n →
        shows reply [(20, 4, v), (24, 1, held.toNat), (25, 1, wasUnset.toNat), (26, 1, n)]) ∧
      (∀ x, p.details = .window x → shows reply [(20, 4, x)]) ∧
      (∀ st set, p.details = .monitor st set → shows reply [(20, 1, st.code), (22, 2, set.toNat)]) ∧
      ∀ e, p.details = .epoch e → shows reply [(20, 2, e)]) ∧
  (∀ s : State, let status := s.windowSector (s.windowBase + 2)
    zeros status 122 512 ∧
    shows status [(0, 1, s.phase.code), (1, 1, s.clock.isSome.toNat), (2, 1, s.mon.state.code),
      (3, 1, s.cat.sweeping.toNat), (4, 4, s.clock.getD 0), (8, 8, s.win.nonce.toNat), (16, 2, s.win.flags.toNat),
      (18, 2, s.mon.alarmed.toNat), (24, 4, s.mon.window), (38, 1, s.buffer.ceiling), (39, 1, s.win.readPolicy.code),
      (40, 1, s.win.writePolicy.code), (41, 1, s.win.deallocatePolicy.code), (42, 1, s.buffer.frames.length),
      (80, 1, 29 - s.table.length), (81, 1, s.howMany .waitOverlap), (82, 1, s.howMany .waitControl),
      (83, 1, s.howMany .mergeRead), (84, 1, s.howMany .active), (85, 1, s.howMany .ending + s.howMany .failed),
      (86, 1, s.win.executing.isSome.toNat), (87, 1, s.cat.flights.length), (92, 4, s.cat.queue.length),
      (96, 2, s.cat.progress), (98, 2, s.cat.erased), (104, 8, s.presented), (112, 8, s.driveCapacity)] ∧
    (∀ k : Fin 10, shows status [(28 + k.val, 1, s.mon.reactions[k].code), (44 + 2 * k.val, 2, s.mon.counters[k])]) ∧
    (s.mon.refusal = none → zeros status 64 80) ∧
    (∀ r, s.mon.refusal = some r → shows status [(64, 2, r.number), (66, 1, tagCode r.tag), (67, 1, r.reason.code),
      (68, 8, r.lba), (76, 4, r.count)]) ∧
    ((∃ t, s.drive.hold = some (.stall t)) → shows status [(43, 1, 1)]) ∧
    ((∀ t, s.drive.hold ≠ some (.stall t)) → zeros status 43 44) ∧
    (s.win.executing = none → zeros status 88 92) ∧
    (∀ e, s.win.executing = some e → shows status [(88, 4, recRequest e.record)]) ∧
    (s.win.reply = none → zeros status 100 104) ∧
    (∀ p, s.win.reply = some p → shows status [(100, 4, p.number)]) ∧
    (∀ e, s.cat.header = .valid e → shows status [(120, 2, e)]) ∧
    ((∀ e, s.cat.header ≠ .valid e) → zeros status 120 122) ∧
    (s.mon.deadline = none → zeros status 20 24) ∧
    ∀ d, s.mon.deadline = some d → d.length < 4294967296 → Sector.field status 20 4 ≤ d.length ∧
      (d.since ≤ s.freeReads →
        Sector.field (({ s with freeReads := s.freeReads + 1 } : State).windowSector (s.windowBase + 2)) 20 4 ≤
          Sector.field status 20 4)) ∧
  (∀ (s : State) (i : SlotIx), let status := s.windowSector (s.windowBase + 3 + i.val)
    let t := s.slot i
    zeros status 60 512 ∧
    shows status [(0, 1, i.val), (1, 1, t.phase.code), (2, 1, kindCode t.kind), (3, 1, stateCode t.state),
      (4, 1, classCode t.cls), (5, 1, drainCode t.drain), (6, 1, t.halted.toNat), (7, 1, t.dirty.toNat),
      (8, 1, t.storeInFlight.toNat), (9, 1, t.expiry.isSome.toNat), (10, 1, t.retired.isSome.toNat),
      (12, 2, t.number.getD 0), (14, 2, t.gen.getD 0), (20, 2, t.inFlight), (22, 2, t.extentCount),
      (24, 4, t.expiry.getD 0), (28, 4, t.nextUnit), (32, 4, t.lastChanger)] ∧
    (t.retired = none → zeros status 16 20) ∧
    (∀ x, t.retired = some x → shows status [(16, 2, x.gen), (18, 2, x.refs)]) ∧
    (t.ring = none → zeros status 36 60) ∧
    ∀ r, t.ring = some r →
      shows status [(36, 4, r.size), (40, 4, r.g), (44, 1, r.m), (52, 2, r.lapCounter), (54, 2, r.retention)] ∧
      (r.head = none → zeros status 45 52 ∧ zeros status 56 60) ∧
      ∀ h, r.head = some h → shows status [(45, 1, 1), (46, 1, h), (50, 2, (r.seg h).lap)] ∧
        let age := List.range' (h + 1) (r.m - (h + 1)) ++ List.range' 0 (h + 1)
        ((∀ k ∈ age, (r.seg k).readable s.clock = false) → zeros status 47 50 ∧ zeros status 56 60) ∧
        ∀ younger k older, age = older ++ k :: younger → (r.seg k).readable s.clock = true →
          (∀ j ∈ older, (r.seg j).readable s.clock = false) → shows status [(47, 1, 1), (48, 1, k)] ∧
            ((r.seg k).firstWrite = none → zeros status 49 50 ∧ zeros status 56 60) ∧
            ∀ f, (r.seg k).firstWrite = some f → shows status [(49, 1, 1), (56, 4, f)]) ∧
  (∀ (s : State) (n : Nat), 11 ≤ n → n ≤ 15 → zeros (s.windowSector (s.windowBase + n)) 0 512) ∧
  ∀ s : State, s.alert = true ↔
    s.inReset = false ∧ (s.win.flags ≠ 0#8 ∨ s.mon.state = .lockdown ∨ s.phase = .noDrive)

/-! ### Resets, start-up, time and the monitor -/

/-- R27, R46, R66, R95, R128, R141, R165, R174, R190, R201: after HARD_RESET every block holds its hard-reset values;
only the key generator and the waiting commands are kept (R133). R204, R196: the release of RESET_N puts the part into
STARTING, offers the host link, brings up the drive link and asks the drive for its identity, and draws the nonce. That
RESET_RELEASE changes nothing once RESET_N is released, and that no command but these two changes anything while it is
asserted, is the model's choice (notes/assumptions/3.md). -/
def Obligations.ResetAndRelease : Prop :=
  (∀ s : State, ∃ t, exec .hardReset s = .next t ∧
     t.inReset = true ∧ t.phase = .starting ∧ t.identity = none ∧ t.alert = false ∧ t.out = [] ∧
     (∀ i, t.slot i = TitleSlot.empty) ∧ t.map = [] ∧ t.table = [] ∧
     t.host.up = false ∧ t.host.held = [] ∧ t.host.rangeSector = none ∧ t.host.xfer = none ∧ t.host.due = [] ∧
     t.buffer.frames = [] ∧ t.buffer.requests = [] ∧ ceilingOf t.buffer.ceiling = 45 ∧
     t.lanes.lane0 = none ∧ t.lanes.lane1 = none ∧ t.lanes.jobs = [] ∧
     t.drive.queue = [] ∧ t.drive.outstanding = [] ∧ t.drive.link = .off ∧ t.drive.asking = false ∧
     t.drive.errorRead = false ∧ t.drive.failing = none ∧ t.drive.hold = none ∧ t.drive.xfer = none ∧
     t.drive.reissue = [] ∧ t.drive.restart = [] ∧
     t.cat.header = .unknown ∧ t.cat.queue = [] ∧ t.cat.flights = [] ∧ t.cat.claims = [] ∧ t.cat.sweeping = false ∧
     t.cat.progress = 0 ∧ t.cat.erased = 0 ∧ t.clock = none ∧
     t.mon.state = .normal ∧ (∀ k : Fin 10, t.mon.counters[k] = 0) ∧ t.mon.reactions = defaultReactions ∧
     t.mon.window = 2000 ∧ t.mon.alarmed = 0#10 ∧ t.mon.deadline = none ∧ t.mon.refusal = none ∧
     t.win.flags = 0#8 ∧ t.win.reply = none ∧ t.win.last = none ∧ t.win.executing = none ∧
     t.win.readPolicy = .pass ∧ t.win.writePolicy = .pass ∧ t.win.deallocatePolicy = .pass ∧
     t.draws = s.draws ∧ t.pending = s.pending) ∧
  ((∀ s : State, s.inReset = true →
     exec .resetRelease s = .next { s with
       inReset := false, phase := .starting, host := { s.host with up := true },
       drive := { s.drive with link := .up, asking := true },
       win := { s.win with nonce := Config.nonce s.draws }, draws := s.draws + 1, out := [.identityRequest] }) ∧
   (∀ s : State, s.inReset = false → exec .resetRelease s = .next { s with out := [] }) ∧
   ∀ (c : Instr) (s : State), s.inReset = true → c.WellFormed = true → c ≠ .hardReset → c ≠ .resetRelease →
     exec c s = .next { s with out := [] })

/-- R94, R128, R207: HOST_LINK_RESET ends every command without a completion, with its frames, requests and drive
entries; settings, clock, monitor, nonce and last record stay, and no slot in ACTIVE leaves it. R141: every job ends; a
job that then waits or runs is of a service operation that took its tag only now. R16, R19, R28: every piece ends, so
that a slot's in-flight count falls by its pieces and its retired key's count by those of that generation, at 0
destroyed; a slot in DRAINING whose last piece ends with no store in flight leaves DRAINING as at any such end. R159:
the service operations in flight keep their tags, their frames are erased, and they wait to begin again in the order of
their first issue; that those never issued stand after the issued ones is the model's choice (notes/assumptions/19.md).
R206, R207: HOST_LINK_RETURN offers the link again, but in NO_DRIVE. The drive link is reset with the host link; that it
is not while the drive has been asked for its identity, and that without a host link nothing happens, is the model's
choice (notes/assumptions/24.md). -/
def Obligations.HostLinkResets : Prop :=
  (∀ s : State, s.inReset = false → s.host.up = true → ∃ t, exec .hostLinkReset s = .next t ∧
    t.table = [] ∧ t.host = {} ∧ t.buffer = { s.buffer with frames := [], requests := [] } ∧
    (∀ d ∈ t.drive.queue, ∃ g, d.who = .service g) ∧ t.drive.outstanding = [] ∧ t.drive.errorRead = false ∧
    t.drive.failing = none ∧ t.drive.hold = none ∧ t.drive.xfer = none ∧ t.drive.asking = s.drive.asking ∧
    (s.drive.asking = false → t.drive.link = .resetting ∧ t.out = [.driveLinkReset]) ∧
    (s.drive.asking = true → t.drive.link = s.drive.link ∧ t.out = []) ∧
    ((∀ i, (s.slot i).phase ≠ .draining) → t.lanes.lane0 = none ∧ t.lanes.lane1 = none ∧ t.lanes.jobs = []) ∧
    (∀ j : Job, j ∈ t.lanes.jobs ∨ (∃ l x, t.lanes.lane l = some x ∧ x.job = j) →
      ∃ g, j.owner = .service g ∧ s.flight? g = none ∧ (t.flight? g).isSome = true) ∧
    (∀ i, (s.slot i).phase ≠ .draining →
      t.slot i = (s.slot i).afterPieces (ownedOn (s.table.flatMap (·.pieces)) i)) ∧
    (∀ i, (s.slot i).phase = .draining → (s.slot i).inFlight = (ownedOn (s.table.flatMap (·.pieces)) i).length →
      (s.slot i).inFlight ≠ 0 →
      ((s.slot i).storeInFlight = true →
        t.slot i = (s.slot i).afterPieces (ownedOn (s.table.flatMap (·.pieces)) i)) ∧
      ((s.slot i).storeInFlight = false → (∀ e ∈ t.map, e.slot ≠ i) ∧
        ((s.slot i).kind = some .recording → (s.slot i).drain = some .closed → (s.slot i).dirty = true →
          (t.slot i).phase = .storing ∧ t.asks (.store ((s.slot i).number.getD 0)) (.slot i)) ∧
        ((s.slot i).kind = some .recording → (s.slot i).drain ≠ some .closed →
          (t.slot i).phase = .erasing ∧ (t.slot i).key = none ∧ (t.slot i).retired = none ∧
          t.asks (.erase ((s.slot i).number.getD 0)) (.slot i)) ∧
        ((s.slot i).kind ≠ some .recording ∨ ((s.slot i).drain = some .closed ∧ (s.slot i).dirty = false) →
          t.slot i = TitleSlot.empty))) ∧
    (∀ e ∈ s.map, (s.slot e.slot).phase ≠ .draining → e ∈ t.map) ∧
    (∀ f ∈ s.cat.flights, { f with content := .erased } ∈ t.cat.flights) ∧
    t.drive.reissue = [] ∧ t.drive.restart = (byIssue s.cat.flights).map (·.op.num) ∧
    t.clock = s.clock ∧ t.mon = s.mon ∧ t.phase = s.phase ∧ t.identity = s.identity ∧ t.cat.header = s.cat.header ∧
    t.win = { s.win with executing := t.win.executing, reply := t.win.reply }) ∧
  (∀ fs : List Flight, (byIssue fs).Perm fs ∧
    (byIssue fs).Pairwise fun a b => ∀ y, b.issued = some y → ∃ x, a.issued = some x ∧ x ≤ y) ∧
  (∀ s : State, s.inReset = false → s.host.up = false → exec .hostLinkReset s = .next { s with out := [] }) ∧
  (∀ s : State, s.inReset = false → s.phase ≠ .noDrive →
    exec .hostLinkReturn s = .next { s with out := [], host := { s.host with up := true } }) ∧
  ∀ s : State, s.inReset = false → s.phase = .noDrive → exec .hostLinkReturn s = .next { s with out := [] }

/-- R204, R142, R144, R206: in STARTING, while the drive has been asked for its identity, an identity with at least
2,097,152 sectors and queued commands on 32 tags is stored, and the HEADER_READ takes service tag 28 under a claim on
index 0; any other identity, or none, leads to NO_DRIVE, where the host link is withdrawn and the drive left alone. That
an answer nobody has asked for changes nothing is the model's choice (notes/assumptions/4.md). -/
def Obligations.IdentityAnswered : Prop :=
  (∀ (s : State) (d : Identity), s.inReset = false → s.phase = .starting → s.identity = none →
    s.drive.asking = true → 2097152 ≤ d.capacity → d.queued = true → 32 ≤ d.depth → s.cat.queue = [] →
    s.cat.flights = [] → s.cat.claims = [] →
    exec (.driveIdentity (some d)) s = .next { s with
      out := [], identity := some d, stamp := s.stamp + 1,
      drive := { s.drive with asking := false, queue := s.drive.queue ++
        [{ who := .service 0, op := .serviceRead, lba := d.capacity / 8 * 8 - 8192, count := 8 }] },
      cat := { s.cat with
        claims := [{ index := 0, owner := .header }],
        flights := [{ tag := 0, op := { num := s.stamp, kind := .headerRead, owner := .header } }] } }) ∧
  (∀ (s : State) (a : Option Identity), s.inReset = false → s.phase = .starting → s.identity = none →
    s.drive.asking = true → (∀ d, a = some d → d.capacity < 2097152 ∨ d.queued = false ∨ d.depth < 32) →
    exec (.driveIdentity a) s = .next { s with out := [], phase := .noDrive, host := {}, drive := {} }) ∧
  ∀ (s : State) (a : Option Identity), s.inReset = false →
    (s.phase ≠ .starting ∨ s.identity ≠ none ∨ s.drive.asking = false) →
    exec (.driveIdentity a) s = .next { s with out := [] }

/-- R204, R205, R206: at the start-up limit, a part without an identity enters NO_DRIVE; one whose HEADER_READ is in
flight abandons it as UNREADABLE: CATALOGUE_DAMAGED is counted and its flag set, the drive link is reset, and the
phase becomes UNFORMATTED. Outside STARTING the limit is over. -/
def Obligations.StartUpLimitEnds : Prop :=
  (∀ s : State, s.inReset = false → s.phase = .starting → s.identity = none →
    exec .startUpLimit s = .next { s with out := [], phase := .noDrive, host := {}, drive := {} }) ∧
  (∀ (s : State) (f : Flight), s.inReset = false → s.phase = .starting → s.identity ≠ none → s.headerFlight = some f →
    ∃ u, exec .startUpLimit s = .next (pump u) ∧ u.phase = .unformatted ∧ u.cat.header = .unreadable ∧
      u.hasFlag .catalogueDamaged = true ∧ u.drive.link = .resetting ∧ .driveLinkReset ∈ u.out ∧
      u.mon.counters[(9 : Fin 10)] = min 65535 (s.mon.counters[(9 : Fin 10)] + 1) ∧ u.clock = s.clock ∧
      u.identity = s.identity) ∧
  ∀ s : State, s.inReset = false → s.phase ≠ .starting → exec .startUpLimit s = .next { s with out := [] }

/-- R9, R11, R166, R167, R170: a tick of an unset clock changes nothing; a tick of a set one raises it by one, to
4,294,967,295 at most, and the expiry test follows. The expiry test puts each ACTIVE recording slot whose expiry is at
or before the set clock into DRAINING with reason EXPIRED, and on to ERASING with its key destroyed and its extents
off the map if nothing is in flight; TITLE_EXPIRED is then set. Every other slot, the clock, the monitor and the
host's commands are as they were. -/
def Obligations.TickExpires : Prop :=
  (∀ s : State, s.inReset = false → s.clock = none → exec .tick s = .next { s with out := [] }) ∧
  (∀ (s : State) (c : Nat), s.inReset = false → s.clock = some c →
    exec .tick s = .next (pump (expiryTest { s with out := [], clock := some (min 4294967295 (c + 1)) }))) ∧
  ∀ s : State,
    (∀ i, (s.slot i).expires s.clock = true →
      (expiryTest s).slot i =
        if (s.slot i).inFlight = 0 ∧ (s.slot i).storeInFlight = false then
          { s.slot i with phase := .erasing, drain := some .expired, key := none, retired := none }
        else { s.slot i with phase := .draining, drain := some .expired }) ∧
    (∀ i, (s.slot i).expires s.clock = false → (expiryTest s).slot i = s.slot i) ∧
    ((expiryTest s).hasFlag .titleExpired = true ↔
      s.hasFlag .titleExpired = true ∨ ∃ i, (s.slot i).expires s.clock = true) ∧
    (∀ e, e ∈ (expiryTest s).map ↔ e ∈ s.map ∧
      ¬ ((s.slot e.slot).expires s.clock = true ∧ (s.slot e.slot).inFlight = 0 ∧
         (s.slot e.slot).storeInFlight = false)) ∧
    (expiryTest s).clock = s.clock ∧ (expiryTest s).mon = s.mon ∧ (expiryTest s).table = s.table ∧
    (expiryTest s).host = s.host ∧ (expiryTest s).buffer = s.buffer ∧ (expiryTest s).out = s.out ∧
    (expiryTest s).win = { s.win with flags := (expiryTest s).win.flags }

/-- R179, R181 to R183: a violation raises its kind's counter by one, to 65,535 at most, and then the kind's reaction
acts: COUNT does nothing more; HALT halts the named slots that are not IDLE; ALARM enters ALARM, starting the window, or
joins the alarmed set, the deadline as it was; FAULT enters LOCKDOWN, halting no slot. A deadline is held as the length
of the window it ends, with the count of free values at its start (the model's choice, notes/assumptions/8.md). R185:
the window deadline in ALARM puts the monitor into LOCKDOWN: the alarmed set stays, the deadline becomes absent, and the
flag LOCKDOWN is set, the others as they were, and the host link goes on (R82: a transfer of the window shows the new
moment). In another state no deadline is running; that the command then changes nothing is the model's choice
(notes/assumptions/4.md and 16.md). -/
def Obligations.MonitorReacts : Prop :=
  (∀ (k : Violation) (named : List SlotIx) (s : State),
     (∀ j : Fin 10, (violate k named s).mon.counters[j] =
       if j = k.ix then min 65535 (s.mon.counters[j] + 1) else s.mon.counters[j]) ∧
     (s.mon.reactions[k.ix] = .count → violate k named s = { s with mon := s.mon.count k }) ∧
     (s.mon.reactions[k.ix] = .halt → (violate k named s).mon = s.mon.count k ∧
       ∀ i, (violate k named s).slot i =
         if i ∈ named ∧ (s.slot i).phase ≠ .idle then { s.slot i with halted := true } else s.slot i) ∧
     (s.mon.reactions[k.ix] = .alarm → s.mon.state = .normal → violate k named s = { s with
       mon := { s.mon.count k with
         state := .alarm, alarmed := s.mon.alarmed ||| k.bit, deadline := some { length := s.mon.window, since := s.freeReads } },
       win := { s.win with flags := s.win.flags ||| 2#8 } }) ∧
     (s.mon.reactions[k.ix] = .alarm → s.mon.state = .alarm → s.mon.alarmed &&& k.bit = 0#10 → violate k named s = { s with
       mon := { s.mon.count k with alarmed := s.mon.alarmed ||| k.bit },
       win := { s.win with flags := s.win.flags ||| 2#8 } }) ∧
     (s.mon.reactions[k.ix] = .alarm → s.mon.state = .alarm → s.mon.alarmed &&& k.bit ≠ 0#10 →
       violate k named s = { s with mon := s.mon.count k }) ∧
     (s.mon.reactions[k.ix] = .alarm ∨ s.mon.reactions[k.ix] = .fault → s.mon.state = .lockdown →
       violate k named s = { s with mon := { s.mon.count k with alarmed := s.mon.alarmed ||| k.bit } }) ∧
     (s.mon.reactions[k.ix] = .fault → s.mon.state ≠ .lockdown → violate k named s = { s with
       mon := { s.mon.count k with state := .lockdown, alarmed := s.mon.alarmed ||| k.bit, deadline := none },
       win := { s.win with flags := s.win.flags ||| 4#8 } })) ∧
  ((∀ s : State, s.inReset = false → s.mon.state = .alarm →
     exec .windowDeadline s = .next (pump { s with
       out := [], mon := { s.mon with state := .lockdown, deadline := none },
       win := { s.win with flags := s.win.flags ||| 4#8 } })) ∧
   ∀ s : State, s.inReset = false → s.mon.state ≠ .alarm → exec .windowDeadline s = .next { s with out := [] })

/-! ### The drive link -/

/-- R70, R119, R92, R156: the head of the drive issue queue is issued when the link is up, not held and not waiting
for the error record, and the drive can take it: a queued entry while no non-queued command is outstanding, a non-
queued one while none is. A service entry's first issue is noted. Otherwise nothing is issued. -/
def Obligations.HeadIsIssued : Prop :=
  (∀ (s : State) (d : DriveCmd) (rest : List DriveCmd) (t : HostTag), s.inReset = false → s.drive.queue = d :: rest →
    s.drive.link = .up → s.drive.errorRead = false → s.drive.hold = none → d.who = .host t →
    (if queuedWho d.who then ∀ o ∈ s.drive.outstanding, queuedWho o.who = true else s.drive.outstanding = []) →
    exec .driveIssue s = .next { s with
      out := [.issued d],
      drive := { s.drive with queue := rest, outstanding := s.drive.outstanding ++ [d] } }) ∧
  (∀ (s : State) (d : DriveCmd) (rest : List DriveCmd) (g : SvcTag), s.inReset = false → s.drive.queue = d :: rest →
    s.drive.link = .up → s.drive.errorRead = false → s.drive.hold = none → d.who = .service g →
    (∀ o ∈ s.drive.outstanding, queuedWho o.who = true) →
    exec .driveIssue s = .next { s with
      out := [.issued d], stamp := s.stamp + 1,
      drive := { s.drive with queue := rest, outstanding := s.drive.outstanding ++ [d] },
      cat := { s.cat with flights := s.cat.flights.map fun f =>
        if f.tag = g ∧ f.issued = none then { f with issued := some s.stamp } else f } }) ∧
  ∀ s : State, s.inReset = false →
    (s.drive.queue = [] ∨ s.drive.link ≠ .up ∨ s.drive.errorRead = true ∨ s.drive.hold ≠ none ∨
      ∃ d rest, s.drive.queue = d :: rest ∧ s.canTake d = false) →
    exec .driveIssue s = .next { s with out := [] }

/-- R86, R92, R126: a drive error on a command outstanding at the drive ends the work of its host command: the command,
its jobs, frames, requests and drive command are gone, while its slot, its pieces and its overlap entry stand until its
completion is sent (R19, R107; where R92 has the pieces end, the model follows R19, notes/assumptions/35.md). Its
completion has the drive's indication, the failing LBA brought within the host's range. On a non-queued command it is
due at once; on a queued one the drive port waits for the error record, the others at the drive stay outstanding until
it has been read, and the completion is due then. That the work of a queued command is over at the error, and its
completion at the record, is the model's choice (notes/assumptions/9.md). R92, R156: once the error record has been
read, every host command with a command outstanding at the drive ends with the device-error indication, the abandoned
service commands rejoin the drive issue queue ahead of every waiting entry, in the order of their first issue, and
nothing is outstanding. That an error on no command at the drive, and a record that nothing awaits, change nothing, is
the model's choice (notes/assumptions/4.md). -/
def Obligations.DriveErrorsEnd : Prop :=
  ((∀ (s : State) (t : HostTag) (lba : Option Nat) (c : Cmd), s.inReset = false → s.drive.link = .up →
     s.drive.errorRead = false → s.cmd? t = some c → (s.driveCmdOf t).isSome = true →
     let done : Completion := { tag := t, ending := .driveError (lba.map c.clampLba) }
     ∃ u, exec (.driveError t lba) s = .next (pump u) ∧
       (t = .immediate → done ∈ u.host.due ∧ u.drive.failing = s.drive.failing) ∧
       (t ≠ .immediate → u.drive.failing = some done) ∧
       { c with state := .failed } ∈ u.table ∧ u.cmd? t = none ∧ u.WorkOver t ∧ u.slots = s.slots ∧
       u.drive.outstanding = s.drive.outstanding.filter (fun d => decide (d.who ≠ .host t)) ∧
       u.drive.errorRead = queuedWho (.host t) ∧
       (queuedWho (.host t) = true → u.drive.hold = none ∧ u.drive.xfer = none) ∧
       u.mon = s.mon ∧ u.clock = s.clock ∧ u.phase = s.phase) ∧
   ∀ (s : State) (t : HostTag) (lba : Option Nat), s.inReset = false →
     (s.drive.link ≠ .up ∨ s.drive.errorRead = true ∨ s.driveCmdOf t = none) →
     exec (.driveError t lba) s = .next { s with out := [] }) ∧
  ((∀ s : State, s.inReset = false → s.drive.errorRead = true →
     ∃ u rest, exec .errorRecordRead s = .next (pump u) ∧
       u.drive.errorRead = false ∧ u.drive.failing = none ∧ u.drive.outstanding = [] ∧ u.drive.link = s.drive.link ∧
       u.drive.queue = s.abandonedOps.filterMap s.reissueCmd ++ rest ∧
       (∀ k, s.drive.failing = some k → k ∈ u.host.due) ∧
       (∀ t c, s.cmd? t = some c → (s.driveCmdOf t).isSome = true →
         u.cmd? t = none ∧ u.WorkOver t ∧ ({ tag := t, ending := .deviceError } : Completion) ∈ u.host.due ∧
         ∃ d ∈ u.table, d.tag = t ∧ d.state = .failed ∧ d.pieces = c.pieces) ∧
       u.slots = s.slots ∧
       (∀ t c, s.cmd? t = some c → s.driveCmdOf t = none → (u.cmd? t).isSome = true) ∧
       u.mon = s.mon ∧ u.clock = s.clock) ∧
   ∀ s : State, s.inReset = false → s.drive.errorRead = false → exec .errorRecordRead s = .next { s with out := [] })

/-- R92, R119, R93: a hold of the drive link that has lasted its limit, and an error record that cannot be had, each
reset the drive link; the abandoned service commands wait to be issued again, and a command whose error record could not
be had ends with the device-error indication. The work of each command that ends is over at the reset; that it stands in
the table until its completion is sent, with its pieces and its in-flight counts (R19, R107; where R92 has the pieces
end, the model follows R19), is the model's reading and its state there the model's choice (notes/assumptions/35.md).
That without a hold, or with no record awaited, nothing happens, is the model's choice (notes/assumptions/4.md and
16.md). -/
def Obligations.LimitsResetTheLink : Prop :=
  (∀ s : State, s.inReset = false → s.drive.hold ≠ none →
    ∃ u, exec .holdLimit s = .next (pump u) ∧ s.LinkReset u ∧ u.drive.reissue = s.drive.reissue ++ s.abandonedOps) ∧
  (∀ s : State, s.inReset = false → s.drive.errorRead = true →
    ∃ u, exec .errorRecordTimeout s = .next (pump u) ∧ s.LinkReset u ∧
      u.drive.reissue = s.drive.reissue ++ s.abandonedOps) ∧
  (∀ s : State, s.inReset = false → s.drive.hold = none → exec .holdLimit s = .next { s with out := [] }) ∧
  ∀ s : State, s.inReset = false → s.drive.errorRead = false →
    exec .errorRecordTimeout s = .next { s with out := [] }

/-- R157, R158: when the timer of an outstanding service command runs out, the drive link is reset; the first time the
operation's timeout count becomes 1 and its command waits to be issued again with the others; the second time the
operation fails, is not issued again, and SERVICE_TIMEOUT is set, with STORE_FAILED for a store or an erase. R92, R93:
the reset ends the host commands that had a drive command outstanding; that each stands in the table until its
completion is sent, with its pieces and its in-flight counts (R19, R107; where R92 has the pieces end, the model follows
R19), is the model's reading and its state there the model's choice (notes/assumptions/35.md). That without such a
command nothing happens is the model's choice (notes/assumptions/4.md, 16.md and 20.md). -/
def Obligations.TimerResetsTheLink : Prop :=
  (∀ (s : State) (g : SvcTag) (f : Flight), s.inReset = false → s.drive.link = .up → s.flight? g = some f →
    s.svcOutstanding g = true → f.op.timeouts = 0 →
    ∃ u, exec (.serviceTimer g) s = .next (pump u) ∧ s.LinkReset u ∧
      u.flight? g = some { f with op := { f.op with timeouts := 1 } } ∧
      u.drive.reissue = s.drive.reissue ++ s.abandonedOps ∧ f.op.num ∈ u.drive.reissue ∧
      u.win.flags = s.win.flags) ∧
  (∀ (s : State) (g : SvcTag) (f : Flight), s.inReset = false → s.drive.link = .up → s.flight? g = some f →
    s.svcOutstanding g = true → f.op.timeouts ≠ 0 → s.flightOfOp f.op.num = some f →
    ∃ u, exec (.serviceTimer g) s = .next (pump u) ∧
      u.drive.link = .resetting ∧ u.drive.outstanding = [] ∧ .driveLinkReset ∈ u.out ∧
      f.op.num ∉ u.drive.reissue ∧ u.hasFlag .serviceTimeout = true ∧
      (∀ i, f.op.kind = .store i ∨ f.op.kind = .erase i → u.hasFlag .storeFailed = true) ∧
      (f.op.kind = .headerRead → u.cat.header = .unreadable) ∧
      (∀ i k, f.op.kind = .load i → f.op.owner = .slot k → (s.slot k).phase = .loading →
        (u.slot k).phase = .idle)) ∧
  ∀ (s : State) (g : SvcTag), s.inReset = false →
    (s.flight? g = none ∨ s.drive.link ≠ .up ∨ s.svcOutstanding g = false) →
    exec (.serviceTimer g) s = .next { s with out := [] }

/-- R157, R159: when the drive answers after a reset, the link is up and the commands that wait to be issued again stand
first in the drive issue queue: the read of a load or of the header, the forced write of a store, an erase or a header.
The operations taken back by a host link reset then begin again in their order, each as when it took its tag: a load or
a header read joins the queue with its read; a store, an erase or a header write forms its record again, a store from
its slot as it now stands, under the next generation, and submits the encrypt job. R158, R159: when the drive has not
answered within 10 s of a reset, SERVICE_TIMEOUT is set, the link is reset again, every operation that waited for the
link fails as its kind does, and none waits any more; the order in which they fail is the model's choice
(notes/assumptions/38.md). That outside a reset neither command does anything is the model's
choice (notes/assumptions/4.md). -/
def Obligations.LinkAnswersOrNot : Prop :=
  ((∀ s : State, s.inReset = false → s.drive.link = .resetting →
     exec .driveLinkResetEnd s = .next (s.drive.restart.foldl (fun s n => restartOp n s) { s with
       out := [],
       drive := { s.drive with
         link := .up, reissue := [], restart := [],
         queue := s.drive.reissue.filterMap s.reissueCmd ++ s.drive.queue } })) ∧
   (∀ s : State, s.inReset = false → s.drive.link ≠ .resetting →
     exec .driveLinkResetEnd s = .next { s with out := [] }) ∧
   (∀ (s : State) (n : Nat) (f : Flight), s.flightOfOp n = some f →
     let read (i : Nat) : DriveCmd := { who := .service f.tag, op := .serviceRead, lba := s.catalogueLba i, count := 8 }
     let write (i : Nat) : DriveCmd := { who := .service f.tag, op := .forcedWrite, lba := s.catalogueLba i, count := 8 }
     (∀ i, f.op.kind = .load i → s.reissueCmd n = some (read i) ∧
       restartOp n s = { s with drive := { s.drive with queue := s.drive.queue ++ [read i] } }) ∧
     (f.op.kind = .headerRead → s.reissueCmd n = some (read 0) ∧
       restartOp n s = { s with drive := { s.drive with queue := s.drive.queue ++ [read 0] } }) ∧
     (∀ i, f.op.kind = .store i ∨ f.op.kind = .erase i → s.reissueCmd n = some (write i)) ∧
     (∀ e, f.op.kind = .headerWrite e → s.reissueCmd n = some (write 0)) ∧
     (s.flight? f.tag = some f →
       (∀ i k, f.op.kind = .store i → f.op.owner = .slot k → ∃ x, StoredFields (s.slot k)
           (f.op.extents.getD (recordExtents s.map k)) x ∧
         s.FormsRecord (restartOp n s) f (recordUnit s i x) { title := 0, seq := s.nextGen i, unit := i } ∧
         ((s.claim? i).isSome = true → (restartOp n s).knownGen i = some (s.nextGen i))) ∧
       (∀ i, f.op.kind = .erase i → ∃ x : TitleFields, x.state = .empty ∧ x.key = none ∧ x.extents = [] ∧
         x.expiry = none ∧ x.nextUnit = 0 ∧
         s.FormsRecord (restartOp n s) f (recordUnit s i x) { title := 0, seq := s.nextGen i, unit := i } ∧
         ((s.claim? i).isSome = true → (restartOp n s).knownGen i = some (s.nextGen i))) ∧
       (∀ e, f.op.kind = .headerWrite e →
         let clear : HeaderClear := { marker := true, epoch := e, capacity := s.driveCapacity }
         let tweak : Tweak := { title := 0, seq := 0, unit := 0 }
         s.FormsRecord (restartOp n s) f (.header clear { ours := true, tweak := tweak, check := clear }) tweak))) ∧
   (∀ (s : State) (n : Nat), s.flightOfOp n = none → s.reissueCmd n = none ∧ restartOp n s = s) ∧
   ∀ (s : State) (k : SlotIx),
     (recordExtents s.map k).Perm ((s.map.filter fun e => decide (e.slot = k)).map fun e =>
       { start := e.start, len := e.len, first := e.first }) ∧
     (recordExtents s.map k).Pairwise fun a b => a.first ≤ b.first) ∧
  ((∀ s : State, s.inReset = false → s.drive.link = .resetting →
     ∃ u, exec .linkResetNoAnswer s = .next (pump u) ∧ u.hasFlag .serviceTimeout = true ∧
       u.drive.reissue = [] ∧ u.drive.restart = [] ∧ u.drive.link = .resetting ∧ .driveLinkReset ∈ u.out ∧
       u = (s.drive.reissue ++ s.drive.restart).foldl (fun s n => failOp n s) { s with
         out := [.driveLinkReset], drive := { s.drive with reissue := [], restart := [] },
         win := { s.win with flags := s.win.flags ||| 64#8 } }) ∧
   (∀ s : State, s.inReset = false → s.drive.link ≠ .resetting →
     exec .linkResetNoAnswer s = .next { s with out := [] }) ∧
   (∀ (s : State) (n : Nat) (f : Flight), s.flightOfOp n = some f → s.OpFails (failOp n s) f) ∧
   ∀ (s : State) (n : Nat), s.flightOfOp n = none → failOp n s = s)

/-! ### Admission -/

/-- R69, R88, R205: while the part is in STARTING, or a range sector is being taken, an arriving command is held off
at the host port. That without a host link none arrives, and that one sent then has no effect, is the model's choice
(notes/assumptions/26.md). R73, R77, R189: a queued command whose tag is above 27 or in use
is refused with TAG; one that arrives while the immediate slot is in use, and a non-queued one that arrives while any
slot is, with NOT_NOW. A tag is in use from admission until its completion has been sent, a failed command's too. That a
DEALLOCATE so refused, which has no range yet, is recorded with LBA 0 and count 0 is the model's choice
(notes/assumptions/34.md). -/
def Obligations.ArrivalsTested : Prop :=
  ((∀ (c : Instr) (a : Arrival) (s : State), c.WellFormed = true → arrivalOf c = some a → s.inReset = false →
     s.host.up = true → (s.phase = .starting ∨ s.host.rangeSector ≠ none) →
     exec c s = .next (pump { s with out := [], host := { s.host with held := s.host.held ++ [a] } })) ∧
   ∀ (c : Instr) (a : Arrival) (s : State), c.WellFormed = true → arrivalOf c = some a → s.inReset = false →
     s.host.up = false → exec c s = .next { s with out := [] }) ∧
  (∀ (c : Instr) (a : Arrival) (s : State), c.WellFormed = true → arrivalOf c = some a → s.TakesHost →
     let used (t : HostTag) : Prop :=
       (∃ d ∈ s.table, d.tag = t) ∨ ∃ e ∈ s.host.due, e.tag = t ∧ e.ending ≠ .refused
     let range : Range := a.range.getD { lba := 0, len := 0 }
     let refusedFor (r : Reason) : Prop :=
       ∃ u, exec c s = .next (pump u) ∧ s.quiet.Refuses u a.tag range.lba range.len r
     (∀ n, a.tag = .queued n → 27 < n.val ∨ used (.queued n) → refusedFor .tag) ∧
     (∀ n, a.tag = .queued n → n.val ≤ 27 → ¬ used (.queued n) → used .immediate → refusedFor .notNow) ∧
     (a.tag = .immediate → (∃ t, used t) → refusedFor .notNow))

/-- R75: a READ or WRITE that passes P is refused with HIDDEN, and HIDDEN_AREA counted. One below P that touches the
control window is a WINDOW_READ if it is a READ that lies in the window, a CONTROL_WRITE if it is a WRITE of one
sector at P − 16, and refused with CONTROL_MISUSE, which is counted, otherwise; in lockdown too. The first two have no
pieces. One that lies below the window goes on to the tests of R76. -/
def Obligations.WindowRangesSorted : Prop :=
  ∀ (s : State) (t : HostTag) (x0 c : Nat), s.TakesHost → tagTest s t = none → 1 ≤ c → c ≤ 65536 →
    (s.presented < x0 + c →
      (∃ u, exec (.hostRead t x0 c) s = .next (pump u) ∧ s.quiet.Refuses u t x0 c .hidden) ∧
      ∃ u, exec (.hostWrite t x0 c) s = .next (pump u) ∧ s.quiet.Refuses u t x0 c .hidden) ∧
    (x0 + c ≤ s.presented → s.presented - 16 < x0 + c →
      (s.presented - 16 ≤ x0 → ∃ u k, exec (.hostRead t x0 c) s = .next (pump u) ∧ u.cmd? t = some k ∧
        k.kind = .windowRead ∧ k.lba = x0 ∧ k.count = c ∧ k.pieces = [] ∧ k.state = .active ∧
        u.drive = s.drive ∧ u.mon = s.mon ∧ u.slots = s.slots ∧
        (s.buffer.frames = [] → s.buffer.requests = [] →
          ∃ f ∈ u.buffer.frames, f.holder = t ∧ f.unit = x0 / 8 ∧ f.dir = .toHost ∧ f.cond = .ready)) ∧
      (x0 < s.presented - 16 →
        ∃ u, exec (.hostRead t x0 c) s = .next (pump u) ∧ s.quiet.Refuses u t x0 c .controlMisuse) ∧
      (x0 = s.presented - 16 → c = 1 → exec (.hostWrite t x0 c) s = .next (pump { s with
        out := [],
        table := s.table ++ [{ tag := t, kind := .controlWrite, lba := x0, count := 1, state := .waitControl }] })) ∧
      (¬ (x0 = s.presented - 16 ∧ c = 1) →
        ∃ u, exec (.hostWrite t x0 c) s = .next (pump u) ∧ s.quiet.Refuses u t x0 c .controlMisuse)) ∧
    (x0 + c ≤ s.presented - 16 →
      exec (.hostRead t x0 c) s = .next (pump (admitBelow false t x0 c s.quiet)) ∧
      exec (.hostWrite t x0 c) s = .next (pump (admitBelow true t x0 c s.quiet)))

/-- R42, R43, R76, R79: a READ or WRITE below the control window that meets no extent is one unclaimed piece. Under
PASS it is admitted to ACTIVE and its one run, its own range, joins the drive issue queue; under REFUSE it is refused
with POLICY. R43, R76: any range below the window is cut into pieces at the bounds of extents, in LBA order; a cut into
more than four refuses it with SPAN, and otherwise the first piece in LBA order that fails a test refuses it, with that
test's reason. -/
def Obligations.UnclaimedSpaceFollowsPolicy : Prop :=
  (∀ (s : State) (x0 c : Nat), s.MapOk → 1 ≤ c → CutInto s.map x0 (x0 + c) (cutPieces 5 s.map x0 (x0 + c))) ∧
  (∀ (s : State) (t : HostTag) (x0 c : Nat) (write : Bool), s.TakesHost → tagTest s t = none → 1 ≤ c → c ≤ 65536 →
    x0 + c ≤ s.presented - 16 →
    let ps := cutPieces 5 s.map x0 (x0 + c)
    let refused (r : Reason) : Prop :=
      ∃ u, exec (if write then .hostWrite t x0 c else .hostRead t x0 c) s = .next (pump u) ∧ s.quiet.Refuses u t x0 c r
    (4 < ps.length → refused .span) ∧
    (ps.length ≤ 4 → ∀ before p after e, ps = before ++ p :: after →
      (∀ q ∈ before, ∃ x, testPiece write s q = .ok x) → testPiece write s p = .error e → refused e.reason)) ∧
  ∀ (s : State) (t : HostTag) (x0 c : Nat), s.TakesHost → tagTest s t = none → s.MapOk → 1 ≤ c → c ≤ 65536 →
    x0 + c ≤ s.presented - 16 → (∀ e ∈ s.map, 8 * e.stop ≤ x0 ∨ x0 + c ≤ 8 * e.start) →
    (s.win.readPolicy = .pass → ∃ u k, exec (.hostRead t x0 c) s = .next (pump u) ∧ u.cmd? t = some k ∧
      k.kind = .read ∧ k.lba = x0 ∧ k.count = c ∧ k.pieces = [{ lba := x0, count := c }] ∧
      k.runs = [{ lba := x0, len := c }] ∧ k.state = .active ∧
      u.drive = { s.drive with queue := s.drive.queue ++ [{ who := .host t, op := .read, lba := x0, count := c }] } ∧
      u.slots = s.slots ∧ u.mon = s.mon) ∧
    (s.win.writePolicy = .pass → ∃ u k, exec (.hostWrite t x0 c) s = .next (pump u) ∧ u.cmd? t = some k ∧
      k.kind = .write ∧ k.lba = x0 ∧ k.count = c ∧ k.pieces = [{ lba := x0, count := c }] ∧
      k.runs = [{ lba := x0, len := c }] ∧ k.merges = [] ∧ k.state = .active ∧
      u.drive = { s.drive with queue := s.drive.queue ++ [{ who := .host t, op := .write, lba := x0, count := c }] } ∧
      u.slots = s.slots ∧ u.mon = s.mon) ∧
    (s.win.readPolicy = .refuse →
      ∃ u, exec (.hostRead t x0 c) s = .next (pump u) ∧ s.quiet.Refuses u t x0 c .policy) ∧
    (s.win.writePolicy = .refuse →
      ∃ u, exec (.hostWrite t x0 c) s = .next (pump u) ∧ s.quiet.Refuses u t x0 c .policy)

/-- R76: a READ or WRITE that lies in one extent is tested against the extent's slot in this order: lockdown, the
halted flag, the phase, and then for a write the title's state, for a read of a recording with an expiry the clock.
Every protected piece of a longer command is tested so, and an unclaimed one against the policy (R42). That a halted
slot in DRAINING is refused with HALTED follows R76, where R181 speaks of CLOSING (notes/assumptions/36.md). -/
def Obligations.TitleTestsInOrder : Prop :=
  (∀ (s : State) (write : Bool) (p : Piece), p.owned = none →
    ((if write then s.win.writePolicy else s.win.readPolicy) = .pass → testPiece write s p = .ok { piece := p }) ∧
    ((if write then s.win.writePolicy else s.win.readPolicy) = .refuse →
      testPiece write s p = .error { reason := .policy })) ∧
  (∀ (s : State) (write : Bool) (p : Piece) (o : Owned), p.owned = some o →
    let k := s.slot o.slot
    (s.mon.state = .lockdown → testPiece write s p = .error { reason := .lockdown }) ∧
    (s.mon.state ≠ .lockdown → k.halted = true → testPiece write s p = .error { reason := .halted }) ∧
    (s.mon.state ≠ .lockdown → k.halted = false → k.phase ≠ .active →
      testPiece write s p = .error { reason := .closing }) ∧
    (s.mon.state ≠ .lockdown → k.halted = false → k.phase = .active →
      (write = true → k.state ≠ some .recording →
        testPiece write s p = .error { reason := .sealed, named := [o.slot] }) ∧
      (write = false → k.kind = some .recording → k.expiry ≠ none → s.clock = none →
        testPiece write s p = .error { reason := .clockUnset }) ∧
      ((write = true → k.state = some .recording) →
        (write = false → ¬ (k.kind = some .recording ∧ k.expiry ≠ none ∧ s.clock = none)) → k.ring = none →
        testPiece write s p =
          .ok { piece := { p with owned := some { o with title := k.number.getD 0 } } }))) ∧
  ∀ (s : State) (t : HostTag) (x0 c : Nat) (e : Extent), s.TakesHost → tagTest s t = none → s.MapOk → e ∈ s.map →
    1 ≤ c → c ≤ 65536 → 8 * e.start ≤ x0 → x0 + c ≤ 8 * e.stop → x0 + c ≤ s.presented - 16 →
    let k := s.slot e.slot
    let readRefused (r : Reason) : Prop :=
      ∃ u, exec (.hostRead t x0 c) s = .next (pump u) ∧ s.quiet.Refuses u t x0 c r
    let writeRefused (r : Reason) : Prop :=
      ∃ u, exec (.hostWrite t x0 c) s = .next (pump u) ∧ s.quiet.Refuses u t x0 c r
    (s.mon.state = .lockdown → readRefused .lockdown ∧ writeRefused .lockdown) ∧
    (s.mon.state ≠ .lockdown → k.halted = true → readRefused .halted ∧ writeRefused .halted) ∧
    (s.mon.state ≠ .lockdown → k.halted = false → k.phase ≠ .active → readRefused .closing ∧ writeRefused .closing) ∧
    (s.mon.state ≠ .lockdown → k.halted = false → k.phase = .active → k.state ≠ some .recording →
      writeRefused .sealed) ∧
    (s.mon.state ≠ .lockdown → k.halted = false → k.phase = .active → k.kind = some .recording → k.expiry ≠ none →
      s.clock = none → readRefused .clockUnset)

/-- R76, R78, R79, R105: a READ that lies in one extent of an ACTIVE recording is admitted, its one piece counting in
the slot's in-flight count under the current key generation; its runs are the whole units it touches. It enters ACTIVE
and its first run joins the drive issue queue, or it waits for the earlier writes that share a unit with it. R16, R18,
R43, R44: a READ of up to four pieces, unclaimed under PASS or of such recordings, is admitted in the same way, with
every piece counted in its slot. -/
def Obligations.TitleReadAdmitted : Prop :=
  (∀ (s : State) (t : HostTag) (x0 c : Nat), s.TakesHost → tagTest s t = none → s.MapOk → 1 ≤ c → c ≤ 65536 →
    x0 + c ≤ s.presented - 16 →
    let ps := cutPieces 5 s.map x0 (x0 + c)
    ps.length ≤ 4 → (∀ p ∈ ps, p.owned = none → s.win.readPolicy = .pass) →
    (∀ p ∈ ps, ∀ o, p.owned = some o → s.mon.state ≠ .lockdown ∧ (s.slot o.slot).halted = false ∧
      (s.slot o.slot).phase = .active ∧ (s.slot o.slot).kind = some .recording ∧ (s.slot o.slot).ring = none ∧
      ((s.slot o.slot).expiry = none ∨ s.clock ≠ none)) →
    ∃ u k, exec (.hostRead t x0 c) s = .next (pump u) ∧ u.cmd? t = some k ∧ k.kind = .read ∧ k.lba = x0 ∧
      k.count = c ∧ k.pieces = ps.map s.taken ∧ k.runs = runsOver (driveSpan ps).1 (driveSpan ps).2 ∧
      (∀ i, u.slot i = { s.slot i with inFlight := (s.slot i).inFlight + (ownedOn ps i).length }) ∧
      u.mon = s.mon ∧ u.map = s.map ∧
      (∀ w, w ∈ k.waitFor ↔ ∃ o ∈ s.table, o.tag = w ∧ o.kind = .write ∧
        ∃ r ∈ o.unitRanges, piecesMeet ps r) ∧
      (k.waitFor = [] → k.state = .active ∧ ∀ r, k.runs.head? = some r →
        u.drive = { s.drive with
          queue := s.drive.queue ++ [{ who := .host t, op := .read, lba := r.lba, count := r.len }] }) ∧
      (k.waitFor ≠ [] → k.state = .waitOverlap ∧ u.drive = s.drive ∧ u.buffer = s.buffer)) ∧
  ∀ (s : State) (t : HostTag) (x0 c : Nat) (e : Extent), s.TakesHost → tagTest s t = none → s.MapOk → e ∈ s.map →
    1 ≤ c → c ≤ 65536 → 8 * e.start ≤ x0 → x0 + c ≤ 8 * e.stop → x0 + c ≤ s.presented - 16 →
    s.mon.state ≠ .lockdown → (s.slot e.slot).halted = false → (s.slot e.slot).phase = .active →
    (s.slot e.slot).kind = some .recording → (s.slot e.slot).ring = none →
    ((s.slot e.slot).expiry = none ∨ s.clock ≠ none) →
    ∃ u k, exec (.hostRead t x0 c) s = .next (pump u) ∧ u.cmd? t = some k ∧ k.kind = .read ∧ k.lba = x0 ∧
      k.count = c ∧ k.pieces = [pieceAt s e x0 c] ∧ k.runs = unitRuns (x0 / 8) ((x0 + c - 1) / 8) ∧
      u.slot e.slot = { s.slot e.slot with inFlight := (s.slot e.slot).inFlight + 1 } ∧
      (∀ j, j ≠ e.slot → u.slot j = s.slot j) ∧ u.mon = s.mon ∧ u.map = s.map ∧
      (∀ w, w ∈ k.waitFor ↔ ∃ o ∈ s.table, o.tag = w ∧ o.kind = .write ∧
        ∃ r ∈ o.unitRanges, r.1 ≤ (x0 + c - 1) / 8 ∧ x0 / 8 ≤ r.2) ∧
      (k.waitFor = [] → k.state = .active ∧ ∀ r, k.runs.head? = some r →
        u.drive = { s.drive with
          queue := s.drive.queue ++ [{ who := .host t, op := .read, lba := r.lba, count := r.len }] }) ∧
      (k.waitFor ≠ [] → k.state = .waitOverlap ∧ u.drive = s.drive ∧ u.buffer = s.buffer)

/-- R76, R78, R79, R96 to R99, R105: a WRITE that lies in one extent of an ACTIVE recording in state RECORDING is
admitted as a read is. Its merge list names its first unit, where it covers that unit in part, and its last, where
that is another unit and covered in part, each to be read back and under the tweak of its logical unit. It waits for
every earlier command that shares a unit with it; else with a merge unit its first merge read joins the drive issue
queue, and without one its first run does. R16, R18, R43, R44: a WRITE of up to four pieces, unclaimed under PASS or of
such recordings, is admitted in the same way, with every piece counted in its slot; its first and its last unit merge
only where they are protected. -/
def Obligations.TitleWriteAdmitted : Prop :=
  (∀ (s : State) (t : HostTag) (x0 c : Nat), s.TakesHost → tagTest s t = none → s.MapOk → 1 ≤ c → c ≤ 65536 →
    x0 + c ≤ s.presented - 16 →
    let ps := cutPieces 5 s.map x0 (x0 + c)
    let a := x0 / 8
    let b := (x0 + c - 1) / 8
    let protect (p : Option Piece) : Bool := (p.bind (·.owned)).isSome
    let head : List Nat := if protect ps.head? ∧ (x0 % 8 ≠ 0 ∨ (a = b ∧ (x0 + c) % 8 ≠ 0)) then [a] else []
    let tail : List Nat := if protect ps.getLast? ∧ a ≠ b ∧ (x0 + c) % 8 ≠ 0 then [b] else []
    ps.length ≤ 4 → (∀ p ∈ ps, p.owned = none → s.win.writePolicy = .pass) →
    (∀ p ∈ ps, ∀ o, p.owned = some o → s.mon.state ≠ .lockdown ∧ (s.slot o.slot).halted = false ∧
      (s.slot o.slot).phase = .active ∧ (s.slot o.slot).state = some .recording ∧ (s.slot o.slot).ring = none) →
    ∃ u k, exec (.hostWrite t x0 c) s = .next (pump u) ∧ u.cmd? t = some k ∧ k.kind = .write ∧ k.lba = x0 ∧
      k.count = c ∧ k.pieces = ps.map s.taken ∧ k.runs = runsOver (driveSpan ps).1 (driveSpan ps).2 ∧
      k.merges.map (·.unit) = head ++ tail ∧
      (∀ m ∈ k.merges, m.base = .read ∧ m.lo = (if m.unit = a then x0 % 8 else 0) ∧
        m.hi = (if m.unit = b then (x0 + c - 1) % 8 else 7) ∧
        ∃ p ∈ k.pieces, ∃ o, p.owned = some o ∧ p.lba / 8 ≤ m.unit ∧ m.unit ≤ (p.lba + p.count - 1) / 8 ∧
          m.gen = o.gen ∧ m.tweak = { title := o.title, seq := 0, unit := o.first + (m.unit - o.extStart) }) ∧
      (∀ i, u.slot i = { s.slot i with inFlight := (s.slot i).inFlight + (ownedOn ps i).length }) ∧
      u.mon = s.mon ∧ u.map = s.map ∧
      (∀ w, w ∈ k.waitFor ↔ ∃ o ∈ s.table, o.tag = w ∧ ∃ r ∈ o.unitRanges, piecesMeet ps r) ∧
      (k.waitFor ≠ [] → k.state = .waitOverlap ∧ u.drive = s.drive ∧ u.buffer = s.buffer ∧
        ∀ m ∈ k.merges, m.state = .pending) ∧
      (k.waitFor = [] → ∀ v, (head ++ tail).head? = some v → k.state = .mergeRead ∧ u.buffer = s.buffer ∧
        (∀ m ∈ k.merges, m.state = if m.unit = v then .reading else .pending) ∧
        u.drive = { s.drive with
          queue := s.drive.queue ++ [{ who := .host t, op := .mergeRead, lba := 8 * v, count := 8 }] }) ∧
      (k.waitFor = [] → head ++ tail = [] → k.state = .active ∧ ∀ r, k.runs.head? = some r →
        u.drive = { s.drive with
          queue := s.drive.queue ++ [{ who := .host t, op := .write, lba := r.lba, count := r.len }] })) ∧
  ∀ (s : State) (t : HostTag) (x0 c : Nat) (e : Extent), s.TakesHost → tagTest s t = none → s.MapOk → e ∈ s.map →
    1 ≤ c → c ≤ 65536 → 8 * e.start ≤ x0 → x0 + c ≤ 8 * e.stop → x0 + c ≤ s.presented - 16 →
    s.mon.state ≠ .lockdown → (s.slot e.slot).halted = false → (s.slot e.slot).phase = .active →
    (s.slot e.slot).state = some .recording → (s.slot e.slot).ring = none →
    let a := x0 / 8
    let b := (x0 + c - 1) / 8
    let head : List Nat := if x0 % 8 ≠ 0 ∨ (a = b ∧ (x0 + c) % 8 ≠ 0) then [a] else []
    let tail : List Nat := if a ≠ b ∧ (x0 + c) % 8 ≠ 0 then [b] else []
    ∃ u k, exec (.hostWrite t x0 c) s = .next (pump u) ∧ u.cmd? t = some k ∧ k.kind = .write ∧ k.lba = x0 ∧
      k.count = c ∧ k.pieces = [pieceAt s e x0 c] ∧ k.runs = unitRuns a b ∧
      k.merges.map (·.unit) = head ++ tail ∧
      (∀ m ∈ k.merges, m.base = .read ∧ m.lo = (if m.unit = a then x0 % 8 else 0) ∧
        m.hi = (if m.unit = b then (x0 + c - 1) % 8 else 7) ∧ m.gen = (s.slot e.slot).gen.getD 0 ∧
        m.tweak = { title := (s.slot e.slot).number.getD 0, seq := 0, unit := e.first + (m.unit - e.start) }) ∧
      u.slot e.slot = { s.slot e.slot with inFlight := (s.slot e.slot).inFlight + 1 } ∧
      (∀ j, j ≠ e.slot → u.slot j = s.slot j) ∧ u.mon = s.mon ∧ u.map = s.map ∧
      (∀ w, w ∈ k.waitFor ↔ ∃ o ∈ s.table, o.tag = w ∧ ∃ r ∈ o.unitRanges, r.1 ≤ b ∧ a ≤ r.2) ∧
      (k.waitFor ≠ [] → k.state = .waitOverlap ∧ u.drive = s.drive ∧ u.buffer = s.buffer ∧
        ∀ m ∈ k.merges, m.state = .pending) ∧
      (k.waitFor = [] → ∀ v, (head ++ tail).head? = some v → k.state = .mergeRead ∧ u.buffer = s.buffer ∧
        (∀ m ∈ k.merges, m.state = if m.unit = v then .reading else .pending) ∧
        u.drive = { s.drive with
          queue := s.drive.queue ++ [{ who := .host t, op := .mergeRead, lba := 8 * v, count := 8 }] }) ∧
      (k.waitFor = [] → head ++ tail = [] → k.state = .active ∧ ∀ r, k.runs.head? = some r →
        u.drive = { s.drive with
          queue := s.drive.queue ++ [{ who := .host t, op := .write, lba := r.lba, count := r.len }] })

/-- R54, R55, R57, R58: the ring test of one segment on a trial copy. Without a head any segment starts with the lap
after the lap counter; the head itself is taken as it is; the segment after the head starts with the head's lap, or
one lap on where it is segment 0; any other is refused with RING_ORDER. A start beyond lap 65,535 is refused with
REKEY_BUSY while a retired key is present, and otherwise rekeys: every other segment is empty and this one has lap 1.
-/
def Obligations.RingTestedInOrder : Prop :=
  ∀ (t : Trial) (k : Nat) (clock : Option Nat) (retired : Bool), RingOk t.ring → k < t.ring.m →
    let entry (lap : Nat) : Segment := { lap := lap, firstWrite := clock, stamp := t.ring.retention }
    let started (lap : Nat) : Prop := ∃ t', t.touch k clock retired = .ok t' ∧
      t'.ring = { t.ring with head := some k, lapCounter := lap, segs := t.ring.segs.set k (entry lap) } ∧
      t'.laps = t.laps ++ [{ seg := k, lap := lap, started := true }] ∧ t'.rekeyed = t.rekeyed
    let beyond : Prop := (t.ring.head = none ∧ 65535 ≤ t.ring.lapCounter) ∨
      ∃ h, t.ring.head = some h ∧ k ≠ h ∧ k = (h + 1) % t.ring.m ∧ k = 0 ∧ 65535 ≤ (t.ring.seg h).lap
    (t.ring.head = none → t.ring.lapCounter < 65535 → started (t.ring.lapCounter + 1)) ∧
    (∀ h, t.ring.head = some h → k = h → t.touch k clock retired =
      .ok { t with laps := t.laps ++ [{ seg := k, lap := (t.ring.seg h).lap }] }) ∧
    (∀ h, t.ring.head = some h → k ≠ h → k = (h + 1) % t.ring.m → k ≠ 0 → (t.ring.seg h).lap ≤ 65535 →
      started (t.ring.seg h).lap) ∧
    (∀ h, t.ring.head = some h → k ≠ h → k = (h + 1) % t.ring.m → k = 0 → (t.ring.seg h).lap < 65535 →
      started ((t.ring.seg h).lap + 1)) ∧
    (∀ h, t.ring.head = some h → k ≠ h → k ≠ (h + 1) % t.ring.m → t.touch k clock retired = .error .ringOrder) ∧
    (beyond → retired = true → t.touch k clock retired = .error .rekeyBusy) ∧
    (beyond → retired = false → ∃ t', t.touch k clock retired = .ok t' ∧ t'.rekeyed = true ∧
      t'.laps = t.laps ++ [{ seg := k, lap := 1, started := true }] ∧
      t'.ring = { t.ring with head := some k, lapCounter := 1,
                              segs := (t.ring.segs.map fun _ => {}).set k (entry 1) })

/-- R53, R54, R55, R57, R63, R64: the three statements of R53 hold of a new ring and are kept by the ring test over
any segments of the ring, by RING_EMPTY and by a tighter retention. -/
def Obligations.RingOrderKept : Prop :=
  (∀ size retention, 64 ≤ size → RingOk (newRing size retention)) ∧
  (∀ (clock : Option Nat) (retired : Bool) (ks : List Nat) (t t' : Trial), RingOk t.ring → (∀ k ∈ ks, k < t.ring.m) →
    ringTest clock retired ks t = .ok t' → RingOk t'.ring) ∧
  (∀ r : Ring, RingOk r → RingOk r.emptied) ∧
  ∀ (x : Nat) (r : Ring), RingOk r → RingOk (r.tighten x)

/-- R54 to R56, R17, R57: a WRITE in the extent of an ACTIVE ring that passes the ring test is admitted, its piece with
the lap list of the test, and the ring takes the trial copy; by a rekey a fresh key becomes current with the next
generation, and RING_REKEYED is set; the old key is destroyed if no piece of the slot is in flight, and else retired
with its generation and their count. R51, R79, R96 to R99, R105: its runs are the whole units it touches, and it merges
as a write of a recording does, but a merge unit of a segment that it starts has base ZERO and is not read; another is
read back, under the lap that the lap list records for its segment. The tweak of a unit of a ring is its title number,
the lap that the piece records for its segment, and its offset. The write waits for every earlier command that shares a
unit with it; else it reads its first READ base, or is ACTIVE with its first run. One that fails the ring test is
refused and the ring is as it was. R16, R19: when a piece ends its slot's in-flight count falls by one, and if the piece
references the retired generation so does the retired key's count; at 0 the retired key is destroyed. R11: a slot in
DRAINING stays there while a piece or a store is in flight, and leaves with its last. -/
def Obligations.RingWriteAdmitted : Prop :=
  (∀ (o : Owned) (u : Nat), o.laps = none →
    o.tweak u = { title := o.title, seq := 0, unit := o.first + (u - o.extStart) }) ∧
  (∀ (o : Owned) (u : Nat) (before : List LapEntry) (l : LapEntry) (after : List LapEntry),
    o.laps = some (before ++ l :: after) → l.seg = (u - o.extStart) / o.g → (∀ x ∈ before, x.seg ≠ l.seg) →
    o.tweak u = { title := o.title, seq := l.lap, unit := u - o.extStart }) ∧
  (∀ (s : State) (p : Piece), p.owned = none → endPiece p s = s) ∧
  (∀ (s : State) (p : Piece) (o : Owned), p.owned = some o →
    let t := s.slot o.slot
    let t' : TitleSlot := { t with
      inFlight := t.inFlight - 1
      retired := match t.retired with
        | none => none
        | some x => if x.gen = o.gen then (if x.refs ≤ 1 then none else some { x with refs := x.refs - 1 }) else some x }
    (t.phase ≠ .draining ∨ 1 < t.inFlight ∨ t.storeInFlight = true →
      endPiece p s = { s with slots := s.slots.set o.slot t' }) ∧
    (t.phase = .draining → t.inFlight ≤ 1 → t.storeInFlight = false →
      ((endPiece p s).slot o.slot).phase ≠ .draining ∧ ∀ e ∈ (endPiece p s).map, e.slot ≠ o.slot)) ∧
  ∀ (s : State) (t : HostTag) (x0 c : Nat) (e : Extent) (r : Ring), s.TakesHost → tagTest s t = none → s.MapOk →
    e ∈ s.map → 1 ≤ c → c ≤ 65536 → 8 * e.start ≤ x0 → x0 + c ≤ 8 * e.stop → x0 + c ≤ s.presented - 16 →
    s.mon.state ≠ .lockdown → (s.slot e.slot).halted = false → (s.slot e.slot).phase = .active →
    (s.slot e.slot).state = some .recording → (s.slot e.slot).ring = some r →
    let a := x0 / 8
    let b := (x0 + c - 1) / 8
    let touched := segsTouched r.g (a - e.start) (b - e.start)
    let test := ringTest s.clock (s.slot e.slot).retired.isSome touched { ring := r }
    let head : List Nat := if x0 % 8 ≠ 0 ∨ (a = b ∧ (x0 + c) % 8 ≠ 0) then [a] else []
    let tail : List Nat := if a ≠ b ∧ (x0 + c) % 8 ≠ 0 then [b] else []
    (∀ tr, test = .ok tr → ∃ u k o, exec (.hostWrite t x0 c) s = .next (pump u) ∧ u.cmd? t = some k ∧
      k.kind = .write ∧ k.lba = x0 ∧ k.count = c ∧ k.pieces = [{ lba := x0, count := c, owned := some o }] ∧
      o.laps = some tr.laps ∧ tr.laps.map (·.seg) = touched ∧ o.title = (s.slot e.slot).number.getD 0 ∧
      o.g = r.g ∧ o.slot = e.slot ∧ o.extStart = e.start ∧ o.first = e.first ∧ u.mon = s.mon ∧ u.map = s.map ∧
      (∀ j, j ≠ e.slot → u.slot j = s.slot j) ∧ k.runs = unitRuns a b ∧ k.merges.map (·.unit) = head ++ tail ∧
      (∀ m ∈ k.merges, m.lo = (if m.unit = a then x0 % 8 else 0) ∧ m.hi = (if m.unit = b then (x0 + c - 1) % 8 else 7) ∧
        m.gen = o.gen ∧ ∀ l ∈ tr.laps, l.seg = (m.unit - e.start) / r.g →
          m.base = (if l.started then .zero else .read) ∧
          m.tweak = { title := o.title, seq := l.lap, unit := m.unit - e.start }) ∧
      (∀ w, w ∈ k.waitFor ↔ ∃ q ∈ s.table, q.tag = w ∧ ∃ x ∈ q.unitRanges, x.1 ≤ b ∧ a ≤ x.2) ∧
      (k.waitFor ≠ [] → k.state = .waitOverlap ∧ u.drive = s.drive ∧ u.buffer = s.buffer ∧
        ∀ m ∈ k.merges, m.state = if m.base = .zero then .zero else .pending) ∧
      (k.waitFor = [] → ∀ before m after, k.merges = before ++ m :: after → m.base = .read →
        (∀ x ∈ before, x.base = .zero) → k.state = .mergeRead ∧ u.buffer = s.buffer ∧ m.state = .reading ∧
        (∀ x ∈ before, x.state = .zero) ∧ (∀ x ∈ after, x.state = if x.base = .zero then .zero else .pending) ∧
        u.drive = { s.drive with
          queue := s.drive.queue ++ [{ who := .host t, op := .mergeRead, lba := 8 * m.unit, count := 8 }] }) ∧
      (k.waitFor = [] → (∀ m ∈ k.merges, m.base = .zero) → k.state = .active ∧ (∀ m ∈ k.merges, m.state = .zero) ∧
        ∀ x, k.runs.head? = some x → u.drive = { s.drive with
          queue := s.drive.queue ++ [{ who := .host t, op := .write, lba := x.lba, count := x.len }] }) ∧
      (tr.rekeyed = false → o.gen = (s.slot e.slot).gen.getD 0 ∧ u.win = s.win ∧
        u.slot e.slot = { s.slot e.slot with inFlight := (s.slot e.slot).inFlight + 1, ring := some tr.ring }) ∧
      (tr.rekeyed = true → (u.slot e.slot).key = some ⟨s.draws⟩ ∧ u.draws = s.draws + 1 ∧
        (u.slot e.slot).gen = some o.gen ∧ o.gen = nextNumber 65535 ((s.slot e.slot).gen.getD 0) ∧
        (u.slot e.slot).ring = some tr.ring ∧ u.hasFlag .ringRekeyed = true ∧
        (u.slot e.slot).inFlight = (s.slot e.slot).inFlight + 1 ∧
        ∀ x g, (s.slot e.slot).key = some x → (s.slot e.slot).gen = some g →
          (u.slot e.slot).retired = if (s.slot e.slot).inFlight = 0 then none
            else some { key := x, gen := g, refs := (s.slot e.slot).inFlight })) ∧
    (test = .error .ringOrder →
      ∃ u, exec (.hostWrite t x0 c) s = .next (pump u) ∧ s.quiet.Refuses u t x0 c .ringOrder) ∧
    (test = .error .rekeyBusy →
      ∃ u, exec (.hostWrite t x0 c) s = .next (pump u) ∧ s.quiet.Refuses u t x0 c .rekeyBusy)

/-- R60, R61, R179: a READ in the extent of an ACTIVE ring is admitted with a lap list whose readable marks are those of
R60: a written segment with stamp 0, or with a first-write time less than its stamp before the set clock. If a segment
is not readable one EXPIRED_READ is counted, with its reaction as it stands. R61, R79: its runs are, in order, the units
that lie in readable segments; the others are filled with zeros, and with none to be read the command is in ENDING at
once. R117, R120: a READ asks for a frame for its next unit, the one after those received, exactly if that unit is to be
filled with zeros; where R117 says both that the unit before has its frame and that it has been received, the second is
the model's reading (notes/assumptions/12.md). Granted, the frame is READY with zeros and the unit counts as received.
-/
def Obligations.RingReadAdmitted : Prop :=
  (∀ (s : State) (c : Cmd), c.kind = .read → c.received < c.units → (c.state = .active ∨ c.state = .ending) →
    (∀ q ∈ s.buffer.requests, q.tag = c.tag → q.kind ≠ .fill) →
    let v := c.firstUnit + c.received
    let r : Req := { kind := .fill, cls := .play, tag := c.tag, unit := v }
    (c.zeroFilled v = false → wanted c s = .nothing) ∧
    (c.zeroFilled v = true → wanted c s = .ask r) ∧
    (s.cmd? c.tag = some c → s.buffer.frames.length < 60 → ∃ f ∈ (grant r s).buffer.frames, f.holder = c.tag ∧
      f.unit = v ∧ f.cond = .ready ∧ f.dir = .toHost ∧ f.data = UnitData.zero ∧
      ∃ k, (grant r s).cmd? c.tag = some k ∧ k.received = c.received + 1)) ∧
  (∀ (c : Cmd) (v : Nat) (o : Owned) (laps : List LapEntry), c.kind = .read → c.ownedOf v = some o →
    o.laps = some laps →
    (c.zeroFilled v = false ↔ ∃ before l after, laps = before ++ l :: after ∧ l.seg = (v - o.extStart) / o.g ∧
      l.readable = true ∧ ∀ l' ∈ before, l'.seg ≠ (v - o.extStart) / o.g)) ∧
  ∀ (s : State) (t : HostTag) (x0 c : Nat) (e : Extent) (r : Ring), s.TakesHost → tagTest s t = none → s.MapOk →
    e ∈ s.map → 1 ≤ c → c ≤ 65536 → 8 * e.start ≤ x0 → x0 + c ≤ 8 * e.stop → x0 + c ≤ s.presented - 16 →
    s.mon.state ≠ .lockdown → (s.slot e.slot).halted = false → (s.slot e.slot).phase = .active →
    (s.slot e.slot).kind = some .ring → (s.slot e.slot).ring = some r → 1 ≤ r.g →
    let readable (k : Nat) : Prop := (r.seg k).lap ≠ 0 ∧ ((r.seg k).stamp = 0 ∨
      ∃ f now, (r.seg k).firstWrite = some f ∧ s.clock = some now ∧ now < f + (r.seg k).stamp)
    let touched := segsTouched r.g (x0 / 8 - e.start) ((x0 + c - 1) / 8 - e.start)
    ∃ u k o laps, exec (.hostRead t x0 c) s = .next (pump u) ∧ u.cmd? t = some k ∧ k.kind = .read ∧
      k.pieces = [{ lba := x0, count := c, owned := some o }] ∧ o.laps = some laps ∧ laps.map (·.seg) = touched ∧
      o.slot = e.slot ∧ o.g = r.g ∧ o.extStart = e.start ∧ o.gen = (s.slot e.slot).gen.getD 0 ∧
      (∀ l ∈ laps, l.lap = (r.seg l.seg).lap ∧ (l.readable = true ↔ readable l.seg)) ∧
      (∀ v, x0 / 8 ≤ v → v ≤ (x0 + c - 1) / 8 →
        ((∃ x ∈ k.runs, x.lba ≤ 8 * v ∧ 8 * v + 8 ≤ x.lba + x.len) ↔ readable ((v - e.start) / r.g)) ∧
        (k.zeroFilled v = true ↔ ¬ readable ((v - e.start) / r.g))) ∧
      (∀ x ∈ k.runs, 8 * (x0 / 8) ≤ x.lba ∧ x.lba + x.len ≤ 8 * ((x0 + c - 1) / 8) + 8 ∧ 1 ≤ x.len ∧ x.len ≤ 65536) ∧
      (k.runs.Pairwise fun x y => x.lba + x.len ≤ y.lba) ∧
      (k.waitFor = [] → (k.runs = [] → k.state = .ending ∧ u.drive = s.drive) ∧ ∀ x, k.runs.head? = some x →
        k.state = .active ∧ u.drive = { s.drive with
          queue := s.drive.queue ++ [{ who := .host t, op := .read, lba := x.lba, count := x.len }] }) ∧
      (k.waitFor ≠ [] → k.state = .waitOverlap ∧ u.drive = s.drive ∧ u.buffer = s.buffer) ∧
      (u.slot e.slot).inFlight = (s.slot e.slot).inFlight + 1 ∧ (u.slot e.slot).ring = some r ∧
      u.mon.refusal = s.mon.refusal ∧
      ((∀ g ∈ touched, readable g) → u.mon = s.mon ∧ u.win = s.win) ∧
      ((∃ g ∈ touched, ¬ readable g) →
        let v := violate .expiredRead [e.slot] s
        u.mon.counters[(6 : Fin 10)] = min 65535 (s.mon.counters[(6 : Fin 10)] + 1) ∧
        (s.mon.reactions[(6 : Fin 10)] = .halt → (u.slot e.slot).halted = true) ∧
        u.mon = v.mon ∧ u.win = v.win ∧ ∀ i, (u.slot i).halted = (v.slot i).halted)

/-- R74: the commands of the kinds that R74 refuses, and a queued IDENTIFY or PASS, are refused with CAPACITY. R74,
R87, R88, R90, R91: a DEALLOCATE starts the taking of its range sector; a FLUSH with nothing to wait for, and a non-
queued PASS, enter ACTIVE and join the drive issue queue; a FLUSH behind writes, deallocates or stores waits for them;
a non-queued IDENTIFY enters ACTIVE and is answered from a frame. R87: as a store ends, a FLUSH that waited for it alone
enters ACTIVE and joins the queue, and one that waits for more goes on waiting. R90: the answer to IDENTIFY gives the
presented capacity, the queue depth 28, and the security and maximum-address feature sets as not supported; all else in
it is as the drive's identity has it. How a sector spells these is free (notes/assumptions/17.md). -/
def Obligations.OtherKindsSorted : Prop :=
  (∀ (s : State) (n : Nat) (k : Cmd), s.TableOk → k ∈ s.table → k.kind = .flush → k.state = .waitOverlap →
    (k.waitFor = [] → (∀ m ∈ k.waitStores, m = n) → ∃ k', (storeEnded n s).cmd? k.tag = some k' ∧ k'.state = .active ∧
      { who := .host k.tag, op := .flush } ∈ (storeEnded n s).drive.queue) ∧
    (k.waitFor ≠ [] ∨ (∃ m ∈ k.waitStores, m ≠ n) → (storeEnded n s).cmd? k.tag =
      some { k with waitStores := k.waitStores.filter fun m => decide (m ≠ n) })) ∧
  (∀ (s : State) (d : Identity), s.identity = some d → ∃ x, s.identityUnit[(0 : Fin 8)] = x ∧
    identityField x .capacity = s.presented % 2 ^ 64 ∧ identityField x .depth = 28 ∧
    identityField x .security = 0 ∧ identityField x .maxAddress = 0 ∧
    (Config.identityLayout.symm x).toNat >>> 74 = (Config.identityLayout.symm d.sector).toNat >>> 74) ∧
  (∀ (s : State) (t : HostTag), s.TakesHost → tagTest s t = none →
     (∀ range : Option Range, ∃ u, exec (.capacityRefusedCommand t range) s = .next (pump u) ∧
       s.quiet.Refuses u t (range.getD ⟨0, 0⟩).lba (range.getD ⟨0, 0⟩).len .capacity ∧
       u.mon = { s.mon with refusal := u.mon.refusal } ∧ u.slots = s.slots ∧ u.win = s.win) ∧
     (queuedWho (.host t) = true →
       (∃ u, exec (.identify t) s = .next (pump u) ∧ s.quiet.Refuses u t 0 0 .capacity) ∧
       ∀ (words : Nat) (data : PassData), passOk data = true →
         ∃ u, exec (.pass t words data) s = .next (pump u) ∧ s.quiet.Refuses u t 0 0 .capacity)) ∧
  (∀ (s : State) (t : HostTag), s.TakesHost → tagTest s t = none →
     exec (.deallocate t) s = .next (pump { s with out := [], host := { s.host with rangeSector := some t } }) ∧
     (s.flushWaits = [] → s.storesPending = [] → exec (.flush t) s = .next (pump { s with
       out := [], table := s.table ++ [{ tag := t, kind := .flush, state := .active }],
       drive := { s.drive with queue := s.drive.queue ++ [{ who := .host t, op := .flush }] } })) ∧
     (s.flushWaits ≠ [] ∨ s.storesPending ≠ [] → exec (.flush t) s = .next (pump { s with
       out := [], table := s.table ++ [{ tag := t, kind := .flush, state := .waitOverlap, waitFor := s.flushWaits,
                                         waitStores := s.storesPending }] })) ∧
     (∀ w, w ∈ s.flushWaits ↔ ∃ o ∈ s.table, o.tag = w ∧ (o.kind = .write ∨ o.kind = .deallocate)) ∧
     (t = .immediate → ∀ words, ∃ u, exec (.pass t words .none) s = .next (pump u) ∧ u = { s with
       out := [], table := s.table ++ [{ tag := t, kind := .pass, words := words, state := .active }],
       drive := { s.drive with queue := s.drive.queue ++ [{ who := .host t, op := .pass words }] } }) ∧
     (t = .immediate → ∀ words data, passOk data = true → ∃ u k, exec (.pass t words data) s = .next (pump u) ∧
       u.cmd? t = some k ∧ k.kind = .pass ∧ k.words = words ∧ k.data = data ∧ k.count = passSectors data ∧
       k.state = .active ∧
       u.drive = { s.drive with
         queue := s.drive.queue ++ [{ who := .host t, op := .pass words, lba := 0, count := passSectors data }] }) ∧
     (t = .immediate → ∃ u k, exec (.identify t) s = .next (pump u) ∧ u.cmd? t = some k ∧ k.kind = .identify ∧
       k.state = .active ∧ u.drive = s.drive ∧
       (s.buffer.frames = [] → s.buffer.requests = [] →
         ∃ f, u.buffer.frames = [f] ∧ f.holder = t ∧ f.dir = .toHost ∧ f.cond = .ready ∧ f.data = s.identityUnit)))

/-- R88, R89, R127: when the range sector of a DEALLOCATE arrives, between transfers, its entries of length 0 are
skipped. If none is left it completes GOOD at once, and its completion has been sent before anything held off is taken.
A range beyond P, one in the control window, one that touches a protected unit, and any under the policy REFUSE, refuse
it, in that order; otherwise it is admitted to ACTIVE and its drive command, with the same range sector, joins the drive
issue queue. The commands held off behind it are then taken. That a range sector nobody waits for, and one sent during a
transfer, change nothing, is the model's choice (notes/assumptions/4.md). -/
def Obligations.RangeSectorTested : Prop :=
  (∀ (s : State) (t : HostTag) (ranges : List Range), s.inReset = false → s.host.rangeSector = some t →
    (s.host.xfer = none ∨ ∃ x, s.host.xfer = some x ∧ x.done = true) → ranges.length ≤ 64 →
    let s1 : State := { s with out := [], host := { s.host with rangeSector := none } }
    let rs := ranges.filter fun r => decide (r.len ≠ 0)
    let refusedAt (x : Range) (r : Reason) : Prop :=
      ∃ u, exec (.deallocateRangeSector ranges) s = .next (pump (takeHeld u)) ∧ s1.Refuses u t x.lba x.len r
    (rs = [] → ∃ u, exec (.deallocateRangeSector ranges) s = .next (pump (takeHeld u)) ∧
      u = sendAll { s1 with host := { s1.host with due := s1.host.due ++ [{ tag := t, ending := .good }] } } ∧
      (s.host.up = true → .completion { tag := t, ending := .good } ∈ u.out ∧ u.host.due = [])) ∧
    (∀ x, rs.find? (fun x => decide (s.presented < x.lba + x.len)) = some x → refusedAt x .hidden) ∧
    (∀ x, (∀ y ∈ rs, y.lba + y.len ≤ s.presented) →
      rs.find? (fun x => decide (s.presented - 16 < x.lba + x.len)) = some x → refusedAt x .controlMisuse) ∧
    (∀ x e, (∀ y ∈ rs, y.lba + y.len ≤ s.presented - 16) → firstTouched s.map rs = some (x, e) →
      refusedAt x .trimProtected) ∧
    (∀ x, (∀ y ∈ rs, y.lba + y.len ≤ s.presented - 16) → firstTouched s.map rs = none → rs.head? = some x →
      s.win.deallocatePolicy = .refuse → refusedAt x .policy) ∧
    ((∀ y ∈ rs, y.lba + y.len ≤ s.presented - 16) → firstTouched s.map rs = none → rs ≠ [] →
      s.win.deallocatePolicy = .pass → (∀ d ∈ s.table, d.tag ≠ t) →
      exec (.deallocateRangeSector ranges) s = .next (pump (takeHeld { s1 with
        table := s.table ++ [{ tag := t, kind := .deallocate, ranges := rs, entries := ranges, state := .active }],
        drive := { s.drive with queue := s.drive.queue ++ [{ who := .host t, op := .deallocate ranges }] } })))) ∧
  ∀ (s : State) (ranges : List Range), s.inReset = false →
    (s.host.rangeSector = none ∨ ∃ x, s.host.xfer = some x ∧ x.done = false) → ranges.length ≤ 64 →
    exec (.deallocateRangeSector ranges) s = .next { s with out := [] }

/-! ### Frames, the host link and the movement of data -/

/-- R117, R118, R126: a request is grantable while its command holds fewer than 8 frames and, for a PUSH or a PLAY FILL,
a frame is free and no receive request of its command for an earlier unit waits; for BULK, two are free and those in use
are below the ceiling; for RECORD intake, two are free. A granted request takes the lowest-numbered free frame. A frame
freed while no request waits is just gone. R123: an arbitration grants while a request is grantable, each time the
oldest of the first tier that has one: a PUSH, a PLAY FILL, BULK with bypass count 16, RECORD, and then the oldest of
all. R124: a grant outside the receive tier raises the bypass count of every other BULK request that was grantable, to
16 at most. -/
def Obligations.FramesGranted : Prop :=
  (∀ (r : Req) (s : State), grantable r s = true ↔
    s.framesHeld r.tag < 8 ∧
    (r.kind = .push ∨ (r.kind = .fill ∧ r.cls = .play) →
      s.buffer.frames.length < 60 ∧ ∀ q ∈ s.buffer.requests, q.tag = r.tag →
        (q.kind = .push ∨ (q.kind = .fill ∧ q.cls = .play)) → r.unit ≤ q.unit) ∧
    (r.kind ≠ .push → r.cls = .bulk →
      s.buffer.frames.length ≤ 58 ∧ s.buffer.frames.length < 15 * (s.buffer.ceiling + 1)) ∧
    (r.kind ≠ .push → r.cls ≠ .bulk → ¬ (r.kind = .fill ∧ r.cls = .play) → s.buffer.frames.length ≤ 58)) ∧
  (∀ (r : Req) (c : Cmd) (s : State), s.cmd? r.tag = some c → s.buffer.frames.length < 60 →
    ∃ n, 4 ≤ n ∧ n ≤ 63 ∧ (∀ f ∈ s.buffer.frames, f.num ≠ n) ∧
      (∀ m, 4 ≤ m → m < n → ∃ f ∈ s.buffer.frames, f.num = m) ∧
      ∃ f ∈ (grant r s).buffer.frames, f.num = n ∧ f.holder = r.tag ∧ f.unit = r.unit ∧ f.cls = r.cls) ∧
  (∀ (n : Nat) (s : State), s.buffer.requests = [] → freeFrame n s = { s with
    buffer := { s.buffer with frames := s.buffer.frames.filter fun f => decide (f.num ≠ n) } }) ∧
  (∀ (n : Nat) (s : State), freeFrame n s = arbitrate { s with
    buffer := { s.buffer with frames := s.buffer.frames.filter fun f => decide (f.num ≠ n) } }) ∧
  (let receive (q : Req) : Prop := q.kind = .push ∨ (q.kind = .fill ∧ q.cls = .play)
   let tier (q : Req) : Nat :=
     if q.kind = .push then 0 else if q.kind = .fill ∧ q.cls = .play then 1
     else if q.cls = .bulk ∧ 16 ≤ q.bypass then 2 else if q.cls = .record then 3 else 4
   (∀ s : State, (∀ q ∈ s.buffer.requests, grantable q s = false) → arbitrate s = s) ∧
   (∀ s : State, (∀ q ∈ s.buffer.requests, (s.cmd? q.tag).isSome = true) →
     ∀ q ∈ (arbitrate s).buffer.requests, grantable q (arbitrate s) = false) ∧
   ∀ (s : State) (n : Nat) (r : Req) (before after : List Req),
     (s.buffer.requests.filter fun q => grantable q s) = before ++ r :: after →
     (∀ q ∈ before, tier r < tier q) → (∀ q ∈ after, tier r ≤ tier q) →
     ∃ left : List Req, arbitrateN (n + 1) s = arbitrateN n (makeRequests r.tag (grant r { s with
         buffer := { s.buffer with requests := left } })) ∧
       left.length + 1 = s.buffer.requests.length ∧
       (∀ k : Nat, ∀ q, (s.buffer.requests.erase r)[k]? = some q → ∃ q', left[k]? = some q' ∧
         (¬ receive r ∧ q.cls = .bulk ∧ q.kind ≠ .push ∧ grantable q s = true →
           q' = { q with bypass := min 16 (q.bypass + 1) }) ∧
         (receive r ∨ q.cls ≠ .bulk ∨ q.kind = .push ∨ grantable q s = false → q' = q)))

/-- R118, R119, R84: when the first sector of a unit reaches the part over a free drive link, its transfer starts: into
the frame the command already stages the unit in, which for a unit that two runs share is the model's reading
(notes/assumptions/27.md), or into a frame granted for it; without a grantable frame the request waits and stalls the
link. When the drive asks for a unit, its transfer starts if the unit's frame is ready, and the link is held if it is
not. R83, R125: it is ready when its encrypt job has ended, or, passing through, when its sectors have come; that one
counts from the start of its transfer from the host on is the model's choice (notes/assumptions/11.md). -/
def Obligations.DriveTransfersStart : Prop :=
  (∀ (f : Frame) (c : Cmd) (s : State), f.readyForDrive c s = true ↔ f.dir = .toDrive ∧ (f.cond = .ready ∨
    (f.cond = .passing ∧ f.fromHost = true ∧ (c.need f.unit ≤ f.present ∨
      ∃ x, s.host.xfer = some x ∧ x.frame = f.num ∧ x.send = false ∧ x.done = false)))) ∧
  (∀ (s : State) (t : HostTag) (c : Cmd) (d : DriveCmd), s.inReset = false → s.drive.link = .up →
    s.drive.errorRead = false → s.drive.hold = none → s.drive.xfer = none → s.cmd? t = some c →
    s.driveCmdOf t = some d → pushes d c = true → d.moved < d.count →
    let x := d.lba + d.moved
    let n := min (8 * (x / 8) + 8) (d.lba + d.count) - x
    let r : Req := { kind := .push, cls := c.classOf (x / 8), tag := t, unit := x / 8 }
    (∀ f, s.frameOf t (x / 8) = some f → exec (.drivePushUnit t) s = .next (pump { s with
      out := [],
      drive := { s.drive with xfer := some { push := true, tag := t, frame := f.num, lba := x, count := n } } })) ∧
    (s.frameOf t (x / 8) = none → grantable r s = true → ∃ u f,
      exec (.drivePushUnit t) s = .next (pump u) ∧ f ∈ u.buffer.frames ∧ (∀ g ∈ s.buffer.frames, g.num ≠ f.num) ∧
      f.holder = t ∧ f.unit = x / 8 ∧ f.cls = c.classOf (x / 8) ∧
      f.cond = (if c.classOf (x / 8) = .bulk then .passing else .filling) ∧
      u.drive = { s.drive with xfer := some { push := true, tag := t, frame := f.num, lba := x, count := n } } ∧
      u.table = s.table) ∧
    (s.frameOf t (x / 8) = none → grantable r s = false →
      exec (.drivePushUnit t) s = .next (pump { s with
        out := [], buffer := { s.buffer with requests := s.buffer.requests ++ [r] },
        drive := { s.drive with hold := some (.stall t) } }))) ∧
  ∀ (s : State) (t : HostTag) (c : Cmd) (d : DriveCmd), s.inReset = false → s.drive.link = .up →
    s.drive.errorRead = false → s.drive.hold = none → s.drive.xfer = none → s.cmd? t = some c →
    s.driveCmdOf t = some d → pulls d c = true → d.moved < d.count →
    let x := d.lba + d.moved
    let n := min (8 * (x / 8) + 8) (d.lba + d.count) - x
    (∀ f, s.frameOf t (x / 8) = some f → f.readyForDrive c s = true → exec (.drivePullUnit t) s = .next { s with
      out := [],
      drive := { s.drive with xfer := some { push := false, tag := t, frame := f.num, lba := x, count := n } } }) ∧
    ((∀ f, s.frameOf t (x / 8) = some f → f.readyForDrive c s = false) → exec (.drivePullUnit t) s = .next { s with
      out := [], drive := { s.drive with hold := some (.pull t) } })

/-- R80, R99, R125, R134: the sectors of a push stand in their frame at the places their LBAs give. A merge base that is
whole is IN_JOB (R114) and waits for its read's completion, which submits its job; that it is IN_JOB before, where R134
has a frame so at the submission, is the model's reading (notes/assumptions/12.md); a whole protected unit of a READ
counts as received and gets its decrypt job, under its piece's key generation and its own tweak; a whole BULK unit
counts as received and stays as it is. -/
def Obligations.PushedUnitReceived : Prop :=
  ∀ (s : State) (data : List Sector) (x : DriveXfer) (c : Cmd) (f : Frame), s.inReset = false →
    s.drive.xfer = some x → x.push = true → s.cmd? x.tag = some c → s.frame? x.frame = some f →
    (c.sends = true ∨ c.state = .mergeRead) → data.length = x.count → 1 ≤ x.count → x.count ≤ 8 →
    let n := x.lba % 8 + x.count - c.stageLo f.unit
    ∃ u g, exec (.unitReceived data) s = .next (pump u) ∧ u.frame? x.frame = some g ∧
      g.data = placeSectors f.data (x.lba % 8) data ∧ g.present = n ∧ g.holder = f.holder ∧ g.unit = f.unit ∧
      u.drive = { s.drive with
        xfer := none
        outstanding := s.drive.outstanding.map fun d =>
          if d.who = .host x.tag then { d with moved := d.moved + x.count } else d } ∧
      (n < c.need f.unit → u.table = s.table ∧ g.cond = f.cond) ∧
      (c.need f.unit ≤ n → c.state = .mergeRead → u.table = s.table ∧ g.cond = .inJob) ∧
      (c.need f.unit ≤ n → c.state ≠ .mergeRead →
        (∃ k, u.cmd? x.tag = some k ∧ c.received + 1 ≤ k.received) ∧
        (f.cls = .bulk → g.cond = f.cond) ∧
        (∀ o, f.cls ≠ .bulk → c.ownedOf f.unit = some o → g.cond = .inJob ∧
          u.hasJob x.frame .decrypt (.slot o.slot o.gen) (o.tweak f.unit) (.host x.tag) f.cls))

/-- R79, R80, R81, R84: when a run's drive completion arrives good, the next run joins the drive issue queue. With the
last one a WRITE completes GOOD, and a READ enters ENDING and completes GOOD once every unit has gone to the host. -/
def Obligations.RunsEnd : Prop :=
  ∀ (s : State) (t : HostTag) (c : Cmd) (d : DriveCmd), s.inReset = false → s.drive.link = .up →
    s.drive.errorRead = false → s.cmd? t = some c → s.driveCmdOf t = some d → d.moved = d.count →
    let drive := { s.drive with outstanding := s.drive.outstanding.filter fun d => decide (d.who ≠ .host t) }
    let ending := s.table.map fun k => if k.tag = t then { k with state := .ending } else k
    let due : HostPort := { s.host with due := s.host.due ++ [{ tag := t, ending := .good }] }
    (∀ r, c.runs[c.nextRun]? = some r →
      let next := s.table.map fun k => if k.tag = t then { k with nextRun := c.nextRun + 1 } else k
      (d.op = .read → exec (.readRunComplete t) s = .next (pump { s with
        out := [], table := next, drive := { drive with
          queue := s.drive.queue ++ [{ who := .host t, op := .read, lba := r.lba, count := r.len }] } })) ∧
      (d.op = .write → exec (.writeRunComplete t) s = .next (pump { s with
        out := [], table := next, drive := { drive with
          queue := s.drive.queue ++ [{ who := .host t, op := .write, lba := r.lba, count := r.len }] } }))) ∧
    (c.runs.length ≤ c.nextRun →
      (d.op = .write → exec (.writeRunComplete t) s = .next (pump { s with
        out := [], table := ending, drive := drive, host := due })) ∧
      (d.op = .read → c.units ≤ c.delivered → exec (.readRunComplete t) s = .next (pump { s with
        out := [], table := ending, drive := drive, host := due })) ∧
      (d.op = .read → c.delivered < c.units → exec (.readRunComplete t) s = .next (pump { s with
        out := [], table := ending, drive := drive })))

/-- R99: when a merge read completes good, its entry is DECRYPTING, its base gets a decrypt job in class RECORD under
the entry's generation and tweak, and the next READ entry, if there is one, becomes READING and its merge read joins
the drive issue queue. -/
def Obligations.MergeReadsFollow : Prop :=
  ∀ (s : State) (t : HostTag) (c : Cmd) (d : DriveCmd) (e : MergeEntry) (f : Frame) (o : Owned), s.inReset = false →
    s.drive.link = .up → s.drive.errorRead = false → s.cmd? t = some c → s.driveCmdOf t = some d → d.moved = d.count →
    d.op = .mergeRead → c.reading = some e → s.frameOf t e.unit = some f → c.ownedOf e.unit = some o →
    ∃ u k, exec (.mergeReadComplete t) s = .next (pump u) ∧ u.cmd? t = some k ∧
      u.hasJob f.num .decrypt (.slot o.slot e.gen) e.tweak (.host t) .record ∧
      (∀ m ∈ k.merges, m.unit = e.unit → m.state = .decrypting) ∧
      u.drive.outstanding = s.drive.outstanding.filter (fun d => decide (d.who ≠ .host t)) ∧
      ((∀ m ∈ c.merges, m.unit ≠ e.unit → m.state ≠ .pending) → u.drive.queue = s.drive.queue) ∧
      ∀ m ∈ c.merges, m.unit ≠ e.unit → m.state = .pending →
        (∀ m' ∈ c.merges, m'.unit ≠ e.unit → m' = m) →
        u.drive.queue = s.drive.queue ++ [{ who := .host t, op := .mergeRead, lba := 8 * m.unit, count := 8 }] ∧
        ∀ m' ∈ k.merges, m'.unit = m.unit → m'.state = .reading

/-- R87, R89, R91: when the drive completes a flush, a deallocate or a passed-through command that sends the host no
data good, its host command completes GOOD. A passed-through read whose data is still on its way to the host enters
ENDING. R92: on an error status its work is over; that it stands in the table until its completion is sent (R107, where
R72 has its slot go to FREE at the error), in a state that R72 does not name, is the model's reading and choice
(notes/assumptions/35.md). Its completion has the drive's indication, without an LBA, and is due at once on a non-queued
command, on a queued one when the error record has been read. That the error arrives with this command, and that a
queued command's work is over with it, is the model's choice (notes/assumptions/9.md). -/
def Obligations.StatusCompletes : Prop :=
  ∀ (s : State) (t : HostTag) (c : Cmd) (d : DriveCmd), s.inReset = false → s.drive.link = .up →
    s.drive.errorRead = false → s.cmd? t = some c → s.driveCmdOf t = some d →
    let done : State := { s with
      out := [],
      table := s.table.map fun k => if k.tag = t then { k with state := .ending } else k,
      drive := { s.drive with outstanding := s.drive.outstanding.filter fun d => decide (d.who ≠ .host t) } }
    let good : State := { done with host := { s.host with due := s.host.due ++ [{ tag := t, ending := .good }] } }
    let error : Completion := { tag := t, ending := .driveError none }
    let failed (i : Instr) : Prop := ∃ u, exec i s = .next (pump u) ∧ u.cmd? t = none ∧ { c with state := .failed } ∈ u.table ∧ u.WorkOver t ∧
      (t = .immediate → error ∈ u.host.due) ∧ (t ≠ .immediate → u.drive.failing = some error ∧ u.drive.errorRead = true)
    (d.op = .flush → exec (.driveFlushComplete t true) s = .next (pump good) ∧ failed (.driveFlushComplete t false)) ∧
    (∀ rs, d.op = .deallocate rs →
      exec (.deallocateComplete t true) s = .next (pump good) ∧ failed (.deallocateComplete t false)) ∧
    (∀ w, d.op = .pass w → failed (.passComplete t false)) ∧
    (∀ w, d.op = .pass w → d.moved = d.count →
      (c.sends = false ∨ c.units ≤ c.delivered → exec (.passComplete t true) s = .next (pump good)) ∧
      (c.sends = true → c.delivered < c.units → exec (.passComplete t true) s = .next (pump done)))

/-- R84, R125, R126: the sectors the drive has pulled, all of which have come by then, are the frame's at the places
their LBAs give; with its last sector the unit counts as pulled and its frame is freed. R81, R82, R126: when the last
sector of a unit has gone to the host, the sectors sent are those the host asked for, the unit counts as delivered and
its frame is freed. R82: of a WINDOW_READ's unit the sectors produced before this step are sent as they were produced,
the others show the window at this moment; that the whole unit stands on the link in this step is the model's choice
(notes/assumptions/11.md). The command completes GOOD with its last unit: a WINDOW_READ or an IDENTIFY at once, a READ
in ENDING. -/
def Obligations.UnitsLeave : Prop :=
  (∀ (s : State) (x : DriveXfer) (c : Cmd) (f : Frame), s.inReset = false → s.drive.xfer = some x → x.push = false →
     s.cmd? x.tag = some c → s.frame? x.frame = some f → f.arrived c = true →
     let whole : Prop := c.need f.unit ≤ x.lba % 8 + x.count - c.stageLo f.unit
     ∃ u k, exec .unitPulled s = .next (pump u) ∧ u.cmd? x.tag = some k ∧
       u.out = [.toDrive x.tag x.lba (takeSectors f.data (x.lba % 8) x.count)] ∧
       u.drive.outstanding = (s.drive.outstanding.map fun d =>
         if d.who = .host x.tag then { d with moved := d.moved + x.count } else d) ∧
       (whole → k.pulled = c.pulled + 1) ∧
       (¬ whole → k = c ∧ u.buffer = s.buffer ∧ u.drive.xfer = none) ∧
       (whole → c.kind = .write → s.buffer.requests = [] → c.units ≤ c.granted → u.drive.xfer = none ∧
         u.buffer.frames = s.buffer.frames.filter fun g => decide (g.num ≠ x.frame))) ∧
  (∀ (s : State) (x : HostXfer) (c : Cmd) (f : Frame), s.inReset = false → s.host.xfer = some x → x.send = true →
     x.done = false → s.cmd? x.tag = some c → s.frame? x.frame = some f → f.sendable c = true →
     ∃ (u : State) (k : Cmd) (data : UnitData), exec .unitDelivered s = .next (pump u) ∧ u.cmd? x.tag = some k ∧
       k.delivered = c.delivered + 1 ∧
       u.out = [.toHost x.tag (8 * f.unit + c.hostLo f.unit)
         (takeSectors data (c.hostLo f.unit) (c.hostHi f.unit + 1 - c.hostLo f.unit))] ∧
       (c.kind ≠ .windowRead → data = f.data ∧ u.host.xfer = some { x with done := true }) ∧
       (c.kind = .windowRead → s.host.up = true → ∀ p : Fin 8, c.hostLo f.unit ≤ p.val → p.val ≤ c.hostHi f.unit →
         data[p] = if p.val < c.hostLo f.unit + x.made then f.data[p] else s.windowSector (8 * f.unit + p.val)) ∧
       (∃ n, u.host.xfer = some { x with done := true, made := n }) ∧
       (c.kind = .windowRead ∨ c.kind = .identify ∨ c.state = .ending → c.units ≤ c.delivered + 1 →
         k.state = .ending ∧ u.host.due = s.host.due ++ [{ tag := x.tag, ending := .good }]) ∧
       (c.delivered + 1 < c.units → u.host.due = s.host.due) ∧
       (c.sends = true → s.buffer.requests = [] → c.units ≤ c.received →
         u.buffer.frames = s.buffer.frames.filter fun g => decide (g.num ≠ x.frame)))

/-- R83, R85, R102, R134, R193: the host sectors of a unit stand in its frame over what it held, and the unit counts
as taken; a protected unit gets its encrypt job under its piece's key generation and its own tweak. The sector of a
CONTROL_WRITE is handed to the control window, and is the record that the command sector reads back. -/
def Obligations.IntakeUnitTaken : Prop :=
  ∀ (s : State) (data : List Sector) (x : HostXfer) (c : Cmd) (f : Frame), s.inReset = false →
    s.host.xfer = some x → x.send = false → x.done = false → s.cmd? x.tag = some c → s.frame? x.frame = some f →
    data.length = c.hostHi f.unit + 1 - c.hostLo f.unit → 1 ≤ data.length → data.length ≤ 8 →
    (c.kind = .controlWrite → ∃ u, exec (.unitTaken data) s = .next (pump u) ∧
      u.handed (some x.tag) (data.headD Sector.zero) ∧ u.win.last = some (data.headD Sector.zero) ∧
      u.win.reply = s.win.reply ∧ u.win.nonce = s.win.nonce ∧ u.host.xfer = some { x with done := true } ∧
      (s.buffer.requests = [] →
        u.buffer.frames = s.buffer.frames.filter fun g => decide (g.num ≠ x.frame))) ∧
    (c.kind ≠ .controlWrite → ∃ u g k, exec (.unitTaken data) s = .next (pump u) ∧ u.frame? x.frame = some g ∧
      g.data = placeSectors f.data (c.hostLo f.unit) data ∧ g.present = c.need f.unit ∧
      u.cmd? x.tag = some k ∧ k.taken = c.taken + 1 ∧ u.host.xfer = some { x with done := true } ∧ u.win = s.win ∧
      (f.cls = .bulk → g.cond = f.cond) ∧
      ∀ o, f.cls ≠ .bulk → c.ownedOf f.unit = some o → g.cond = .inJob ∧
        u.hasJob x.frame .encrypt (.slot o.slot o.gen) (o.tweak f.unit) (.host x.tag) f.cls)

/-- R127, R86, R72: between transfers every completion due is sent, and a command that completed GOOD leaves the table
with it; an idle link then starts the oldest due transfer, but none while the range sector of a DEALLOCATE is due. R82:
each sector of a WINDOW_READ is produced as its turn to the host comes, in LBA order: the first as the transfer of its
unit starts, further ones at the ends of the steps that follow, those whose turn has not come showing the later moment;
how many have gone by the end of a step is a free number (notes/assumptions/11.md). Nothing else goes during a transfer,
and nothing without a link. The end of a transfer leaves the link idle. That completions go already when a transfer's
last sector has moved, before HOST_TRANSFER_END, is the model's reading (notes/assumptions/10.md), and that
HOST_TRANSFER_END without a finished transfer changes nothing its choice (notes/assumptions/4.md). R19, R107, R126,
R139: as the completion of a command is sent its work is over, it leaves the table, its pieces end, its tag leaves every
wait set, and each command that waited for it alone begins: a WRITE with a base to read with its first merge read, any
other in ACTIVE with its first run or its drive command; one that waits for more goes on waiting. A failed command's
work was over at the failure; that it stands in the table until then, and its pieces end with its completion (R19, where
R92 has them end at the failure), is the model's reading and choice (notes/assumptions/35.md). -/
def Obligations.HostPortWorks : Prop :=
  (∀ s : State, s.host.up = true → (s.host.xfer = none ∨ ∃ x, s.host.xfer = some x ∧ x.done = true) →
    (pump s).host.due = [] ∧ (∀ c ∈ s.host.due, .completion c ∈ (pump s).out) ∧
    ∀ c ∈ s.host.due, c.ending = .good → (∀ k ∈ s.table, k.tag = c.tag → k.state = .ending) →
      (pump s).cmd? c.tag = none) ∧
  (∀ s : State, s.host.up = true → s.host.xfer = none → s.host.due = [] → s.oldestDue = none → pump s = s) ∧
  (∀ (s : State) (f : Frame), s.host.up = true → s.host.xfer = none → s.host.due = [] → s.host.rangeSector = none →
    s.oldestDue = some f →
    let x : HostXfer := { frame := f.num, tag := f.holder, send := !f.fromHost }
    (pump s).out = s.out ∧ (pump s).table = s.table ∧
    ((∀ c, s.cmd? f.holder = some c → c.kind ≠ .windowRead) → (pump s).host.xfer = some x) ∧
    ∀ c, s.cmd? f.holder = some c → c.kind = .windowRead → f.fromHost = false → s.frame? f.num = some f →
      ∃ n, s.Produces (pump s) x c f n ∧ (c.hostLo f.unit ≤ c.hostHi f.unit → 1 ≤ n)) ∧
  (∀ (s : State) (x : HostXfer) (c : Cmd) (f : Frame), s.host.up = true → s.host.xfer = some x → x.send = true →
    x.done = false → s.cmd? x.tag = some c → c.kind = .windowRead → s.frame? x.frame = some f →
    ∃ n, s.Produces (pump s) x c f n) ∧
  (∀ s : State, s.host.up = true → s.host.xfer = none → s.host.due = [] → s.host.rangeSector ≠ none → pump s = s) ∧
  (∀ s : State, match s.oldestDue with
    | none => ∀ f ∈ s.buffer.frames, f.takeDue = false ∧ f.sendDue s = false
    | some f => f ∈ s.buffer.frames ∧ (f.takeDue = true ∨ f.sendDue s = true) ∧
        ∀ g ∈ s.buffer.frames, g.takeDue = true ∨ g.sendDue s = true → f.order ≤ g.order) ∧
  (∀ (s : State) (x : HostXfer), s.host.xfer = some x → x.done = false →
    (x.send = false ∨ ∀ c, s.cmd? x.tag = some c → c.kind ≠ .windowRead) → pump s = s) ∧
  (∀ s : State, s.host.up = false → pump s = s) ∧
  (∀ (s : State) (x : HostXfer), s.inReset = false → s.host.xfer = some x → x.done = true →
    exec .hostTransferEnd s = .next (pump { s with out := [], host := { s.host with xfer := none } })) ∧
  (∀ (s : State) (x : HostXfer), s.inReset = false → s.host.xfer = some x → x.done = false →
    exec .hostTransferEnd s = .next { s with out := [] }) ∧
  (∀ (s : State) (t : HostTag) (c : Cmd), s.host.up = true →
    (s.host.xfer = none ∨ ∃ x, s.host.xfer = some x ∧ x.done = true) → s.win.executing = none →
    s.host.due = [{ tag := t, ending := .good }] → s.cmd? t = some c → c.state = .ending →
    let s1 : State := { s with
      out := s.out ++ [.completion { tag := t, ending := .good }], host := { s.host with due := [] } }
    ∃ v, v.WorkOver t ∧ s1.CommandEnded v c ∧ pump s = startNext (releaseBehind t v)) ∧
  (∀ (s : State) (t : HostTag) (c : Cmd) (e : Ending), s.host.up = true →
    (s.host.xfer = none ∨ ∃ x, s.host.xfer = some x ∧ x.done = true) → e = .deviceError ∨ (∃ l, e = .driveError l) →
    s.win.executing = none → s.TableOk → c ∈ s.table → c.tag = t → c.state = .failed →
    s.host.due = [{ tag := t, ending := e }] →
    let s1 : State := { s with out := s.out ++ [.completion { tag := t, ending := e }], host := { s.host with due := [] } }
    ∃ v, s1.CommandEnded v c ∧ v.buffer = s.buffer ∧ pump s = startNext (releaseBehind t v)) ∧
  ∀ (s : State) (t : HostTag) (k : Cmd), s.TableOk → k ∈ s.table → k.state = .waitOverlap →
    let u := releaseBehind t s
    ((∃ w ∈ k.waitFor, w ≠ t) ∨ k.waitStores ≠ [] →
      u.cmd? k.tag = some { k with waitFor := k.waitFor.filter fun w => decide (w ≠ t) }) ∧
    ((∀ w ∈ k.waitFor, w = t) → k.waitStores = [] → ∃ k', u.cmd? k.tag = some k' ∧ k'.pieces = k.pieces ∧
      k'.waitFor = [] ∧
      (∀ m before after, k.kind = .write → k.merges = before ++ m :: after → m.state = .pending →
        (∀ x ∈ before, x.state ≠ .pending) → k'.state = .mergeRead ∧
        { who := .host k.tag, op := .mergeRead, lba := 8 * m.unit, count := 8 } ∈ u.drive.queue ∧
        ∀ x ∈ k'.merges, x.unit = m.unit → x.state = .reading) ∧
      (k.kind = .write → (∀ m ∈ k.merges, m.state ≠ .pending) → k'.state = .active ∧ ∀ r, k.runs.head? = some r →
        { who := .host k.tag, op := .write, lba := r.lba, count := r.len } ∈ u.drive.queue) ∧
      (k.kind = .read → (k.runs = [] → k'.state = .ending) ∧ ∀ r, k.runs.head? = some r → k'.state = .active ∧
        { who := .host k.tag, op := .read, lba := r.lba, count := r.len } ∈ u.drive.queue) ∧
      (k.kind = .flush → k'.state = .active ∧ { who := .host k.tag, op := .flush } ∈ u.drive.queue))

/-- R129, R138: a job under a title key leaves in its frame the transform of what it held, or its inverse. A READ unit
becomes READY for the host, a WRITE unit READY for the drive; a merge base makes its entry HELD, and with the last one
the write enters ACTIVE. R151: a record formed for the catalogue goes to the drive issue queue. R144, R146, R150: a
record read is classified, and its LOAD or HEADER_READ ends with the outcome. R136: the lane then starts the waiting job
that is the oldest with bypass count 8, or without one the oldest of the highest class that waits, under the key of its
generation (R131), and the count of every job left is raised, to 8 at most; with no job waiting the lane is idle. R135:
two running jobs end in the order they started. R139: when an owner's jobs are withdrawn and cut off, each lane so freed
selects among the jobs left; that lane 0 selects before lane 1 when both are freed, its job ending first, is the model's
choice (notes/assumptions/39.md). That JOB_END of an idle lane, and of the lane whose job started later,
changes nothing, is the model's choice (notes/assumptions/4.md). -/
def Obligations.JobEnds : Prop :=
  (∀ (s : State) (l : Fin 2) (r : Running) (t : HostTag) (c : Cmd) (f : Frame) (k : Key), s.inReset = false →
    s.lanes.lane l = some r → (∀ q, s.lanes.lane (otherLane l) = some q → r.start ≤ q.start) →
    r.job.owner = .host t → s.cmd? t = some c → s.frame? r.job.frame = some f → r.key = .slot k →
    ∃ v g, exec (.jobEnd l) s = .next (pump (startsDone (selectLane l v))) ∧ v.lanes = s.lanes ∧ v.slots = s.slots ∧
      v.frame? r.job.frame = some g ∧
      g.data = (if r.job.dir = .encrypt then Config.transform k r.job.tweak f.data
                else (Config.transform k r.job.tweak).symm f.data) ∧
      (c.state ≠ .mergeRead → g.cond = .ready ∧ g.dir = (if r.job.dir = .encrypt then .toDrive else .toHost)) ∧
      (c.state = .mergeRead → c.kind = .write → ∃ k', v.cmd? t = some k' ∧
        (∀ m ∈ k'.merges, m.unit = f.unit → m.state = .held) ∧
        ((∀ m ∈ c.merges, m.unit ≠ f.unit → m.base = .zero ∨ m.state = .held) → k'.state = .active) ∧
        ((∃ m ∈ c.merges, m.unit ≠ f.unit ∧ m.base = .read ∧ m.state ≠ .held) → k'.state = .mergeRead))) ∧
  (∀ (s : State) (l : Fin 2) (r : Running) (g : SvcTag) (f : Flight), s.inReset = false →
    s.lanes.lane l = some r → (∀ q, s.lanes.lane (otherLane l) = some q → r.start ≤ q.start) →
    r.job.owner = .service g → s.flight? g = some f →
    (∀ unit, f.content = .formed unit → ∃ v, exec (.jobEnd l) s = .next (pump (startsDone (selectLane l v))) ∧
      v.lanes = s.lanes ∧ v.slots = s.slots ∧ v.flight? g = some { f with content := .whole unit } ∧
      v.drive = { s.drive with queue := s.drive.queue ++
        [{ who := .service g, op := .forcedWrite, lba := s.catalogueLba f.op.kind.index, count := 8 }] }) ∧
    (∀ unit i, f.content = .whole unit → f.op.kind = .load i →
      exec (.jobEnd l) s = .next (pump (startsDone (selectLane l (loadEnd f i (s.classify i unit)
        (setKnownGen i (foundGen unit) { s with out := [] })))))) ∧
    (∀ unit, f.content = .whole unit → f.op.kind = .headerRead →
      exec (.jobEnd l) s = .next (pump (startsDone (selectLane l (headerEnd (s.headerOf unit)
        (endFlight f.tag { s with out := [] }))))))) ∧
  (∀ (s : State) (l : Fin 2), s.inReset = false →
    (s.lanes.lane l = none ∨ ∃ r q, s.lanes.lane l = some r ∧ s.lanes.lane (otherLane l) = some q ∧ q.start < r.start) →
    exec (.jobEnd l) s = .next (pump { s with out := [] })) ∧
  (∀ (s : State) (o : Owner),
    let left : State := { s with lanes := { s.lanes with jobs := s.lanes.jobs.filter fun j => decide (j.owner ≠ o) } }
    let runs (l : Fin 2) : Prop := ∃ r, s.lanes.lane l = some r ∧ r.job.owner = o
    (runs 0 → runs 1 → dropJobs o s = startsDone (selectLane 1 (startsDone (selectLane 0 left))) ∧
      ∀ x y, (dropJobs o s).lanes.lane 0 = some x → (dropJobs o s).lanes.lane 1 = some y → x.start < y.start) ∧
    (∀ l, runs l → ¬ runs (otherLane l) → dropJobs o s = startsDone (selectLane l left)) ∧
    (¬ runs 0 → ¬ runs 1 → dropJobs o s = left)) ∧
  ∀ (s : State) (l : Fin 2),
    let u := startsDone (selectLane l s)
    let rank (i : Job) : Nat :=
      if i.cls = .record then 0 else if i.cls = .play then 1 else if i.cls = .service then 2 else 3
    u.lanes.lane (otherLane l) = s.lanes.lane (otherLane l) ∧
    (s.lanes.jobs = [] → u.lanes.lane l = none ∧ u.lanes.jobs = []) ∧
    (∀ before j after, s.lanes.jobs = before ++ j :: after →
      ((8 ≤ j.bypass ∧ ∀ i ∈ before, i.bypass < 8) ∨
        ((∀ i ∈ before ++ j :: after, i.bypass < 8) ∧ (∀ i ∈ before, rank j < rank i) ∧
          ∀ i ∈ after, rank j ≤ rank i)) →
      u.lanes.lane l = some { job := j, key := resolveKey s j.source, start := s.lanes.starts } ∧
      u.lanes.jobs = (before ++ after).map fun i => { i with bypass := min 8 (i.bypass + 1) }) ∧
    resolveKey s .root = .root ∧
    ∀ (i : SlotIx) (gen : Nat) (k : Key),
      ((s.slot i).gen = some gen → (s.slot i).key = some k → resolveKey s (.slot i gen) = .slot k) ∧
      ∀ refs, (s.slot i).gen ≠ some gen → (s.slot i).retired = some { key := k, gen := gen, refs := refs } →
        resolveKey s (.slot i gen) = .slot k

/-! ### The catalogue -/

/-- R146: a record read at index i is EMPTY if its marker is absent or its epoch is not the header's; DAMAGED if its
index is not i, its generation 0, or its check value does not open under the tweak of its generation; EMPTY if its
sealed state is; and otherwise the title. R145: a seal made under another part's root key or under another tweak does
not open, nor does one whose clear part or fields are not those it was made over. R144: a header read is ABSENT without
its marker, VALID if its seal is this part's, over its clear part, and its capacity the drive's, and FOREIGN otherwise.
What a unit with the other kind of record at an index reads as is the model's choice (notes/assumptions/14.md). -/
def Obligations.RecordsClassified : Prop :=
  (∀ (s : State) (i : Nat) (c : TitleClear) (b : TitleSeal),
    (c.marker = false ∨ c.epoch ≠ s.epoch → s.classify i (.title c b) = .empty) ∧
    (c.marker = true → c.epoch = s.epoch → (c.index ≠ i ∨ c.gen = 0 ∨ sealOpens i c b = false) →
      s.classify i (.title c b) = .damaged) ∧
    (c.marker = true → c.epoch = s.epoch → c.index = i → c.gen ≠ 0 → sealOpens i c b = true →
      b.fields.state = .empty → s.classify i (.title c b) = .empty) ∧
    (c.marker = true → c.epoch = s.epoch → c.index = i → c.gen ≠ 0 → sealOpens i c b = true →
      b.fields.state ≠ .empty → s.classify i (.title c b) = .title b.fields) ∧
    (∀ fields : TitleFields, 1 ≤ c.gen → sealOpens i { marker := true, epoch := s.epoch, index := i, gen := c.gen }
      { ours := true, tweak := { title := 0, seq := c.gen, unit := i }, fields := fields,
        check := { clear := { marker := true, epoch := s.epoch, index := i, gen := c.gen }, fields := fields } } = true) ∧
    (c.marker = true → c.epoch = s.epoch →
      (b.ours = false ∨ b.tweak ≠ { title := 0, seq := c.gen, unit := i } ∨ b.check.clear ≠ c ∨
        b.check.fields ≠ b.fields) → s.classify i (.title c b) = .damaged)) ∧
  (∀ (s : State) (i : Nat) (c : HeaderClear) (b : HeaderSeal),
    (c.marker = false ∨ c.epoch ≠ s.epoch → s.classify i (.header c b) = .empty) ∧
    (c.marker = true → c.epoch = s.epoch → s.classify i (.header c b) = .damaged) ∧
    (c.marker = false → s.headerOf (.header c b) = .absent) ∧
    (c.marker = true → b.ours = true → b.tweak = { title := 0, seq := 0, unit := 0 } → b.check = c →
      c.capacity = s.driveCapacity → s.headerOf (.header c b) = .valid c.epoch) ∧
    (c.marker = true → b.ours = false ∨ b.tweak ≠ { title := 0, seq := 0, unit := 0 } ∨ b.check ≠ c ∨
      c.capacity ≠ s.driveCapacity → s.headerOf (.header c b) = .foreign)) ∧
  ∀ (s : State) (c : TitleClear) (b : TitleSeal),
    (c.marker = false → s.headerOf (.title c b) = .absent) ∧ (c.marker = true → s.headerOf (.title c b) = .foreign)

/-- R146, R150: when the read of a LOAD or a HEADER_READ completes good, either its decrypt job is submitted or its
clear part decides: the record is EMPTY, the header ABSENT. When the drive fails the read, the operation fails, and the
error on this queued command makes the drive port wait for the error record (R92, R156). That a good completion comes
only while the drive link is neither held nor moving another unit is the model's choice (notes/assumptions/31.md). The
outcome of a LOAD: at OPEN_TITLE (R8, R36, R155) EMPTY, DAMAGED, DRIVE, MAP_FULL and OVERLAP leave the slot IDLE, an
expired title's record is erased first (that OVERLAP looks at the map before the window, and names the extent of lowest
start unit, is the model's choice, notes/assumptions/23.md), and any other title is ACTIVE with the fields and the
extents of its record; at CREATE_TITLE (R7, R154) an empty record, or a damaged one with the overwrite mark, makes the
title, with a fresh key and a store, and the others leave the slot IDLE; in a sweep (R163) an expired title's record is
erased and the sweep goes on after any other. A damaged record is counted whoever reads it (R146). The end of a
HEADER_READ sets the header copy and the phase (R144, R205). -/
def Obligations.ServiceReadEnds : Prop :=
  (∀ (s : State) (g : SvcTag) (f : Flight) (unit : DiskUnit), s.inReset = false → s.drive.link = .up →
    s.drive.errorRead = false → s.flight? g = some f → s.svcOutstanding g = true → f.op.kind.reads = true →
    let s1 : State := { s with
      out := [], drive := { s.drive with
        outstanding := s.drive.outstanding.filter fun d => decide (d.who ≠ .service g) } }
    (s.drive.hold = none → s.drive.xfer = none →
      (s.needsJob f.op.kind unit = true → ∃ u, exec (.serviceReadComplete g (some unit)) s = .next (pump u) ∧
        u.flight? g = some { f with content := .whole unit } ∧
        u.hasJob g.val .decrypt .root (readTweak f.op.kind unit) (.service g) .service ∧
        u.drive = s1.drive ∧ u.slots = s.slots ∧ u.win = s.win ∧ u.mon = s.mon) ∧
      (∀ i, f.op.kind = .load i → s.needsJob f.op.kind unit = false →
        exec (.serviceReadComplete g (some unit)) s = .next (pump
          (loadEnd f i .empty (setKnownGen i (foundGen unit) s1)))) ∧
      (f.op.kind = .headerRead → s.needsJob f.op.kind unit = false →
        exec (.serviceReadComplete g (some unit)) s = .next (pump (headerEnd .absent (endFlight f.tag s1))))) ∧
    (s.drive.hold ≠ none ∨ s.drive.xfer ≠ none →
      exec (.serviceReadComplete g (some unit)) s = .next (pump { s with out := [] })) ∧
    (s.flightOfOp f.op.num = some f → ∃ u, exec (.serviceReadComplete g none) s = .next (pump u) ∧
      s.OpFails u f ∧ u.drive.errorRead = true)) ∧
  (∀ (s : State) (unit : DiskUnit) (i : Nat) (c : TitleClear) (b : TitleSeal), unit = .title c b →
    (s.needsJob (.load i) unit = true ↔ c.marker = true ∧ c.epoch = s.epoch) ∧
    readTweak (.load i) unit = { title := 0, seq := c.gen, unit := i } ∧
    foundGen unit = (if c.marker = true then some c.gen else none) ∧
    ((s.claim? i).isSome = true → (setKnownGen i (foundGen unit) s).knownGen i = foundGen unit)) ∧
  (∀ (s : State) (f : Flight) (i : Nat) (o : LoadOutcome),
    (o = .damaged → s.CountsDamage (loadEnd f i o s)) ∧
    (o ≠ .damaged → (loadEnd f i o s).mon = s.mon)) ∧
  (∀ (s : State) (f : Flight) (i : Nat) (k : SlotIx) (o : LoadOutcome), f.op.owner = .slot k →
    (s.slot k).phase = .loading → (∀ e, s.win.executing = some e → recCode e.record ≠ 1) →
    let u := loadEnd f i o s
    let idle (x : Result) (d : Details) : Prop :=
      u.slot k = TitleSlot.empty ∧ u.map = s.map ∧ s.Answers u .load k x d
    (o = .empty → idle .empty .none) ∧ (o = .damaged → idle .damaged .none) ∧ (o = .drive → idle .drive .none) ∧
    ∀ x : TitleFields, o = .title x →
      let fits (e : RecExtent) : Prop :=
        (∀ m ∈ s.map, sharesUnit e.start e.len m.start m.len = false) ∧ e.start + e.len ≤ s.windowUnit
      (expiryDue x.expiry s.clock = true → u.slot k = s.slot k ∧ u.map = s.map ∧
        u.asks (.erase ((s.slot k).number.getD 0)) (.slot k) ∧ ∀ tag r, s.waiting tag r .load → u.waiting tag r .erase) ∧
      (expiryDue x.expiry s.clock = false →
        (512 < s.map.length + x.extents.length → idle .mapFull (.openFailed x.extents.length 255)) ∧
        (s.map.length + x.extents.length ≤ 512 →
          (∀ before e after, x.extents = before ++ e :: after → (∀ y ∈ before, fits y) →
            (∀ lower m higher, s.map = lower ++ m :: higher → sharesUnit e.start e.len m.start m.len = true →
              (∀ y ∈ lower, sharesUnit e.start e.len y.start y.len = false) →
              idle .overlap (.openFailed before.length m.slot.val)) ∧
            ((∀ m ∈ s.map, sharesUnit e.start e.len m.start m.len = false) → s.windowUnit < e.start + e.len →
              idle .overlap (.openFailed before.length 8))) ∧
          ((∀ e ∈ x.extents, fits e) → s.Answers u .load k .ok .none ∧
            u.slot k = { s.slot k with
              phase := .active, state := titleStateOf x.state, cls := some x.cls, expiry := x.expiry,
              nextUnit := x.nextUnit, extentCount := x.extents.length, key := x.key, gen := some 1,
              lastChanger := x.lastChanger, dirty := false, storeInFlight := false } ∧
            u.map.Perm (s.map ++ x.extents.map fun e =>
              { start := e.start, len := e.len, slot := k, first := e.first }))))) ∧
  (∀ (s : State) (f : Flight) (i : Nat) (k : SlotIx) (o : LoadOutcome) (tag : Option HostTag) (r : Sector),
    f.op.owner = .slot k → (s.slot k).phase = .loading → s.waiting tag r .load → recCode r = 1 → recSlot r = k.val →
    let u := loadEnd f i o s
    let idle (x : Result) : Prop := u.slot k = TitleSlot.empty ∧ u.map = s.map ∧ s.Answers u .load k x .none
    let made : Prop := u.waiting tag r .store ∧ u.asks (.store ((s.slot k).number.getD 0)) (.slot k) ∧
      u.draws = s.draws + 1 ∧ u.map = s.map ∧ u.slot k = { s.slot k with
        key := some ⟨s.draws⟩, gen := some 1, state := some .recording, cls := some (recClass r),
        expiry := recExpiry r, nextUnit := 0, extentCount := 0, lastChanger := recRequest r, dirty := true,
        storeInFlight := true }
    (o = .empty → made) ∧ (o = .damaged → Sector.field r 24 1 = 1 → made) ∧
    (o = .damaged → Sector.field r 24 1 ≠ 1 → idle .damaged) ∧ (∀ x, o = .title x → idle .inUse) ∧
    (o = .drive → idle .drive)) ∧
  (∀ (s : State) (f : Flight) (i : Nat) (o : LoadOutcome), f.op.owner = .sweep →
    let u := loadEnd f i o s
    (∀ x, o = .title x → expiryDue x.expiry s.clock = true → u.asks (.erase i) .sweep ∧ u.slots = s.slots ∧
      u.cat.progress = s.cat.progress ∧ u.cat.sweeping = s.cat.sweeping ∧ u.cat.erased = s.cat.erased) ∧
    ((∀ x, o = .title x → expiryDue x.expiry s.clock = false) →
      s.SweepGoesOn u i ∧ u.cat.erased = s.cat.erased)) ∧
  ∀ (s : State) (h : HeaderCopy),
    let u := headerEnd h s
    u.cat.header = h ∧ (∀ c ∈ u.cat.claims, c.owner ≠ .header) ∧ u.clock = s.clock ∧
    (∀ e, h = .valid e → u.phase = .ready) ∧ (h = .absent → u.phase = .unformatted) ∧
    (h = .foreign → u.phase = .foreign) ∧ (h = .unreadable → u.phase = .unformatted ∧ s.CountsDamage u) ∧
    (s.host.held = [] → u.host = s.host ∧ u.table = s.table ∧ u.drive = s.drive ∧ (h ≠ .unreadable → u.mon = s.mon)) ∧
    ∀ a, s.host.held = [a] → h ≠ .unreadable → s.host.rangeSector = none →
      u = takeCommand a { s with
        phase := u.phase, host := { s.host with held := [] },
        cat := { s.cat with header := h, claims := s.cat.claims.filter fun c => decide (c.owner ≠ .header) } }

/-- R22, R151: when the forced write of a store completes good, the slot's store-in-flight and dirty flags are clear and
the command that waited is answered OK; when it fails, dirty stays as it was, STORE_FAILED is set, and the answer is
DRIVE. R7, R9, R11, R12: a slot in LOADING becomes ACTIVE with its store and makes its expiry test, or is IDLE if the
store fails; one in STORING is IDLE either way; one in DRAINING leaves it once no piece is in flight. An erase leaves
its slot IDLE, answered OK, or EXPIRED to the OPEN_TITLE that found the title expired (R8); if it fails, DRIVE and
STORE_FAILED. R163: a sweep's erase is counted if it ends good, and the sweep goes on. R161: a header write that ends
good makes the header copy VALID and the phase READY, and one that fails changes neither; FORMAT is answered. R92, R156:
an error on this queued command makes the drive port wait for the error record; that a hold of the drive link and a
transfer on it end with the error is the model's choice (notes/assumptions/9.md). That a good completion comes only
while the drive link is neither held nor moving another unit is the model's choice (notes/assumptions/31.md). -/
def Obligations.ServiceWriteEnds : Prop :=
  ∀ (s : State) (g : SvcTag) (f : Flight), s.inReset = false → s.drive.link = .up → s.drive.errorRead = false →
    s.flight? g = some f → s.svcOutstanding g = true → f.op.kind.reads = false →
    (s.drive.hold = none → s.drive.xfer = none → ∃ u, exec (.serviceWriteComplete g true) s = .next (pump u) ∧
      s.OpDone u f ∧
      (∀ unit, f.content = .whole unit → .catalogue (s.catalogueLba f.op.kind.index) unit ∈ u.out) ∧
      u.drive.errorRead = false ∧ u.mon = s.mon ∧ u.clock = s.clock) ∧
    (s.drive.hold ≠ none ∨ s.drive.xfer ≠ none →
      exec (.serviceWriteComplete g true) s = .next (pump { s with out := [] })) ∧
    (s.flightOfOp f.op.num = some f → ∃ u, exec (.serviceWriteComplete g false) s = .next (pump u) ∧
      s.OpFails u f ∧ u.drive.errorRead = true ∧ u.drive.hold = none ∧ u.drive.xfer = none ∧ u.clock = s.clock)

/-! ### The control window -/

/-- R85, R117, R193: when the window is idle, the oldest CONTROL_WRITE in WAIT_CONTROL enters ACTIVE and asks for its
one sector as BULK intake, granted at once if a frame can be granted. While a record executes, a CONTROL_WRITE waits
for its sector, or none waits, nothing happens. -/
def Obligations.ControlTurnTaken : Prop :=
  (∀ (s : State) (c : Cmd), s.nextControl = some c → ∃ before after, s.table = before ++ c :: after ∧ c.kind = .controlWrite ∧
    c.state = .waitControl ∧ ∀ d ∈ before, ¬ (d.kind = .controlWrite ∧ d.state = .waitControl)) ∧
  (∀ (s : State) (c : Cmd), s.inReset = false → s.win.executing = none →
    (∀ d ∈ s.table, d.kind = .controlWrite → d.state ≠ .active) → s.nextControl = some c → s.cmd? c.tag = some c →
    c.count = 1 → c.granted = 0 → c.merges = [] → (∀ q ∈ s.buffer.requests, q.tag ≠ c.tag) →
    let r : Req := { kind := .intake, cls := .bulk, tag := c.tag, unit := c.lba / 8 }
    ∃ u k, exec .controlTurn s = .next (pump u) ∧ u.cmd? c.tag = some k ∧ k.state = .active ∧ k.kind = .controlWrite ∧
      u.drive = s.drive ∧ u.win = s.win ∧ u.slots = s.slots ∧
      (grantable r s = true → k.granted = 1 ∧
        ∃ f ∈ u.buffer.frames, f.holder = c.tag ∧ f.unit = c.lba / 8 ∧ f.fromHost = true) ∧
      (grantable r s = false → u.buffer = { s.buffer with requests := s.buffer.requests ++ [r] })) ∧
  ∀ s : State, s.inReset = false →
    (s.win.executing ≠ none ∨ (∃ d ∈ s.table, d.kind = .controlWrite ∧ d.state = .active) ∨ s.nextControl = none) →
    exec .controlTurn s = .next { s with out := [] }

/-- R195 to R198: the record in hand is checked in order. A code that is not 1 … 20 is answered BAD_PARAM. For an
authorised command a nonce that is not the current one is answered STALE, with one STALE_NONCE violation, and a wrong
code AUTH_FAIL, with one AUTH_FAIL violation; R197: so a record with the code of another is answered AUTH_FAIL, or STALE
if its nonce is not the current one, where the two differ in one covered byte, whichever it is, or in the bytes that
section 11.9 lists alone; a code of 32 bytes cannot differ for every two contents, and the other pairs are left free
(the model's choice, notes/assumptions/42.md). Else the nonce is replaced. Then lockdown is answered LOCKDOWN, a phase
other than READY UNFORMATTED, where R194 says so, and a slot above 7 BAD_PARAM, as is a CREATE_TITLE, CREATE_RING or
SET_RIGHTS with another field outside its encoding: the class 0 … 2, and of the two on recordings the expiry mark and
CREATE_TITLE's overwrite mark 0 or 1; of these three check 6 tests no other field. A command whose record is not in hand
does nothing (the model's choice, notes/assumptions/6.md). -/
def Obligations.RecordsChecked : Prop :=
  (∀ (s : State) (tag : Option HostTag) (r : Sector), s.inReset = false → s.handed tag r →
    (recCode r = 0 ∨ 20 < recCode r) → ∃ u, exec .unknownCommandCode s = .next (pump u) ∧
      ({ s with out := [] } : State).Answered u tag r .badParam .none) ∧
  (∀ (s : State) (r : Sector), let inSlot := recSlot r ≤ 7
    let cls := Sector.field r 18 1 ≤ 2
    let mark := Sector.field r 19 1 ≤ 1
    (createFields r s = true ↔ inSlot ∧ cls ∧ mark ∧ Sector.field r 24 1 ≤ 1) ∧
    (createRingFields r s = true ↔ inSlot ∧ cls) ∧ (rightsFields r s = true ↔ inSlot ∧ cls ∧ mark)) ∧
  ∀ (i : Instr) (row : ControlRow), (i, row) ∈ controlRows →
    (∀ (s : State) (tag : Option HostTag) (r : Sector), s.InHand tag r row.code →
      let answered (b : State) (x : Result) : Prop := ∃ u, exec i s = .next (pump u) ∧ b.Answered u tag r x .none
      (row.authorised = true → recNonce r ≠ s.win.nonce →
        answered (violate .staleNonce [] { s with out := [] }) .stale) ∧
      (row.authorised = true → recNonce r = s.win.nonce → recAuth r ≠ Config.authCode (recCovered r) →
        answered (violate .authFail [] { s with out := [] }) .authFail) ∧
      (∀ r' : Sector, row.authorised = true → recAuth r = Config.authCode (recCovered r') →
        (∃ k, ChangedIn (· = k) (recCovered r') (recCovered r)) ∨
          ChangedIn (listedByte · = true) (recCovered r') (recCovered r) →
        if recNonce r = s.win.nonce then answered (violate .authFail [] { s with out := [] }) .authFail
        else answered (violate .staleNonce [] { s with out := [] }) .stale) ∧
      ((row.authorised = true → s.authentic r) →
        (s.mon.state = .lockdown → row.inLockdown = false → answered (s.base row) .lockdown) ∧
        ((s.mon.state = .lockdown → row.inLockdown = true) → s.phase ≠ .ready → row.inUnformatted = false →
          answered (s.base row) .unformatted) ∧
        ((s.mon.state = .lockdown → row.inLockdown = true) → (s.phase ≠ .ready → row.inUnformatted = true) →
          (row.code ≤ 14 → 7 < recSlot r → answered (s.base row) .badParam) ∧
          (row.code = 1 ∨ row.code = 3 ∨ row.code = 9 → 2 < Sector.field r 18 1 → answered (s.base row) .badParam) ∧
          (row.code = 1 ∨ row.code = 9 → 1 < Sector.field r 19 1 → answered (s.base row) .badParam) ∧
          (row.code = 1 → 1 < Sector.field r 24 1 → answered (s.base row) .badParam)))) ∧
    ∀ s : State, s.inReset = false → (∀ tag r, s.handed tag r → recCode r ≠ row.code) →
      exec i s = .next { s with out := [] }

/-- R5, R6: a command on an open title is answered STATE if its slot is IDLE and SLOT_BUSY if it is in another phase
than ACTIVE; one that opens a slot is answered SLOT_BUSY if the slot is not IDLE, then BAD_PARAM if the title number
is out of its range, then IN_USE if another slot holds it. -/
def Obligations.SlotTestsInOrder : Prop :=
  (∀ (j : Instr) (row : ControlRow), (j, row) ∈ controlRows → 4 ≤ row.code → row.code ≤ 14 →
    ∀ (s : State) (tag : Option HostTag) (r : Sector) (i : SlotIx), s.Passes row tag r → recSlot r = i.val →
      (row.code = 9 → rightsFields r s = true) →
      ((s.slot i).phase = .idle →
        ∃ u, exec j s = .next (pump u) ∧ (s.base row).Answered u tag r .state .none) ∧
      ((s.slot i).phase ≠ .idle → (s.slot i).phase ≠ .active →
        ∃ u, exec j s = .next (pump u) ∧ (s.base row).Answered u tag r .slotBusy .none)) ∧
  ∀ (j : Instr) (row : ControlRow), (j, row) ∈ controlRows → row.code ≤ 3 →
    ∀ (s : State) (tag : Option HostTag) (r : Sector) (i : SlotIx), s.Passes row tag r → recSlot r = i.val →
      (row.code = 1 → createFields r s = true) → (row.code = 3 → createRingFields r s = true) →
      let lo := if row.code = 3 then 1024 else 1
      let hi := if row.code = 3 then 1031 else 1023
      let answered (x : Result) : Prop :=
        ∃ u, exec j s = .next (pump u) ∧ (s.base row).Answered u tag r x .none
      ((s.slot i).phase ≠ .idle → answered .slotBusy) ∧
      ((s.slot i).phase = .idle → recNumber r < lo ∨ hi < recNumber r → answered .badParam) ∧
      ((s.slot i).phase = .idle → lo ≤ recNumber r → recNumber r ≤ hi →
        (∃ k, k ≠ i ∧ (s.slot k).phase ≠ .idle ∧ (s.slot k).number = some (recNumber r)) → answered .inUse)

/-- R7, R8, R152: CREATE_TITLE and OPEN_TITLE put an IDLE slot into LOADING with the title number, and wait. The slot
claims its catalogue index and its LOAD is requested; while another owner claims the index it waits for the claim. A
class NEVER is answered BAD_PARAM. That the slot's kind is RECORDING already in LOADING is the model's reading
(notes/assumptions/22.md). -/
def Obligations.LoadingEntered : Prop :=
  ∀ (s : State) (tag : Option HostTag) (r : Sector) (i : SlotIx), recSlot r = i.val → (s.slot i).phase = .idle →
    1 ≤ recNumber r → recNumber r ≤ 1023 →
    (∀ k, k ≠ i → (s.slot k).phase = .idle ∨ (s.slot k).number ≠ some (recNumber r)) →
    let n := recNumber r
    let loading (b : State) : State :=
      ({ b with slots := s.slots.set i { number := some n, phase := .loading, kind := some .recording } }).staged
        tag r .load
    let loads (c : Instr) (b : State) : Prop := ∃ u, exec c s = .next (pump u) ∧ (loading b).ServiceWork u ∧
      (s.claim? n = none → u.asks (.load n) (.slot i) ∧ ∃ x ∈ u.cat.claims, x.index = n ∧ x.owner = .slot i) ∧
      (s.claim? n ≠ none → u = loading b)
    (s.Passes { code := 1, authorised := true } tag r → createFields r s = true →
      (recClass r ≠ .never → loads .createTitle s.accepted) ∧
      (recClass r = .never → ∃ u, exec .createTitle s = .next (pump u) ∧
        s.accepted.Answered u tag r .badParam .none)) ∧
    (s.Passes { code := 2 } tag r → loads .openTitle { s with out := [] })

/-- R14, R37, R47 to R49: CREATE_RING on an IDLE slot makes its tests in order; when all pass, its one extent enters
the map, the slot is ACTIVE with a fresh key of generation 1 and an empty ring of g = ⌈S / 64⌉ and m = ⌈S / g⌉, and
the answer OK carries g, m and the normalised retention. A failed test leaves the slot and the map. -/
def Obligations.RingCreated : Prop :=
  (∀ (cls : CopyClass) (x : Nat), normRetention cls x =
    if x = 0 then (if cls = .never then 5400 else 0) else max 60 (min x 10800)) ∧
  ∀ (s : State) (tag : Option HostTag) (r : Sector) (i : SlotIx), s.Passes { code := 3 } tag r → recSlot r = i.val →
    createRingFields r s = true → (s.slot i).phase = .idle → 1024 ≤ recNumber r → recNumber r ≤ 1031 →
    (∀ k, k ≠ i → (s.slot k).phase = .idle ∨ (s.slot k).number ≠ some (recNumber r)) →
    let size := Sector.field r 28 4
    let lba := Sector.field r 20 8
    let g := (size + 63) / 64
    let m := (size + g - 1) / g
    let retention := normRetention (recClass r) (Sector.field r 32 4)
    let fails : Option Result :=
      if size < 64 ∨ 4194304 < size then some .badParam
      else if lba % 8 ≠ 0 then some .align
      else if s.windowUnit < lba / 8 + size then some .badParam
      else if (meets s.map (lba / 8) size).isSome then some .overlap
      else if 512 ≤ s.map.length then some .mapFull
      else none
    (∀ x, fails = some x → ∃ u, exec .createRing s = .next (pump u) ∧
      ({ s with out := [] } : State).Answered u tag r x .none) ∧
    (fails = none → ∃ u, exec .createRing s = .next (pump u) ∧ ({ s with
      out := [], draws := s.draws + 1,
      map := insertExtent { start := lba / 8, len := size, slot := i, first := 0 } s.map,
      slots := s.slots.set i
        { number := some (recNumber r), phase := .active, kind := some .ring, state := some .recording,
          cls := some (recClass r), extentCount := 1, key := some ⟨s.draws⟩, gen := some 1,
          lastChanger := recRequest r,
          ring := some { size := size, g := g, m := m, retention := retention, segs := List.replicate m {} } } } :
      State).Answered u tag r .ok (.ring g m retention))

/-- R33, R34, R21: ATTACH on an ACTIVE slot makes its tests in order. When all pass, the run lengthens the title's
last extent if it follows on it, and is a new extent otherwise; the next unit rises by the run's units, and the change
is stored before the answer. A failed test leaves the slot and the map. -/
def Obligations.RunAttached : Prop :=
  ∀ (s : State) (tag : Option HostTag) (r : Sector) (i : SlotIx), s.Passes { code := 4 } tag r → recSlot r = i.val →
    (s.slot i).phase = .active →
    let t := s.slot i
    let lba := Sector.field r 16 8
    let len := Sector.field r 24 8
    let a := lba / 8
    let k := len / 8
    let last := (slotExtents s.map i).getLast?
    let follows : Prop := ∃ e, last = some e ∧ e.stop = a
    let answered (x : Result) : Prop :=
      ∃ u, exec .attach s = .next (pump u) ∧ ({ s with out := [] } : State).Answered u tag r x .none
    let stored (map : List Extent) (count : Nat) : Prop := ∃ u, exec .attach s = .next (pump u) ∧
      u.asks (.store (t.number.getD 0)) (.slot i) ∧
      (({ s with
          out := [], map := map,
          slots := s.slots.set i { t with nextUnit := t.nextUnit + k, extentCount := count,
                                          lastChanger := recRequest r, dirty := true, storeInFlight := true } } :
        State).staged tag r .store).ServiceWork u
    (t.kind ≠ some .recording ∨ t.state ≠ some .recording → answered .state) ∧
    (t.kind = some .recording → t.state = some .recording →
      (len < 1 ∨ s.presented - 16 < lba + len → answered .badParam) ∧
      (1 ≤ len → lba + len ≤ s.presented - 16 →
        (lba % 8 ≠ 0 ∨ len % 8 ≠ 0 → answered .align) ∧
        (lba % 8 = 0 → len % 8 = 0 →
          (67108864 < t.nextUnit + k → answered .units) ∧
          (t.nextUnit + k ≤ 67108864 → (∃ e ∈ s.map, sharesUnit a k e.start e.len = true) → answered .overlap) ∧
          (t.nextUnit + k ≤ 67108864 → (∀ e ∈ s.map, sharesUnit a k e.start e.len = false) →
            (∀ e, last = some e → e.stop = a →
              stored (s.map.map fun x => if x = e then { x with len := x.len + k } else x) t.extentCount) ∧
            (¬ follows → 120 ≤ t.extentCount → answered .extentsFull) ∧
            (¬ follows → t.extentCount < 120 → 512 ≤ s.map.length → answered .mapFull) ∧
            (¬ follows → t.extentCount < 120 → s.map.length < 512 →
              stored (insertExtent { start := a, len := k, slot := i, first := t.nextUnit } s.map)
                (t.extentCount + 1))))))

/-- R21, R23, R24, R26: SEAL, MOVE_BEGIN and MOVE_CANCEL change the state of an ACTIVE recording, note their request
number and are answered when the store that follows ends; SEAL of a sealed title is answered OK at once, and each is
answered STATE where its condition fails. SYNC asks for a store of a dirty slot, and is answered OK on a clean one and
on a ring. A SYNC never meets a store in flight: R23 says that none is while a command on the slot is executed. -/
def Obligations.ChangesStored : Prop :=
  ∀ (s : State) (tag : Option HostTag) (r : Sector) (i : SlotIx), recSlot r = i.val → (s.slot i).phase = .active →
    let t := s.slot i
    let answered (c : Instr) (b : State) (x : Result) : Prop :=
      ∃ u, exec c s = .next (pump u) ∧ b.Answered u tag r x .none
    let stores (c : Instr) (b : State) (t' : TitleSlot) : Prop := ∃ u, exec c s = .next (pump u) ∧
      u.asks (.store (t.number.getD 0)) (.slot i) ∧
      ((({ b with slots := s.slots.set i { t' with storeInFlight := true } } : State).staged tag r .store).ServiceWork u)
    let changed (st : TitleState) : TitleSlot :=
      { t with state := some st, lastChanger := recRequest r, dirty := true }
    (s.Passes { code := 5 } tag r →
      (t.kind = some .recording → t.state = some .recording → stores .sealTitle { s with out := [] } (changed .sealed)) ∧
      (t.kind = some .recording → t.state = some .sealed → answered .sealTitle { s with out := [] } .ok) ∧
      (t.kind ≠ some .recording ∨ (t.state ≠ some .recording ∧ t.state ≠ some .sealed) →
        answered .sealTitle { s with out := [] } .state)) ∧
    (s.Passes { code := 12, authorised := true } tag r →
      (t.kind = some .recording → t.state = some .sealed → t.cls = some .once →
        stores .moveBegin s.accepted (changed .moving)) ∧
      (¬ (t.kind = some .recording ∧ t.state = some .sealed ∧ t.cls = some .once) →
        answered .moveBegin s.accepted .state)) ∧
    (s.Passes { code := 14 } tag r →
      (t.kind = some .recording → t.state = some .moving →
        stores .moveCancel { s with out := [] } (changed .sealed)) ∧
      (¬ (t.kind = some .recording ∧ t.state = some .moving) → answered .moveCancel { s with out := [] } .state)) ∧
    (s.Passes { code := 6 } tag r →
      (t.kind = some .recording → t.storeInFlight = false → t.dirty = true → stores .sync { s with out := [] } t) ∧
      (t.kind ≠ some .recording ∨ (t.storeInFlight = false ∧ t.dirty = false) →
        answered .sync { s with out := [] } .ok))

/-- R10, R11, R26, R38, R68: CLOSE, DELETE and MOVE_COMMIT put an ACTIVE slot into DRAINING with their reason, and it
leaves DRAINING at once if no piece and no store is in flight: its extents leave the map; a dirty recording that is
closed is stored one last time, a clean one and a ring are IDLE and the answer is OK, and a deleted or moved recording
loses its key and its record is erased. MOVE_COMMIT of a title that is not MOVING is answered STATE. -/
def Obligations.DrainStarts : Prop :=
  ∀ (s : State) (tag : Option HostTag) (r : Sector) (i : SlotIx) (c : Instr) (row : ControlRow) (why : DrainReason),
    (c, row, why) ∈ [(Instr.close, ({ code := 7 } : ControlRow), DrainReason.closed), (.delete, { code := 8 }, .deleted),
      (.moveCommit, { code := 13, authorised := true }, .moved)] →
    s.Passes row tag r → recSlot r = i.val → (s.slot i).phase = .active →
    let t := s.slot i
    let b := s.base row
    let idle : Prop := ∃ u, exec c s = .next (pump u) ∧ ({ b with
      map := s.map.filter fun e => decide (e.slot ≠ i), slots := s.slots.set i TitleSlot.empty,
      cat := { s.cat with claims := s.cat.claims.filter fun x => decide (x.owner ≠ .slot i) } } : State).Answered u
        tag r .ok .none
    let left (t' : TitleSlot) (k : SvcKind) : Prop := ∃ u, exec c s = .next (pump u) ∧ u.asks k (.slot i) ∧
      (({ b with map := s.map.filter fun e => decide (e.slot ≠ i), slots := s.slots.set i t' } : State).staged tag r
        .idle).ServiceWork u
    (why = .moved → ¬ (t.kind = some .recording ∧ t.state = some .moving) →
      ∃ u, exec c s = .next (pump u) ∧ b.Answered u tag r .state .none) ∧
    ((why = .moved → t.kind = some .recording ∧ t.state = some .moving) →
      (t.inFlight ≠ 0 ∨ t.storeInFlight = true → exec c s = .next (pump (({ b with
        slots := s.slots.set i { t with phase := .draining, drain := some why } } : State).staged tag r .idle))) ∧
      (t.inFlight = 0 → t.storeInFlight = false →
        (t.kind = some .ring → idle) ∧
        (t.kind = some .recording → why = .closed → t.dirty = false → idle) ∧
        (t.kind = some .recording → why = .closed → t.dirty = true →
          left { t with phase := .storing, drain := some why } (.store (t.number.getD 0))) ∧
        (t.kind = some .recording → why ≠ .closed →
          left { t with phase := .erasing, drain := some why, key := none, retired := none }
            (.erase (t.number.getD 0)))))

/-- R9, R20, R25, R63, R64: SET_RIGHTS of an ACTIVE recording takes the class and the expiry and is answered after
their store, and the slot expires at once if the expiry is due; of a ring it takes the class and the retention and
lowers the stamps of written segments. RING_EMPTY empties a ring but for its lap counter; RESUME_TITLE clears the
halted flag. -/
def Obligations.TitlesAdjusted : Prop :=
  ∀ (s : State) (tag : Option HostTag) (r : Sector) (i : SlotIx), recSlot r = i.val → (s.slot i).phase = .active →
    let t := s.slot i
    let answered (c : Instr) (b : State) (x : Result) (d : Details) : Prop :=
      ∃ u, exec c s = .next (pump u) ∧ b.Answered u tag r x d
    let withSlot (b : State) (t' : TitleSlot) : State := { b with slots := s.slots.set i t' }
    let rights : TitleSlot := { t with cls := some (recClass r), expiry := recExpiry r, lastChanger := recRequest r,
                                       dirty := true, storeInFlight := true }
    let x := normRetention (recClass r) (Sector.field r 32 4)
    (s.Passes { code := 9, authorised := true } tag r → rightsFields r s = true →
      (t.kind = some .recording → recClass r = .never → answered .setRights s.accepted .badParam .none) ∧
      (t.kind = some .recording → recClass r ≠ .never → t.state = some .moving →
        answered .setRights s.accepted .state .none) ∧
      (t.kind = some .recording → recClass r ≠ .never → t.state ≠ some .moving →
        ∃ u, exec .setRights s = .next (pump u) ∧ u.asks (.store (t.number.getD 0)) (.slot i) ∧
          (expiryDue (recExpiry r) s.clock = false →
            ((withSlot s.accepted rights).staged tag r .store).ServiceWork u) ∧
          (expiryDue (recExpiry r) s.clock = true → u.hasFlag .titleExpired = true ∧ u.waiting tag r .store ∧
            u.slot i = { rights with phase := .draining, drain := some .expired } ∧
            (∀ k, k ≠ i → u.slot k = s.slot k) ∧ u.map = s.map)) ∧
      (t.kind ≠ some .recording → Sector.field r 19 1 ≠ 0 → answered .setRights s.accepted .badParam .none) ∧
      (t.kind ≠ some .recording → Sector.field r 19 1 = 0 → answered .setRights (withSlot s.accepted
        { t with
          cls := some (recClass r), lastChanger := recRequest r,
          ring := t.ring.map fun g => { g with
            retention := x,
            segs := g.segs.map fun e =>
              if x ≠ 0 ∧ e.lap ≠ 0 ∧ (e.stamp = 0 ∨ x < e.stamp) then { e with stamp := x } else e } })
        .ok (.retention x))) ∧
    (s.Passes { code := 10 } tag r →
      (t.kind = some .recording → answered .ringEmpty { s with out := [] } .state .none) ∧
      (t.kind ≠ some .recording → answered .ringEmpty (withSlot { s with out := [] }
        { t with
          lastChanger := recRequest r,
          ring := t.ring.map fun g => { g with head := none, segs := g.segs.map fun _ => {} } }) .ok .none)) ∧
    (s.Passes { code := 11 } tag r →
      answered .resumeTitle (withSlot { s with out := [] } { t with halted := false }) .ok .none)

/-- R166, R168, R170: SET_CLOCK sets an unset clock to its value, capped at 4,294,967,295, and a set one to the later
of the two; the expiry test follows, and the answer OK carries the value, whether the set was held, whether the clock
was unset and how many slots expired. -/
def Obligations.ClockSet : Prop :=
  ∀ (s : State) (tag : Option HostTag) (r : Sector),
    s.Passes { code := 15, authorised := true, inUnformatted := true, inLockdown := true } tag r →
    let v := min 4294967295 (Sector.field r 16 8)
    let now := match s.clock with
      | none => v
      | some c => max c v
    let held : Bool := match s.clock with
      | none => false
      | some c => decide (v < c)
    ∃ u, exec .setClock s = .next (pump u) ∧ u.clock = some now ∧
      (expiryTest { s.accepted with clock := some now }).Answered u tag r .ok
        (.clock now held s.clock.isNone (allSlots.filter fun i => (s.slot i).expires (some now)).length)

/-- R122, R180, R203: SET_POLICY whose fields hold values of their encodings replaces every setting not given as KEEP,
the window length clamped into 10 … 60,000, and answers OK with the window length; the counters and the monitor's
state stay. A raised ceiling starts an arbitration; any other leaves the frame buffer. A field outside its encoding is
answered BAD_PARAM and nothing changes. -/
def Obligations.PolicySet : Prop :=
  ∀ (s : State) (tag : Option HostTag) (r : Sector),
    s.Passes { code := 16, authorised := true, inUnformatted := true } tag r →
    let len := if Sector.field r 32 4 = 4294967295 then s.mon.window else max 10 (min (Sector.field r 32 4) 60000)
    let setting (now : Setting) (b : Nat) : Setting := if b = 0 then .pass else if b = 1 then .refuse else now
    (policyFields r s = false → ∃ u, exec .setPolicy s = .next (pump u) ∧ s.accepted.Answered u tag r .badParam .none) ∧
    (policyFields r s = true → ∃ u, exec .setPolicy s = .next (pump u) ∧ u.replied r .ok (.window len) ∧
      u.win.executing = none ∧
      u.win.readPolicy = setting s.win.readPolicy (Sector.field r 16 1) ∧
      u.win.writePolicy = setting s.win.writePolicy (Sector.field r 17 1) ∧
      u.win.deallocatePolicy = setting s.win.deallocatePolicy (Sector.field r 18 1) ∧
      u.buffer.ceiling = (if Sector.field r 19 1 ≤ 3 then Sector.field r 19 1 else s.buffer.ceiling) ∧
      u.mon = { s.mon with reactions := u.mon.reactions, window := len } ∧
      (∀ k : Fin 10, u.mon.reactions[k] =
        let b := Sector.field r (20 + k.val) 1
        if b = 0 then .count else if b = 1 then .halt else if b = 2 then .alarm else if b = 3 then .fault
        else s.mon.reactions[k]) ∧
      u.slots = s.slots ∧ u.map = s.map ∧ u.clock = s.clock ∧ u.win.flags = s.win.flags ∧
      ∃ v : State, v.buffer = { s.buffer with ceiling := u.buffer.ceiling } ∧
        v = { s.accepted with buffer := v.buffer, mon := u.mon, win := { s.accepted.win with
          readPolicy := u.win.readPolicy, writePolicy := u.win.writePolicy,
          deallocatePolicy := u.win.deallocatePolicy } } ∧
        (if s.buffer.ceiling < u.buffer.ceiling then arbitrate v else v).Answered u tag r .ok (.window len)) ∧
    (policyFields r s = true ↔
      (∀ o ∈ [16, 17, 18], Sector.field r o 1 = 0 ∨ Sector.field r o 1 = 1 ∨ Sector.field r o 1 = 255) ∧
      (Sector.field r 19 1 ≤ 3 ∨ Sector.field r 19 1 = 255) ∧
      ∀ k : Fin 10, Sector.field r (20 + k.val) 1 ≤ 3 ∨ Sector.field r (20 + k.val) 1 = 255)

/-- R184, R188: CLEAR_EVENTS first takes the kinds it names from the alarmed set in ALARM, and leaves ALARM with the
last; then it clears the flags it names, ALARM not while the monitor stays in ALARM. In LOCKDOWN it leaves the alarmed
set, and is answered LATE if it names a kind. RESUME empties the alarmed set, returns the monitor to NORMAL and
answers with what stood before. -/
def Obligations.EventsCleared : Prop :=
  (∀ (s : State) (tag : Option HostTag) (r : Sector),
    s.Passes { code := 17, inUnformatted := true, inLockdown := true } tag r →
    let events := BitVec.ofNat 8 (Sector.field r 16 2)
    let kinds := BitVec.ofNat 10 (Sector.field r 18 2)
    let left := s.mon.alarmed &&& ~~~kinds
    let cleared (flags : BitVec 8) (m : Monitor) (x : Result) : Prop := ∃ u, exec .clearEvents s = .next (pump u) ∧
      ({ s with out := [], mon := m, win := { s.win with flags := flags } } : State).Answered u tag r x
        (.monitor m.state m.alarmed)
    (s.mon.state = .normal → cleared (s.win.flags &&& ~~~events) s.mon .ok) ∧
    (s.mon.state = .alarm → left = 0#10 → cleared (s.win.flags &&& ~~~events)
      { s.mon with state := .normal, alarmed := 0#10, deadline := none } .ok) ∧
    (s.mon.state = .alarm → left ≠ 0#10 → cleared (s.win.flags &&& (~~~events ||| 2#8))
      { s.mon with alarmed := left } .ok) ∧
    (s.mon.state = .lockdown → kinds = 0#10 → cleared (s.win.flags &&& ~~~events) s.mon .ok) ∧
    (s.mon.state = .lockdown → kinds ≠ 0#10 → cleared (s.win.flags &&& ~~~events) s.mon .late)) ∧
  ∀ (s : State) (tag : Option HostTag) (r : Sector),
    s.Passes { code := 18, authorised := true, inUnformatted := true, inLockdown := true } tag r →
    (s.mon.state = .normal → ∃ u, exec .resume s = .next (pump u) ∧
      s.accepted.Answered u tag r .ok (.monitor .normal s.mon.alarmed)) ∧
    (s.mon.state ≠ .normal → ∃ u, exec .resume s = .next (pump u) ∧ ({ s.accepted with
      mon := { s.mon with state := .normal, alarmed := 0#10, deadline := none } } : State).Answered u tag r .ok
        (.monitor s.mon.state s.mon.alarmed))

/-- R152, R161 to R163: FORMAT is answered STATE while a slot holds a recording title and BUSY during a sweep; else it
writes a header with the epoch after the valid one, or with a drawn one, and waits for the write. SWEEP is answered
UNFORMATTED without a valid header, CLOCK_UNSET without a clock, BUSY during a sweep; else it is answered OK and
begins at the first index from 1 that no slot claims: it claims that index and its LOAD is requested. If slots claimed
every index the sweep would be done at once. -/
def Obligations.CatalogueCommands : Prop :=
  (∀ (s : State) (tag : Option HostTag) (r : Sector),
    s.Passes { code := 19, authorised := true, inUnformatted := true } tag r →
    let holds : Prop := ∃ i, (s.slot i).phase ≠ .idle ∧ (s.slot i).kind = some .recording
    (holds → ∃ u, exec .format s = .next (pump u) ∧ s.accepted.Answered u tag r .state .none) ∧
    (¬ holds → s.cat.sweeping = true → ∃ u, exec .format s = .next (pump u) ∧ s.accepted.Answered u tag r .busy .none) ∧
    (¬ holds → s.cat.sweeping = false → ∀ e, s.cat.header = .valid e → ∃ u, exec .format s = .next (pump u) ∧
      (s.accepted.staged tag r .header).ServiceWork u ∧
      u.asks (.headerWrite (if 65535 ≤ e then 1 else e + 1)) .header) ∧
    (¬ holds → s.cat.sweeping = false → (∀ e, s.cat.header ≠ .valid e) → ∃ u, exec .format s = .next (pump u) ∧
      (({ s.accepted with draws := s.draws + 2 } : State).staged tag r .header).ServiceWork u ∧
      u.asks (.headerWrite ((Config.epochDraw (s.draws + 1)).val + 1)) .header)) ∧
  ∀ (s : State) (tag : Option HostTag) (r : Sector), s.Passes { code := 20 } tag r →
    let answered (x : Result) : Prop :=
      ∃ u, exec .sweep s = .next (pump u) ∧ ({ s with out := [] } : State).Answered u tag r x .none
    ((∀ e, s.cat.header ≠ .valid e) → answered .unformatted) ∧
    (∀ e, s.cat.header = .valid e →
      (s.clock = none → answered .clockUnset) ∧
      (s.clock ≠ none → s.cat.sweeping = true → answered .busy) ∧
      (s.clock ≠ none → s.cat.sweeping = false →
        ∃ u, exec .sweep s = .next (pump u) ∧ u.replied r .ok .none ∧ u.win.executing = none ∧ u.cat.erased = 0 ∧
          u.slots = s.slots ∧ u.map = s.map ∧
          (∀ j, 1 ≤ j → j ≤ 1023 → s.slotClaims j = false → (∀ m, 1 ≤ m → m < j → s.slotClaims m = true) →
            u.cat.sweeping = true ∧ u.cat.progress = j ∧ u.asks (.load j) .sweep ∧
            ∃ c ∈ u.cat.claims, c.index = j ∧ c.owner = .sweep) ∧
          ((∀ m, 1 ≤ m → m ≤ 1023 → s.slotClaims m = true) →
            u.cat.sweeping = false ∧ u.cat.progress = 0 ∧ u.hasFlag .sweepDone = true))) ∧
    ∀ (j : Nat), s.slotClaims j = true ↔ ∃ x k, s.claim? j = some x ∧ x.owner = .slot k
end

