-- ==== Sys2Proof/Laws/State.lean ====
section
/-!
SUPPORT. One lemma per field per named update of the state, true by rfl, so that no proof unfolds a record update.
-/

namespace Sys2Proof.Machine


/-! ### setSlot -/

@[simp] theorem State.setSlot_inReset (s : State) (i : SlotIx) (t : TitleSlot) : (s.setSlot i t).inReset = s.inReset := rfl
@[simp] theorem State.setSlot_phase (s : State) (i : SlotIx) (t : TitleSlot) : (s.setSlot i t).phase = s.phase := rfl
@[simp] theorem State.setSlot_identity (s : State) (i : SlotIx) (t : TitleSlot) : (s.setSlot i t).identity = s.identity := rfl
@[simp] theorem State.setSlot_host (s : State) (i : SlotIx) (t : TitleSlot) : (s.setSlot i t).host = s.host := rfl
@[simp] theorem State.setSlot_table (s : State) (i : SlotIx) (t : TitleSlot) : (s.setSlot i t).table = s.table := rfl
@[simp] theorem State.setSlot_map (s : State) (i : SlotIx) (t : TitleSlot) : (s.setSlot i t).map = s.map := rfl
@[simp] theorem State.setSlot_buffer (s : State) (i : SlotIx) (t : TitleSlot) : (s.setSlot i t).buffer = s.buffer := rfl
@[simp] theorem State.setSlot_lanes (s : State) (i : SlotIx) (t : TitleSlot) : (s.setSlot i t).lanes = s.lanes := rfl
@[simp] theorem State.setSlot_drive (s : State) (i : SlotIx) (t : TitleSlot) : (s.setSlot i t).drive = s.drive := rfl
@[simp] theorem State.setSlot_cat (s : State) (i : SlotIx) (t : TitleSlot) : (s.setSlot i t).cat = s.cat := rfl
@[simp] theorem State.setSlot_clock (s : State) (i : SlotIx) (t : TitleSlot) : (s.setSlot i t).clock = s.clock := rfl
@[simp] theorem State.setSlot_mon (s : State) (i : SlotIx) (t : TitleSlot) : (s.setSlot i t).mon = s.mon := rfl
@[simp] theorem State.setSlot_win (s : State) (i : SlotIx) (t : TitleSlot) : (s.setSlot i t).win = s.win := rfl
@[simp] theorem State.setSlot_draws (s : State) (i : SlotIx) (t : TitleSlot) : (s.setSlot i t).draws = s.draws := rfl
@[simp] theorem State.setSlot_stamp (s : State) (i : SlotIx) (t : TitleSlot) : (s.setSlot i t).stamp = s.stamp := rfl
@[simp] theorem State.setSlot_freeReads (s : State) (i : SlotIx) (t : TitleSlot) : (s.setSlot i t).freeReads = s.freeReads := rfl
@[simp] theorem State.setSlot_out (s : State) (i : SlotIx) (t : TitleSlot) : (s.setSlot i t).out = s.out := rfl
@[simp] theorem State.setSlot_pending (s : State) (i : SlotIx) (t : TitleSlot) : (s.setSlot i t).pending = s.pending := rfl

/-! ### modSlot -/

@[simp] theorem State.modSlot_inReset (s : State) (i : SlotIx) (f : TitleSlot → TitleSlot) : (s.modSlot i f).inReset = s.inReset := rfl
@[simp] theorem State.modSlot_phase (s : State) (i : SlotIx) (f : TitleSlot → TitleSlot) : (s.modSlot i f).phase = s.phase := rfl
@[simp] theorem State.modSlot_identity (s : State) (i : SlotIx) (f : TitleSlot → TitleSlot) : (s.modSlot i f).identity = s.identity := rfl
@[simp] theorem State.modSlot_host (s : State) (i : SlotIx) (f : TitleSlot → TitleSlot) : (s.modSlot i f).host = s.host := rfl
@[simp] theorem State.modSlot_table (s : State) (i : SlotIx) (f : TitleSlot → TitleSlot) : (s.modSlot i f).table = s.table := rfl
@[simp] theorem State.modSlot_map (s : State) (i : SlotIx) (f : TitleSlot → TitleSlot) : (s.modSlot i f).map = s.map := rfl
@[simp] theorem State.modSlot_buffer (s : State) (i : SlotIx) (f : TitleSlot → TitleSlot) : (s.modSlot i f).buffer = s.buffer := rfl
@[simp] theorem State.modSlot_lanes (s : State) (i : SlotIx) (f : TitleSlot → TitleSlot) : (s.modSlot i f).lanes = s.lanes := rfl
@[simp] theorem State.modSlot_drive (s : State) (i : SlotIx) (f : TitleSlot → TitleSlot) : (s.modSlot i f).drive = s.drive := rfl
@[simp] theorem State.modSlot_cat (s : State) (i : SlotIx) (f : TitleSlot → TitleSlot) : (s.modSlot i f).cat = s.cat := rfl
@[simp] theorem State.modSlot_clock (s : State) (i : SlotIx) (f : TitleSlot → TitleSlot) : (s.modSlot i f).clock = s.clock := rfl
@[simp] theorem State.modSlot_mon (s : State) (i : SlotIx) (f : TitleSlot → TitleSlot) : (s.modSlot i f).mon = s.mon := rfl
@[simp] theorem State.modSlot_win (s : State) (i : SlotIx) (f : TitleSlot → TitleSlot) : (s.modSlot i f).win = s.win := rfl
@[simp] theorem State.modSlot_draws (s : State) (i : SlotIx) (f : TitleSlot → TitleSlot) : (s.modSlot i f).draws = s.draws := rfl
@[simp] theorem State.modSlot_stamp (s : State) (i : SlotIx) (f : TitleSlot → TitleSlot) : (s.modSlot i f).stamp = s.stamp := rfl
@[simp] theorem State.modSlot_freeReads (s : State) (i : SlotIx) (f : TitleSlot → TitleSlot) : (s.modSlot i f).freeReads = s.freeReads := rfl
@[simp] theorem State.modSlot_out (s : State) (i : SlotIx) (f : TitleSlot → TitleSlot) : (s.modSlot i f).out = s.out := rfl
@[simp] theorem State.modSlot_pending (s : State) (i : SlotIx) (f : TitleSlot → TitleSlot) : (s.modSlot i f).pending = s.pending := rfl

/-! ### modCmd -/

@[simp] theorem State.modCmd_inReset (s : State) (t : HostTag) (f : Cmd → Cmd) : (s.modCmd t f).inReset = s.inReset := rfl
@[simp] theorem State.modCmd_phase (s : State) (t : HostTag) (f : Cmd → Cmd) : (s.modCmd t f).phase = s.phase := rfl
@[simp] theorem State.modCmd_identity (s : State) (t : HostTag) (f : Cmd → Cmd) : (s.modCmd t f).identity = s.identity := rfl
@[simp] theorem State.modCmd_host (s : State) (t : HostTag) (f : Cmd → Cmd) : (s.modCmd t f).host = s.host := rfl
@[simp] theorem State.modCmd_map (s : State) (t : HostTag) (f : Cmd → Cmd) : (s.modCmd t f).map = s.map := rfl
@[simp] theorem State.modCmd_slots (s : State) (t : HostTag) (f : Cmd → Cmd) : (s.modCmd t f).slots = s.slots := rfl
@[simp] theorem State.modCmd_buffer (s : State) (t : HostTag) (f : Cmd → Cmd) : (s.modCmd t f).buffer = s.buffer := rfl
@[simp] theorem State.modCmd_lanes (s : State) (t : HostTag) (f : Cmd → Cmd) : (s.modCmd t f).lanes = s.lanes := rfl
@[simp] theorem State.modCmd_drive (s : State) (t : HostTag) (f : Cmd → Cmd) : (s.modCmd t f).drive = s.drive := rfl
@[simp] theorem State.modCmd_cat (s : State) (t : HostTag) (f : Cmd → Cmd) : (s.modCmd t f).cat = s.cat := rfl
@[simp] theorem State.modCmd_clock (s : State) (t : HostTag) (f : Cmd → Cmd) : (s.modCmd t f).clock = s.clock := rfl
@[simp] theorem State.modCmd_mon (s : State) (t : HostTag) (f : Cmd → Cmd) : (s.modCmd t f).mon = s.mon := rfl
@[simp] theorem State.modCmd_win (s : State) (t : HostTag) (f : Cmd → Cmd) : (s.modCmd t f).win = s.win := rfl
@[simp] theorem State.modCmd_draws (s : State) (t : HostTag) (f : Cmd → Cmd) : (s.modCmd t f).draws = s.draws := rfl
@[simp] theorem State.modCmd_stamp (s : State) (t : HostTag) (f : Cmd → Cmd) : (s.modCmd t f).stamp = s.stamp := rfl
@[simp] theorem State.modCmd_freeReads (s : State) (t : HostTag) (f : Cmd → Cmd) : (s.modCmd t f).freeReads = s.freeReads := rfl
@[simp] theorem State.modCmd_out (s : State) (t : HostTag) (f : Cmd → Cmd) : (s.modCmd t f).out = s.out := rfl
@[simp] theorem State.modCmd_pending (s : State) (t : HostTag) (f : Cmd → Cmd) : (s.modCmd t f).pending = s.pending := rfl

/-! ### setCmdState -/

@[simp] theorem State.setCmdState_inReset (s : State) (t : HostTag) (st : CmdState) : (s.setCmdState t st).inReset = s.inReset := rfl
@[simp] theorem State.setCmdState_phase (s : State) (t : HostTag) (st : CmdState) : (s.setCmdState t st).phase = s.phase := rfl
@[simp] theorem State.setCmdState_identity (s : State) (t : HostTag) (st : CmdState) : (s.setCmdState t st).identity = s.identity := rfl
@[simp] theorem State.setCmdState_host (s : State) (t : HostTag) (st : CmdState) : (s.setCmdState t st).host = s.host := rfl
@[simp] theorem State.setCmdState_map (s : State) (t : HostTag) (st : CmdState) : (s.setCmdState t st).map = s.map := rfl
@[simp] theorem State.setCmdState_slots (s : State) (t : HostTag) (st : CmdState) : (s.setCmdState t st).slots = s.slots := rfl
@[simp] theorem State.setCmdState_buffer (s : State) (t : HostTag) (st : CmdState) : (s.setCmdState t st).buffer = s.buffer := rfl
@[simp] theorem State.setCmdState_lanes (s : State) (t : HostTag) (st : CmdState) : (s.setCmdState t st).lanes = s.lanes := rfl
@[simp] theorem State.setCmdState_drive (s : State) (t : HostTag) (st : CmdState) : (s.setCmdState t st).drive = s.drive := rfl
@[simp] theorem State.setCmdState_cat (s : State) (t : HostTag) (st : CmdState) : (s.setCmdState t st).cat = s.cat := rfl
@[simp] theorem State.setCmdState_clock (s : State) (t : HostTag) (st : CmdState) : (s.setCmdState t st).clock = s.clock := rfl
@[simp] theorem State.setCmdState_mon (s : State) (t : HostTag) (st : CmdState) : (s.setCmdState t st).mon = s.mon := rfl
@[simp] theorem State.setCmdState_win (s : State) (t : HostTag) (st : CmdState) : (s.setCmdState t st).win = s.win := rfl
@[simp] theorem State.setCmdState_draws (s : State) (t : HostTag) (st : CmdState) : (s.setCmdState t st).draws = s.draws := rfl
@[simp] theorem State.setCmdState_stamp (s : State) (t : HostTag) (st : CmdState) : (s.setCmdState t st).stamp = s.stamp := rfl
@[simp] theorem State.setCmdState_freeReads (s : State) (t : HostTag) (st : CmdState) : (s.setCmdState t st).freeReads = s.freeReads := rfl
@[simp] theorem State.setCmdState_out (s : State) (t : HostTag) (st : CmdState) : (s.setCmdState t st).out = s.out := rfl
@[simp] theorem State.setCmdState_pending (s : State) (t : HostTag) (st : CmdState) : (s.setCmdState t st).pending = s.pending := rfl

/-! ### emit -/

@[simp] theorem State.emit_inReset (s : State) (o : Output) : (s.emit o).inReset = s.inReset := rfl
@[simp] theorem State.emit_phase (s : State) (o : Output) : (s.emit o).phase = s.phase := rfl
@[simp] theorem State.emit_identity (s : State) (o : Output) : (s.emit o).identity = s.identity := rfl
@[simp] theorem State.emit_host (s : State) (o : Output) : (s.emit o).host = s.host := rfl
@[simp] theorem State.emit_table (s : State) (o : Output) : (s.emit o).table = s.table := rfl
@[simp] theorem State.emit_map (s : State) (o : Output) : (s.emit o).map = s.map := rfl
@[simp] theorem State.emit_slots (s : State) (o : Output) : (s.emit o).slots = s.slots := rfl
@[simp] theorem State.emit_buffer (s : State) (o : Output) : (s.emit o).buffer = s.buffer := rfl
@[simp] theorem State.emit_lanes (s : State) (o : Output) : (s.emit o).lanes = s.lanes := rfl
@[simp] theorem State.emit_drive (s : State) (o : Output) : (s.emit o).drive = s.drive := rfl
@[simp] theorem State.emit_cat (s : State) (o : Output) : (s.emit o).cat = s.cat := rfl
@[simp] theorem State.emit_clock (s : State) (o : Output) : (s.emit o).clock = s.clock := rfl
@[simp] theorem State.emit_mon (s : State) (o : Output) : (s.emit o).mon = s.mon := rfl
@[simp] theorem State.emit_win (s : State) (o : Output) : (s.emit o).win = s.win := rfl
@[simp] theorem State.emit_draws (s : State) (o : Output) : (s.emit o).draws = s.draws := rfl
@[simp] theorem State.emit_stamp (s : State) (o : Output) : (s.emit o).stamp = s.stamp := rfl
@[simp] theorem State.emit_freeReads (s : State) (o : Output) : (s.emit o).freeReads = s.freeReads := rfl
@[simp] theorem State.emit_pending (s : State) (o : Output) : (s.emit o).pending = s.pending := rfl

/-! ### tickStamp -/

@[simp] theorem State.tickStamp_inReset (s : State) : (s.tickStamp).inReset = s.inReset := rfl
@[simp] theorem State.tickStamp_phase (s : State) : (s.tickStamp).phase = s.phase := rfl
@[simp] theorem State.tickStamp_identity (s : State) : (s.tickStamp).identity = s.identity := rfl
@[simp] theorem State.tickStamp_host (s : State) : (s.tickStamp).host = s.host := rfl
@[simp] theorem State.tickStamp_table (s : State) : (s.tickStamp).table = s.table := rfl
@[simp] theorem State.tickStamp_map (s : State) : (s.tickStamp).map = s.map := rfl
@[simp] theorem State.tickStamp_slots (s : State) : (s.tickStamp).slots = s.slots := rfl
@[simp] theorem State.tickStamp_buffer (s : State) : (s.tickStamp).buffer = s.buffer := rfl
@[simp] theorem State.tickStamp_lanes (s : State) : (s.tickStamp).lanes = s.lanes := rfl
@[simp] theorem State.tickStamp_drive (s : State) : (s.tickStamp).drive = s.drive := rfl
@[simp] theorem State.tickStamp_cat (s : State) : (s.tickStamp).cat = s.cat := rfl
@[simp] theorem State.tickStamp_clock (s : State) : (s.tickStamp).clock = s.clock := rfl
@[simp] theorem State.tickStamp_mon (s : State) : (s.tickStamp).mon = s.mon := rfl
@[simp] theorem State.tickStamp_win (s : State) : (s.tickStamp).win = s.win := rfl
@[simp] theorem State.tickStamp_draws (s : State) : (s.tickStamp).draws = s.draws := rfl
@[simp] theorem State.tickStamp_freeReads (s : State) : (s.tickStamp).freeReads = s.freeReads := rfl
@[simp] theorem State.tickStamp_out (s : State) : (s.tickStamp).out = s.out := rfl
@[simp] theorem State.tickStamp_pending (s : State) : (s.tickStamp).pending = s.pending := rfl

/-! ### drawn -/

@[simp] theorem State.drawn_inReset (s : State) : (s.drawn).inReset = s.inReset := rfl
@[simp] theorem State.drawn_phase (s : State) : (s.drawn).phase = s.phase := rfl
@[simp] theorem State.drawn_identity (s : State) : (s.drawn).identity = s.identity := rfl
@[simp] theorem State.drawn_host (s : State) : (s.drawn).host = s.host := rfl
@[simp] theorem State.drawn_table (s : State) : (s.drawn).table = s.table := rfl
@[simp] theorem State.drawn_map (s : State) : (s.drawn).map = s.map := rfl
@[simp] theorem State.drawn_slots (s : State) : (s.drawn).slots = s.slots := rfl
@[simp] theorem State.drawn_buffer (s : State) : (s.drawn).buffer = s.buffer := rfl
@[simp] theorem State.drawn_lanes (s : State) : (s.drawn).lanes = s.lanes := rfl
@[simp] theorem State.drawn_drive (s : State) : (s.drawn).drive = s.drive := rfl
@[simp] theorem State.drawn_cat (s : State) : (s.drawn).cat = s.cat := rfl
@[simp] theorem State.drawn_clock (s : State) : (s.drawn).clock = s.clock := rfl
@[simp] theorem State.drawn_mon (s : State) : (s.drawn).mon = s.mon := rfl
@[simp] theorem State.drawn_win (s : State) : (s.drawn).win = s.win := rfl
@[simp] theorem State.drawn_stamp (s : State) : (s.drawn).stamp = s.stamp := rfl
@[simp] theorem State.drawn_freeReads (s : State) : (s.drawn).freeReads = s.freeReads := rfl
@[simp] theorem State.drawn_out (s : State) : (s.drawn).out = s.out := rfl
@[simp] theorem State.drawn_pending (s : State) : (s.drawn).pending = s.pending := rfl

/-! ### drawNonce -/

@[simp] theorem State.drawNonce_inReset (s : State) : (s.drawNonce).inReset = s.inReset := rfl
@[simp] theorem State.drawNonce_phase (s : State) : (s.drawNonce).phase = s.phase := rfl
@[simp] theorem State.drawNonce_identity (s : State) : (s.drawNonce).identity = s.identity := rfl
@[simp] theorem State.drawNonce_host (s : State) : (s.drawNonce).host = s.host := rfl
@[simp] theorem State.drawNonce_table (s : State) : (s.drawNonce).table = s.table := rfl
@[simp] theorem State.drawNonce_map (s : State) : (s.drawNonce).map = s.map := rfl
@[simp] theorem State.drawNonce_slots (s : State) : (s.drawNonce).slots = s.slots := rfl
@[simp] theorem State.drawNonce_buffer (s : State) : (s.drawNonce).buffer = s.buffer := rfl
@[simp] theorem State.drawNonce_lanes (s : State) : (s.drawNonce).lanes = s.lanes := rfl
@[simp] theorem State.drawNonce_drive (s : State) : (s.drawNonce).drive = s.drive := rfl
@[simp] theorem State.drawNonce_cat (s : State) : (s.drawNonce).cat = s.cat := rfl
@[simp] theorem State.drawNonce_clock (s : State) : (s.drawNonce).clock = s.clock := rfl
@[simp] theorem State.drawNonce_mon (s : State) : (s.drawNonce).mon = s.mon := rfl
@[simp] theorem State.drawNonce_stamp (s : State) : (s.drawNonce).stamp = s.stamp := rfl
@[simp] theorem State.drawNonce_freeReads (s : State) : (s.drawNonce).freeReads = s.freeReads := rfl
@[simp] theorem State.drawNonce_out (s : State) : (s.drawNonce).out = s.out := rfl
@[simp] theorem State.drawNonce_pending (s : State) : (s.drawNonce).pending = s.pending := rfl

/-! ### setFlag -/

@[simp] theorem State.setFlag_inReset (s : State) (f : EventFlag) : (s.setFlag f).inReset = s.inReset := rfl
@[simp] theorem State.setFlag_phase (s : State) (f : EventFlag) : (s.setFlag f).phase = s.phase := rfl
@[simp] theorem State.setFlag_identity (s : State) (f : EventFlag) : (s.setFlag f).identity = s.identity := rfl
@[simp] theorem State.setFlag_host (s : State) (f : EventFlag) : (s.setFlag f).host = s.host := rfl
@[simp] theorem State.setFlag_table (s : State) (f : EventFlag) : (s.setFlag f).table = s.table := rfl
@[simp] theorem State.setFlag_map (s : State) (f : EventFlag) : (s.setFlag f).map = s.map := rfl
@[simp] theorem State.setFlag_slots (s : State) (f : EventFlag) : (s.setFlag f).slots = s.slots := rfl
@[simp] theorem State.setFlag_buffer (s : State) (f : EventFlag) : (s.setFlag f).buffer = s.buffer := rfl
@[simp] theorem State.setFlag_lanes (s : State) (f : EventFlag) : (s.setFlag f).lanes = s.lanes := rfl
@[simp] theorem State.setFlag_drive (s : State) (f : EventFlag) : (s.setFlag f).drive = s.drive := rfl
@[simp] theorem State.setFlag_cat (s : State) (f : EventFlag) : (s.setFlag f).cat = s.cat := rfl
@[simp] theorem State.setFlag_clock (s : State) (f : EventFlag) : (s.setFlag f).clock = s.clock := rfl
@[simp] theorem State.setFlag_mon (s : State) (f : EventFlag) : (s.setFlag f).mon = s.mon := rfl
@[simp] theorem State.setFlag_draws (s : State) (f : EventFlag) : (s.setFlag f).draws = s.draws := rfl
@[simp] theorem State.setFlag_stamp (s : State) (f : EventFlag) : (s.setFlag f).stamp = s.stamp := rfl
@[simp] theorem State.setFlag_freeReads (s : State) (f : EventFlag) : (s.setFlag f).freeReads = s.freeReads := rfl
@[simp] theorem State.setFlag_out (s : State) (f : EventFlag) : (s.setFlag f).out = s.out := rfl
@[simp] theorem State.setFlag_pending (s : State) (f : EventFlag) : (s.setFlag f).pending = s.pending := rfl

/-! ### modFrame -/

@[simp] theorem State.modFrame_inReset (s : State) (n : Nat) (f : Frame → Frame) : (s.modFrame n f).inReset = s.inReset := rfl
@[simp] theorem State.modFrame_phase (s : State) (n : Nat) (f : Frame → Frame) : (s.modFrame n f).phase = s.phase := rfl
@[simp] theorem State.modFrame_identity (s : State) (n : Nat) (f : Frame → Frame) : (s.modFrame n f).identity = s.identity := rfl
@[simp] theorem State.modFrame_host (s : State) (n : Nat) (f : Frame → Frame) : (s.modFrame n f).host = s.host := rfl
@[simp] theorem State.modFrame_table (s : State) (n : Nat) (f : Frame → Frame) : (s.modFrame n f).table = s.table := rfl
@[simp] theorem State.modFrame_map (s : State) (n : Nat) (f : Frame → Frame) : (s.modFrame n f).map = s.map := rfl
@[simp] theorem State.modFrame_slots (s : State) (n : Nat) (f : Frame → Frame) : (s.modFrame n f).slots = s.slots := rfl
@[simp] theorem State.modFrame_lanes (s : State) (n : Nat) (f : Frame → Frame) : (s.modFrame n f).lanes = s.lanes := rfl
@[simp] theorem State.modFrame_drive (s : State) (n : Nat) (f : Frame → Frame) : (s.modFrame n f).drive = s.drive := rfl
@[simp] theorem State.modFrame_cat (s : State) (n : Nat) (f : Frame → Frame) : (s.modFrame n f).cat = s.cat := rfl
@[simp] theorem State.modFrame_clock (s : State) (n : Nat) (f : Frame → Frame) : (s.modFrame n f).clock = s.clock := rfl
@[simp] theorem State.modFrame_mon (s : State) (n : Nat) (f : Frame → Frame) : (s.modFrame n f).mon = s.mon := rfl
@[simp] theorem State.modFrame_win (s : State) (n : Nat) (f : Frame → Frame) : (s.modFrame n f).win = s.win := rfl
@[simp] theorem State.modFrame_draws (s : State) (n : Nat) (f : Frame → Frame) : (s.modFrame n f).draws = s.draws := rfl
@[simp] theorem State.modFrame_stamp (s : State) (n : Nat) (f : Frame → Frame) : (s.modFrame n f).stamp = s.stamp := rfl
@[simp] theorem State.modFrame_freeReads (s : State) (n : Nat) (f : Frame → Frame) : (s.modFrame n f).freeReads = s.freeReads := rfl
@[simp] theorem State.modFrame_out (s : State) (n : Nat) (f : Frame → Frame) : (s.modFrame n f).out = s.out := rfl
@[simp] theorem State.modFrame_pending (s : State) (n : Nat) (f : Frame → Frame) : (s.modFrame n f).pending = s.pending := rfl

/-! ### holdFrame -/

@[simp] theorem State.holdFrame_inReset (s : State) (f : Frame) : (s.holdFrame f).inReset = s.inReset := rfl
@[simp] theorem State.holdFrame_phase (s : State) (f : Frame) : (s.holdFrame f).phase = s.phase := rfl
@[simp] theorem State.holdFrame_identity (s : State) (f : Frame) : (s.holdFrame f).identity = s.identity := rfl
@[simp] theorem State.holdFrame_host (s : State) (f : Frame) : (s.holdFrame f).host = s.host := rfl
@[simp] theorem State.holdFrame_table (s : State) (f : Frame) : (s.holdFrame f).table = s.table := rfl
@[simp] theorem State.holdFrame_map (s : State) (f : Frame) : (s.holdFrame f).map = s.map := rfl
@[simp] theorem State.holdFrame_slots (s : State) (f : Frame) : (s.holdFrame f).slots = s.slots := rfl
@[simp] theorem State.holdFrame_lanes (s : State) (f : Frame) : (s.holdFrame f).lanes = s.lanes := rfl
@[simp] theorem State.holdFrame_drive (s : State) (f : Frame) : (s.holdFrame f).drive = s.drive := rfl
@[simp] theorem State.holdFrame_cat (s : State) (f : Frame) : (s.holdFrame f).cat = s.cat := rfl
@[simp] theorem State.holdFrame_clock (s : State) (f : Frame) : (s.holdFrame f).clock = s.clock := rfl
@[simp] theorem State.holdFrame_mon (s : State) (f : Frame) : (s.holdFrame f).mon = s.mon := rfl
@[simp] theorem State.holdFrame_win (s : State) (f : Frame) : (s.holdFrame f).win = s.win := rfl
@[simp] theorem State.holdFrame_draws (s : State) (f : Frame) : (s.holdFrame f).draws = s.draws := rfl
@[simp] theorem State.holdFrame_stamp (s : State) (f : Frame) : (s.holdFrame f).stamp = s.stamp := rfl
@[simp] theorem State.holdFrame_freeReads (s : State) (f : Frame) : (s.holdFrame f).freeReads = s.freeReads := rfl
@[simp] theorem State.holdFrame_out (s : State) (f : Frame) : (s.holdFrame f).out = s.out := rfl
@[simp] theorem State.holdFrame_pending (s : State) (f : Frame) : (s.holdFrame f).pending = s.pending := rfl

/-! ### setRequests -/

@[simp] theorem State.setRequests_inReset (s : State) (rs : List Req) : (s.setRequests rs).inReset = s.inReset := rfl
@[simp] theorem State.setRequests_phase (s : State) (rs : List Req) : (s.setRequests rs).phase = s.phase := rfl
@[simp] theorem State.setRequests_identity (s : State) (rs : List Req) : (s.setRequests rs).identity = s.identity := rfl
@[simp] theorem State.setRequests_host (s : State) (rs : List Req) : (s.setRequests rs).host = s.host := rfl
@[simp] theorem State.setRequests_table (s : State) (rs : List Req) : (s.setRequests rs).table = s.table := rfl
@[simp] theorem State.setRequests_map (s : State) (rs : List Req) : (s.setRequests rs).map = s.map := rfl
@[simp] theorem State.setRequests_slots (s : State) (rs : List Req) : (s.setRequests rs).slots = s.slots := rfl
@[simp] theorem State.setRequests_lanes (s : State) (rs : List Req) : (s.setRequests rs).lanes = s.lanes := rfl
@[simp] theorem State.setRequests_drive (s : State) (rs : List Req) : (s.setRequests rs).drive = s.drive := rfl
@[simp] theorem State.setRequests_cat (s : State) (rs : List Req) : (s.setRequests rs).cat = s.cat := rfl
@[simp] theorem State.setRequests_clock (s : State) (rs : List Req) : (s.setRequests rs).clock = s.clock := rfl
@[simp] theorem State.setRequests_mon (s : State) (rs : List Req) : (s.setRequests rs).mon = s.mon := rfl
@[simp] theorem State.setRequests_win (s : State) (rs : List Req) : (s.setRequests rs).win = s.win := rfl
@[simp] theorem State.setRequests_draws (s : State) (rs : List Req) : (s.setRequests rs).draws = s.draws := rfl
@[simp] theorem State.setRequests_stamp (s : State) (rs : List Req) : (s.setRequests rs).stamp = s.stamp := rfl
@[simp] theorem State.setRequests_freeReads (s : State) (rs : List Req) : (s.setRequests rs).freeReads = s.freeReads := rfl
@[simp] theorem State.setRequests_out (s : State) (rs : List Req) : (s.setRequests rs).out = s.out := rfl
@[simp] theorem State.setRequests_pending (s : State) (rs : List Req) : (s.setRequests rs).pending = s.pending := rfl

/-! ### modFlight -/

@[simp] theorem State.modFlight_inReset (s : State) (t : SvcTag) (f : Flight → Flight) : (s.modFlight t f).inReset = s.inReset := rfl
@[simp] theorem State.modFlight_phase (s : State) (t : SvcTag) (f : Flight → Flight) : (s.modFlight t f).phase = s.phase := rfl
@[simp] theorem State.modFlight_identity (s : State) (t : SvcTag) (f : Flight → Flight) : (s.modFlight t f).identity = s.identity := rfl
@[simp] theorem State.modFlight_host (s : State) (t : SvcTag) (f : Flight → Flight) : (s.modFlight t f).host = s.host := rfl
@[simp] theorem State.modFlight_table (s : State) (t : SvcTag) (f : Flight → Flight) : (s.modFlight t f).table = s.table := rfl
@[simp] theorem State.modFlight_map (s : State) (t : SvcTag) (f : Flight → Flight) : (s.modFlight t f).map = s.map := rfl
@[simp] theorem State.modFlight_slots (s : State) (t : SvcTag) (f : Flight → Flight) : (s.modFlight t f).slots = s.slots := rfl
@[simp] theorem State.modFlight_buffer (s : State) (t : SvcTag) (f : Flight → Flight) : (s.modFlight t f).buffer = s.buffer := rfl
@[simp] theorem State.modFlight_lanes (s : State) (t : SvcTag) (f : Flight → Flight) : (s.modFlight t f).lanes = s.lanes := rfl
@[simp] theorem State.modFlight_drive (s : State) (t : SvcTag) (f : Flight → Flight) : (s.modFlight t f).drive = s.drive := rfl
@[simp] theorem State.modFlight_clock (s : State) (t : SvcTag) (f : Flight → Flight) : (s.modFlight t f).clock = s.clock := rfl
@[simp] theorem State.modFlight_mon (s : State) (t : SvcTag) (f : Flight → Flight) : (s.modFlight t f).mon = s.mon := rfl
@[simp] theorem State.modFlight_win (s : State) (t : SvcTag) (f : Flight → Flight) : (s.modFlight t f).win = s.win := rfl
@[simp] theorem State.modFlight_draws (s : State) (t : SvcTag) (f : Flight → Flight) : (s.modFlight t f).draws = s.draws := rfl
@[simp] theorem State.modFlight_stamp (s : State) (t : SvcTag) (f : Flight → Flight) : (s.modFlight t f).stamp = s.stamp := rfl
@[simp] theorem State.modFlight_freeReads (s : State) (t : SvcTag) (f : Flight → Flight) : (s.modFlight t f).freeReads = s.freeReads := rfl
@[simp] theorem State.modFlight_out (s : State) (t : SvcTag) (f : Flight → Flight) : (s.modFlight t f).out = s.out := rfl
@[simp] theorem State.modFlight_pending (s : State) (t : SvcTag) (f : Flight → Flight) : (s.modFlight t f).pending = s.pending := rfl

/-! ### quiet -/

@[simp] theorem State.quiet_inReset (s : State) : (s.quiet).inReset = s.inReset := rfl
@[simp] theorem State.quiet_phase (s : State) : (s.quiet).phase = s.phase := rfl
@[simp] theorem State.quiet_identity (s : State) : (s.quiet).identity = s.identity := rfl
@[simp] theorem State.quiet_host (s : State) : (s.quiet).host = s.host := rfl
@[simp] theorem State.quiet_table (s : State) : (s.quiet).table = s.table := rfl
@[simp] theorem State.quiet_map (s : State) : (s.quiet).map = s.map := rfl
@[simp] theorem State.quiet_slots (s : State) : (s.quiet).slots = s.slots := rfl
@[simp] theorem State.quiet_buffer (s : State) : (s.quiet).buffer = s.buffer := rfl
@[simp] theorem State.quiet_lanes (s : State) : (s.quiet).lanes = s.lanes := rfl
@[simp] theorem State.quiet_drive (s : State) : (s.quiet).drive = s.drive := rfl
@[simp] theorem State.quiet_cat (s : State) : (s.quiet).cat = s.cat := rfl
@[simp] theorem State.quiet_clock (s : State) : (s.quiet).clock = s.clock := rfl
@[simp] theorem State.quiet_mon (s : State) : (s.quiet).mon = s.mon := rfl
@[simp] theorem State.quiet_win (s : State) : (s.quiet).win = s.win := rfl
@[simp] theorem State.quiet_draws (s : State) : (s.quiet).draws = s.draws := rfl
@[simp] theorem State.quiet_stamp (s : State) : (s.quiet).stamp = s.stamp := rfl
@[simp] theorem State.quiet_freeReads (s : State) : (s.quiet).freeReads = s.freeReads := rfl
@[simp] theorem State.quiet_pending (s : State) : (s.quiet).pending = s.pending := rfl

/-! ### What the updates write -/

@[simp] theorem State.emit_out (s : State) (o : Output) : (s.emit o).out = s.out ++ [o] := rfl
@[simp] theorem State.tickStamp_stamp (s : State) : s.tickStamp.stamp = s.stamp + 1 := rfl
@[simp] theorem State.drawn_draws (s : State) : s.drawn.draws = s.draws + 1 := rfl
@[simp] theorem State.drawNonce_draws (s : State) : s.drawNonce.draws = s.draws + 1 := rfl
@[simp] theorem State.drawNonce_nonce (s : State) : s.drawNonce.win.nonce = Config.nonce s.draws := rfl
@[simp] theorem State.setFlag_flags (s : State) (f : EventFlag) : (s.setFlag f).win.flags = s.win.flags ||| f.bit := rfl
@[simp] theorem State.setFlag_executing (s : State) (f : EventFlag) :
    (s.setFlag f).win.executing = s.win.executing := rfl
@[simp] theorem State.setFlag_reply (s : State) (f : EventFlag) : (s.setFlag f).win.reply = s.win.reply := rfl
@[simp] theorem State.setFlag_nonce (s : State) (f : EventFlag) : (s.setFlag f).win.nonce = s.win.nonce := rfl
@[simp] theorem State.quiet_out (s : State) : s.quiet.out = [] := rfl
@[simp] theorem State.modFrame_requests (s : State) (n : Nat) (f : Frame → Frame) :
    (s.modFrame n f).buffer.requests = s.buffer.requests := rfl
@[simp] theorem State.setRequests_frames (s : State) (rs : List Req) :
    (s.setRequests rs).buffer.frames = s.buffer.frames := rfl

/-! ### Reading a slot after an update -/

@[simp] theorem State.slot_setSlot_same (s : State) (i : SlotIx) (t : TitleSlot) : (s.setSlot i t).slot i = t := by
  simp [State.slot, State.setSlot]

theorem State.slot_setSlot_other (s : State) (i k : SlotIx) (t : TitleSlot) (h : k ≠ i) :
    (s.setSlot i t).slot k = s.slot k := by
  have h' : (i : Nat) ≠ (k : Nat) := fun e => h (Fin.ext e.symm)
  simp [State.slot, State.setSlot, h']

@[simp] theorem State.slot_modSlot_same (s : State) (i : SlotIx) (f : TitleSlot → TitleSlot) :
    (s.modSlot i f).slot i = f (s.slot i) := by
  simp [State.modSlot]

theorem State.slot_modSlot_other (s : State) (i k : SlotIx) (f : TitleSlot → TitleSlot) (h : k ≠ i) :
    (s.modSlot i f).slot k = s.slot k := by
  simp [State.modSlot, State.slot_setSlot_other, h]

/-! ### Small results -/

@[simp] theorem act_inReset (s : State) (f : State → State) (h : s.inReset = true) : act s f = .next s.quiet := by
  simp [act, h]

@[simp] theorem act_running (s : State) (f : State → State) (h : s.inReset = false) : act s f = .next (f s.quiet) := by
  simp [act, h]

end Sys2Proof.Machine
end

