-- ==== Sys2Proof/Laws/Moves.lean ====
section
/-!
SUPPORT. What the traffic of a step can do. `Traffic s t` says that t is reached from s by single moves of the kinds of
`TMove`: the host port, the lanes, the drive port, the catalogue's work, the map, the frames, the commands, the slots,
the reply. One lemma for each shared operation says that it does no more than that; `Traffic.keeps` says what all such
moves leave alone.
-/

namespace Sys2Proof.Machine

/-- A slot changes without entering or leaving IDLE, under its number; an empty one stays empty. -/
structure SlotStep (a b : TitleSlot) : Prop where
  number : b.number = a.number
  phase : b.phase = .idle ↔ a.phase = .idle
  empty : a = TitleSlot.empty → b = TitleSlot.empty

/-- A slot that is not IDLE stays so, under its number. -/
theorem SlotStep.busy {a b : TitleSlot} (h : a.phase ≠ .idle) (h1 : b.phase ≠ .idle) (hn : b.number = a.number) :
    SlotStep a b :=
  ⟨hn, ⟨fun e => absurd e h1, fun e => absurd e h⟩, fun e => absurd (by rw [e]; rfl) h⟩

/-- The single moves of a step's traffic. -/
inductive TMove : State → State → Prop
  | host (s : State) (h : HostPort) (hr : h.rangeSector = s.host.rangeSector) : TMove s { s with host := h }
  | lanes (s : State) (x : Transform) : TMove s { s with lanes := x }
  | drive (s : State) (d : DrivePort) (hl : d.link = s.drive.link) : TMove s { s with drive := d }
  | cat (s : State) (c : Catalogue) (hh : c.header = s.cat.header) : TMove s { s with cat := c }
  | map (s : State) (m : List Extent) (hm : m.Sublist s.map) : TMove s { s with map := m }
  | stamp (s : State) (n : Nat) : TMove s { s with stamp := n }
  | freeReads (s : State) (n : Nat) : TMove s { s with freeReads := n }
  | out (s : State) (o : List Output) : TMove s { s with out := o }
  | requests (s : State) (rs : List Req) : TMove s (s.setRequests rs)
  | hold (s : State) (f : Frame) (h8 : s.framesHeld f.holder < Config.framesPerCommand)
      (hn : s.lowestFree = some f.num) : TMove s (s.holdFrame f)
  | dropFrames (s : State) (p : Frame → Bool) :
      TMove s { s with buffer := { s.buffer with frames := s.buffer.frames.filter p } }
  | modFrames (s : State) (g : Frame → Frame) (hg : ∀ f, (g f).num = f.num ∧ (g f).holder = f.holder) :
      TMove s { s with buffer := { s.buffer with frames := s.buffer.frames.map g } }
  | dropCmds (s : State) (p : Cmd → Bool) : TMove s { s with table := s.table.filter p }
  | modCmds (s : State) (g : Cmd → Cmd) (ht : ∀ c ∈ s.table, (g c).tag = c.tag)
      (hp : ∀ c ∈ s.table, ∃ d ∈ s.table, (g c).tag = d.tag ∧ (g c).pieces = d.pieces) :
      TMove s { s with table := s.table.map g }
  | slot (s : State) (i : SlotIx) (t : TitleSlot) (h : SlotStep (s.slot i) t) : TMove s (s.setSlot i t)
  | idle (s : State) (i : SlotIx) : TMove s (s.setSlot i TitleSlot.empty)
  | window (s : State) (e : Option Executing) (r : Option Reply) :
      TMove s { s with win := { s.win with executing := e, reply := r } }

/-- t is reached from s by traffic. -/
inductive Traffic : State → State → Prop
  | refl {s : State} : Traffic s s
  | tail {s t u : State} (h : Traffic s t) (m : TMove t u) : Traffic s u

namespace Traffic

theorem one {s t : State} (h : TMove s t) : Traffic s t := .tail .refl h

theorem trans {s t u : State} (h : Traffic s t) (k : Traffic t u) : Traffic s u := by
  induction k with
  | refl => exact h
  | tail _ m ih => exact .tail ih m

/-- A fold of operations that are each traffic is traffic. -/
theorem foldl {α : Type} {f : State → α → State} (hf : ∀ s a, Traffic s (f s a)) :
    ∀ (l : List α) (s : State), Traffic s (l.foldl f s)
  | [], _ => .refl
  | a :: l, s => (hf s a).trans (foldl hf l (f s a))

end Traffic

/-- What traffic leaves alone: t has the part-wide settings of s. -/
structure Keeps (s t : State) : Prop where
  inReset : t.inReset = s.inReset
  phase : t.phase = s.phase
  identity : t.identity = s.identity
  clock : t.clock = s.clock
  mon : t.mon = s.mon
  draws : t.draws = s.draws
  pending : t.pending = s.pending
  header : t.cat.header = s.cat.header
  nonce : t.win.nonce = s.win.nonce
  last : t.win.last = s.win.last
  flags : t.win.flags = s.win.flags
  readPolicy : t.win.readPolicy = s.win.readPolicy
  writePolicy : t.win.writePolicy = s.win.writePolicy
  deallocatePolicy : t.win.deallocatePolicy = s.win.deallocatePolicy
  link : t.drive.link = s.drive.link
  ceiling : t.buffer.ceiling = s.buffer.ceiling
  rangeSector : t.host.rangeSector = s.host.rangeSector

theorem Keeps.refl (s : State) : Keeps s s := by constructor <;> rfl

theorem Keeps.trans {a b c : State} (h1 : Keeps a b) (h2 : Keeps b c) : Keeps a c := by
  constructor
  · exact h2.inReset.trans h1.inReset
  · exact h2.phase.trans h1.phase
  · exact h2.identity.trans h1.identity
  · exact h2.clock.trans h1.clock
  · exact h2.mon.trans h1.mon
  · exact h2.draws.trans h1.draws
  · exact h2.pending.trans h1.pending
  · exact h2.header.trans h1.header
  · exact h2.nonce.trans h1.nonce
  · exact h2.last.trans h1.last
  · exact h2.flags.trans h1.flags
  · exact h2.readPolicy.trans h1.readPolicy
  · exact h2.writePolicy.trans h1.writePolicy
  · exact h2.deallocatePolicy.trans h1.deallocatePolicy
  · exact h2.link.trans h1.link
  · exact h2.ceiling.trans h1.ceiling
  · exact h2.rangeSector.trans h1.rangeSector

theorem TMove.keeps {s t : State} (h : TMove s t) : Keeps s t := by
  cases h <;> constructor <;> first | rfl | assumption

theorem Traffic.keeps {s t : State} (h : Traffic s t) : Keeps s t := by
  induction h with
  | refl => exact .refl _
  | tail _ h ih => exact ih.trans h.keeps

/-! ### Plain updates -/

theorem traffic_slot (s : State) (i : SlotIx) (t : TitleSlot) (h : SlotStep (s.slot i) t) : Traffic s (s.setSlot i t) :=
  .one (.slot s i t h)
theorem traffic_modSlot (s : State) (i : SlotIx) (f : TitleSlot → TitleSlot) (h : SlotStep (s.slot i) (f (s.slot i))) :
    Traffic s (s.modSlot i f) := .one (.slot s i _ h)

theorem traffic_modCmd (s : State) (t : HostTag) (f : Cmd → Cmd) (h : ∀ c, (f c).tag = c.tag ∧ (f c).pieces = c.pieces) :
    Traffic s (s.modCmd t f) := by
  refine .one (.modCmds s _ (fun c _ => ?_) fun c hc => ⟨c, hc, ?_⟩)
  · by_cases e : c.tag = t
    · simp only [e, if_true]; exact (h c).1.trans e
    · simp only [e, if_false]
  · by_cases e : c.tag = t
    · simp only [e, if_true]; exact ⟨(h c).1.trans e, (h c).2⟩
    · simp only [e, if_false]; exact ⟨trivial, trivial⟩

theorem cmd?_mem {s : State} {t : HostTag} {c : Cmd} (h : s.cmd? t = some c) : c ∈ s.table ∧ c.tag = t :=
  ⟨List.mem_of_find?_eq_some h, by have := List.find?_some h; simp only [Bool.and_eq_true, decide_eq_true_eq] at this; exact this.1⟩

/-- The command of a tag is replaced by a changed copy of it. -/
theorem traffic_putCmd (s : State) (t : HostTag) (c d : Cmd) (h : s.cmd? t = some c) (ht : d.tag = c.tag)
    (hp : d.pieces = c.pieces) : Traffic s (s.modCmd t fun _ => d) := by
  obtain ⟨hm, he⟩ := cmd?_mem h
  refine .one (.modCmds s _ (fun x _ => ?_) fun x hx => ?_)
  · by_cases e : x.tag = t
    · simp only [e, if_true]; exact ht.trans he
    · simp only [e, if_false]
  · by_cases e : x.tag = t
    · simp only [e, if_true]; exact ⟨c, hm, ht, hp⟩
    · simp only [e, if_false]; exact ⟨x, hx, rfl, rfl⟩

theorem traffic_setCmdState (s : State) (t : HostTag) (st : CmdState) : Traffic s (s.setCmdState t st) :=
  traffic_modCmd s t _ fun _ => ⟨rfl, rfl⟩

theorem traffic_modFrame (s : State) (n : Nat) (f : Frame → Frame)
    (h : ∀ x, (f x).num = x.num ∧ (f x).holder = x.holder) : Traffic s (s.modFrame n f) := by
  refine .one (.modFrames s _ fun x => ?_)
  by_cases e : x.num = n
  · simp only [e, if_true]; exact ⟨(h x).1.trans e, (h x).2⟩
  · simp only [e, if_false]; exact ⟨trivial, trivial⟩

theorem traffic_modFlight (s : State) (t : SvcTag) (f : Flight → Flight) : Traffic s (s.modFlight t f) :=
  .one (.cat s _ rfl)
theorem traffic_emit (s : State) (o : Output) : Traffic s (s.emit o) := .one (.out s _)
theorem traffic_quiet (s : State) : Traffic s s.quiet := .one (.out s _)
theorem traffic_tickStamp (s : State) : Traffic s s.tickStamp := .one (.stamp s _)
theorem traffic_setRequests (s : State) (rs : List Req) : Traffic s (s.setRequests rs) := .one (.requests s rs)
theorem traffic_joinQueue (e : DriveCmd) (s : State) : Traffic s (joinQueue e s) := .one (.drive s _ rfl)
theorem traffic_takeClaim (i : Nat) (o : SvcOwner) (s : State) : Traffic s (takeClaim i o s) := .one (.cat s _ rfl)
theorem traffic_dropClaims (o : SvcOwner) (s : State) : Traffic s (dropClaims o s) := .one (.cat s _ rfl)
theorem traffic_setKnownGen (i : Nat) (g : Option Nat) (s : State) : Traffic s (setKnownGen i g s) :=
  .one (.cat s _ rfl)
theorem traffic_completionDue (c : Completion) (s : State) : Traffic s (completionDue c s) := .one (.host s _ rfl)
theorem traffic_driveCompletes (w : DriveWho) (s : State) : Traffic s (driveCompletes w s) := .one (.drive s _ rfl)
theorem traffic_endHostXfer (s : State) : Traffic s (endHostXfer s) := .one (.host s _ rfl)
theorem traffic_endDriveXfer (x : DriveXfer) (s : State) : Traffic s (endDriveXfer x s) := .one (.drive s _ rfl)

theorem traffic_dropRequests (t : HostTag) (s : State) : Traffic s (dropRequests t s) :=
  (Traffic.one (.requests s (s.buffer.requests.filter fun q => decide (q.tag ≠ t)))).trans (.one (.drive _ _ rfl))

theorem traffic_leaveLinks (t : HostTag) (s : State) : Traffic s (leaveLinks t s) :=
  .tail (.one (.drive s (leaveLinks t s).drive rfl)) (.host _ (leaveLinks t s).host rfl)

theorem traffic_dropWaits (t : HostTag) (s : State) : Traffic s (dropWaits t s) :=
  .one (.modCmds s _ (fun _ _ => rfl) fun c hc => ⟨c, hc, rfl, rfl⟩)

theorem traffic_stopLink (s : State) : Traffic s (stopLink s) :=
  (Traffic.one (.drive s { s.drive with hold := none, xfer := none } rfl)).trans (.one (.requests _ _))

theorem traffic_completeGood (t : HostTag) (s : State) : Traffic s (completeGood t s) :=
  (traffic_setCmdState s t .ending).trans (.one (.host _ _ rfl))

theorem traffic_driveReportsError (w : DriveWho) (s : State) : Traffic s (driveReportsError w s) := by
  unfold driveReportsError; split
  · exact (traffic_stopLink s).trans (.one (.drive _ _ rfl))
  · exact .refl

/-! ### Lanes (chapter 7) -/

theorem traffic_startJob (l : Fin 2) (j : Job) (s : State) : Traffic s (startJob l j s) := .one (.lanes s _)

theorem traffic_startsDone (s : State) : Traffic s (startsDone s) := .one (.lanes s _)

theorem traffic_submitJob (j : Job) (s : State) : Traffic s (submitJob j s) := by
  unfold submitJob; split
  · exact (traffic_startJob _ _ _).trans (traffic_startsDone _)
  · exact (traffic_startJob _ _ _).trans (traffic_startsDone _)
  · exact .one (.lanes s _)

theorem traffic_selectLane (l : Fin 2) (s : State) : Traffic s (selectLane l s) := by
  unfold selectLane; split
  · exact .one (.lanes s _)
  · exact (Traffic.one (.lanes s _)).trans (traffic_startJob _ _ _)

theorem traffic_refillLane (l : Fin 2) (s : State) : Traffic s (refillLane l s) :=
  (traffic_selectLane l s).trans (traffic_startsDone _)

theorem traffic_dropJobs (o : Owner) (s : State) : Traffic s (dropJobs o s) := by
  have h : Traffic s { s with lanes := { s.lanes with jobs := s.lanes.jobs.filter fun j => decide (j.owner ≠ o) } } :=
    .one (.lanes s _)
  unfold dropJobs
  simp only
  split <;> split <;>
    first
      | exact h
      | exact h.trans (traffic_refillLane _ _)
      | exact (h.trans (traffic_refillLane _ _)).trans (traffic_refillLane _ _)

/-! ### The frame buffer (chapter 6) -/

theorem traffic_startDriveXfer (p : Bool) (t : HostTag) (n : Nat) (s : State) :
    Traffic s (startDriveXfer p t n s) := by
  unfold startDriveXfer; split
  · exact .one (.drive s _ rfl)
  · exact .refl

/-- A grant to a command that holds fewer than 8 frames. -/
theorem traffic_grant (r : Req) (s : State) (h8 : s.framesHeld r.tag < Config.framesPerCommand) :
    Traffic s (grant r s) := by
  unfold grant
  split
  · rename_i c n _ hn
    have h : Traffic s (s.holdFrame (grantedFrame r c n s)).tickStamp := by
      refine (Traffic.one (.hold s _ ?_ ?_)).trans (traffic_tickStamp _)
      · have e : (grantedFrame r c n s).holder = r.tag := by unfold grantedFrame; split <;> rfl
        rw [e]; exact h8
      · have e : (grantedFrame r c n s).num = n := by unfold grantedFrame; split <;> rfl
        rw [e]; exact hn
    simp only
    split
    · exact h.trans (traffic_startDriveXfer _ _ _ _)
    · exact h.trans (traffic_modCmd _ _ _ fun _ => ⟨rfl, rfl⟩)
    · exact h.trans (traffic_modCmd _ _ _ fun _ => ⟨rfl, rfl⟩)
  · exact .refl

theorem grantable_held {r : Req} {s : State} (h : grantable r s = true) :
    s.framesHeld r.tag < Config.framesPerCommand := by
  unfold grantable at h
  simp only [Bool.and_eq_true, decide_eq_true_eq] at h
  exact h.1

theorem traffic_takeBase (t : HostTag) (n : Nat) (s : State) : Traffic s (takeBase t n s) := by
  unfold takeBase
  refine Traffic.trans ?_ (traffic_tickStamp _)
  refine Traffic.trans ?_ (traffic_modCmd _ t _ fun _ => ⟨rfl, rfl⟩)
  exact traffic_modFrame s n _ fun _ => ⟨rfl, rfl⟩

theorem wanted_tag {c : Cmd} {s : State} {r : Req} (h : wanted c s = .ask r) : r.tag = c.tag := by
  unfold wanted wantedFill wantedIntake at h
  simp only at h
  repeat' split at h
  all_goals first
    | contradiction
    | (injection h with h; subst h; rfl)

theorem traffic_followUp : ∀ (fuel : Nat) (t : HostTag) (s : State), Traffic s (followUp fuel t s)
  | 0, _, _ => .refl
  | fuel + 1, t, s => by
    unfold followUp
    split
    · exact .refl
    · split
      · exact .refl
      · exact (traffic_takeBase _ _ _).trans (traffic_followUp fuel t _)
      · split
        · rename_i hg
          exact (traffic_grant _ _ (grantable_held hg)).trans (traffic_followUp fuel t _)
        · exact traffic_setRequests _ _

theorem traffic_makeRequests (t : HostTag) (s : State) : Traffic s (makeRequests t s) := traffic_followUp 16 t s

theorem grantables_held {s : State} {r : Req} (h : r ∈ s.grantables) : s.framesHeld r.tag < Config.framesPerCommand :=
  grantable_held (List.mem_filter.mp h).2

theorem pickRequest_mem {gs : List Req} {r : Req} (h : pickRequest gs = some r) : r ∈ gs := by
  unfold pickRequest at h
  repeat' split at h
  all_goals first
    | (injection h with h; subst h; exact List.mem_of_find?_eq_some ‹_›)
    | exact List.mem_of_mem_head? h

theorem traffic_arbitrateN : ∀ (fuel : Nat) (s : State), Traffic s (arbitrateN fuel s)
  | 0, _ => .refl
  | fuel + 1, s => by
    unfold arbitrateN
    split
    · exact .refl
    · rename_i r hr
      refine Traffic.trans ?_ (traffic_arbitrateN fuel _)
      refine Traffic.trans ?_ (traffic_makeRequests _ _)
      refine Traffic.trans (traffic_setRequests s _) (traffic_grant r _ ?_)
      have h8 : s.framesHeld r.tag < Config.framesPerCommand := grantables_held (pickRequest_mem hr)
      exact h8

theorem traffic_arbitrate (s : State) : Traffic s (arbitrate s) := traffic_arbitrateN 61 s

theorem traffic_freeFrame (n : Nat) (s : State) : Traffic s (freeFrame n s) :=
  (Traffic.one (.dropFrames s fun f => decide (f.num ≠ n))).trans (traffic_arbitrate _)

theorem traffic_freeFramesOf (t : HostTag) (s : State) : Traffic s (freeFramesOf t s) :=
  Traffic.foldl (fun s n => traffic_freeFrame n s) _ s

/-! ### Catalogue work (chapter 8) -/

theorem traffic_formRecord (t : SvcTag) (u : DiskUnit) (tw : Tweak) (s : State) : Traffic s (formRecord t u tw s) :=
  (traffic_modFlight s t _).trans (traffic_submitJob _ _)

theorem traffic_formTitle (t : SvcTag) (i : Nat) (f : TitleFields) (s : State) : Traffic s (formTitle t i f s) :=
  (traffic_setKnownGen i _ s).trans (traffic_formRecord _ _ _ _)

theorem traffic_beginFlight (f : Flight) (s : State) : Traffic s (beginFlight f s) := by
  unfold beginFlight; split
  · exact traffic_joinQueue _ _
  · exact traffic_joinQueue _ _
  · exact traffic_formTitle _ _ _ _
  · exact traffic_formTitle _ _ _ _
  · exact traffic_formRecord _ _ _ _

theorem traffic_takeTags : ∀ (fuel : Nat) (s : State), Traffic s (takeTags fuel s)
  | 0, _ => .refl
  | fuel + 1, s => by
    unfold takeTags
    split
    · refine Traffic.trans ?_ (traffic_takeTags fuel _)
      refine Traffic.trans ?_ (traffic_beginFlight _ _)
      exact .one (.cat s _ rfl)
    · exact .refl

theorem traffic_requestOp (k : SvcKind) (o : SvcOwner) (ext : Option (List RecExtent)) (s : State) :
    Traffic s (requestOp k o ext s) := by
  unfold requestOp
  refine Traffic.trans ?_ (traffic_takeTags 4 _)
  exact Traffic.tail (t := { s with stamp := s.stamp + 1 }) (.one (.stamp s _)) (.cat _ _ rfl)

theorem traffic_endFlight (t : SvcTag) (s : State) : Traffic s (endFlight t s) := by
  unfold endFlight
  refine Traffic.trans ?_ (traffic_takeTags 4 _)
  exact .one (.cat s _ rfl)

theorem traffic_claimAndLoad (k : SlotIx) (i : Nat) (s : State) : Traffic s (claimAndLoad k i s) := by
  unfold claimAndLoad; split
  · exact .refl
  · exact (traffic_takeClaim _ _ _).trans (traffic_requestOp _ _ _ _)

/-! ### Title slots (chapter 1) -/

theorem traffic_finishControl (r : Result) (d : Details) (s : State) : Traffic s (finishControl r d s) := by
  unfold finishControl
  split
  · exact .refl
  · rename_i e _
    have h : Traffic s { s with win := { s.win with executing := none, reply := some (s.replyFor e r d) } } :=
      .one (.window s _ _)
    simp only
    split
    · exact h.trans (traffic_completeGood _ _)
    · exact h

theorem traffic_answer (st : Stage) (i : SlotIx) (r : Result) (s : State) : Traffic s (answer st i r s) := by
  unfold answer; split
  · exact traffic_finishControl _ _ _
  · exact .refl

theorem traffic_answerWith (st : Stage) (i : SlotIx) (r : Result) (d : Details) (s : State) :
    Traffic s (answerWith st i r d s) := by
  unfold answerWith; split
  · exact traffic_finishControl _ _ _
  · exact .refl

theorem traffic_setStage (st : Stage) (s : State) : Traffic s (setStage st s) := by
  unfold setStage; split
  · exact .one (.window s _ _)
  · exact .refl

theorem traffic_enterIdle (i : SlotIx) (s : State) : Traffic s (enterIdle i s) :=
  (traffic_dropClaims _ _).trans (.one (.idle _ _))

/-- A store asked for by a slot that is not IDLE. -/
theorem traffic_requestStore (i : SlotIx) (s : State) (h : (s.slot i).phase ≠ .idle) :
    Traffic s (requestStore i s) :=
  (traffic_modSlot s i _ (.busy h h rfl)).trans (traffic_requestOp _ _ _ _)

/-- A change of a slot that is not IDLE, which keeps its phase and number. -/
theorem traffic_changeAndStore (i : SlotIx) (r : Nat) (f : TitleSlot → TitleSlot) (s : State)
    (h : (s.slot i).phase ≠ .idle) (hf : (f (s.slot i)).phase = (s.slot i).phase)
    (hn : (f (s.slot i)).number = (s.slot i).number) : Traffic s (changeAndStore i r f s) := by
  unfold changeAndStore
  refine Traffic.trans ?_ (traffic_requestStore i _ ?_)
  · exact traffic_modSlot s i _ (.busy h (fun e => h (hf ▸ e)) hn)
  · rw [State.slot_modSlot_same]; exact fun e => h (hf ▸ e)

theorem traffic_leaveDraining (i : SlotIx) (s : State) (hp : (s.slot i).phase = .draining) :
    Traffic s (leaveDraining i s) := by
  have h : Traffic s { s with map := s.map.filter fun e => decide (e.slot ≠ i) } := .one (.map s _ List.filter_sublist)
  have hi : (s.slot i).phase ≠ .idle := by rw [hp]; decide
  unfold leaveDraining
  simp only
  split
  · split
    · exact (h.trans (traffic_modSlot _ i _ (.busy hi (by simp) rfl))).trans (traffic_requestOp _ _ _ _)
    · exact (h.trans (traffic_enterIdle _ _)).trans (traffic_answer _ _ _ _)
  · exact (h.trans (traffic_modSlot _ i _ (.busy hi (by simp) rfl))).trans (traffic_requestOp _ _ _ _)
  · exact (h.trans (traffic_enterIdle _ _)).trans (traffic_answer _ _ _ _)

theorem traffic_drainTest (i : SlotIx) (s : State) : Traffic s (drainTest i s) := by
  unfold drainTest; simp only; split
  · rename_i h; exact traffic_leaveDraining _ _ h.1
  · exact .refl

/-- The step into DRAINING of a slot that is not IDLE. -/
theorem traffic_startDrain (i : SlotIx) (r : DrainReason) (s : State) (h : (s.slot i).phase ≠ .idle) :
    Traffic s (startDrain i r s) :=
  (traffic_modSlot s i _ (.busy h (by simp) rfl)).trans (traffic_drainTest _ _)

theorem TitleSlot.pieceEnds_number (t : TitleSlot) (g : Nat) : (t.pieceEnds g).number = t.number := by
  unfold TitleSlot.pieceEnds; simp only; split <;> [split; skip] <;> rfl
theorem TitleSlot.pieceEnds_phase (t : TitleSlot) (g : Nat) : (t.pieceEnds g).phase = t.phase := by
  unfold TitleSlot.pieceEnds; simp only; split <;> [split; skip] <;> rfl

theorem slotStep_pieceEnds (t : TitleSlot) (g : Nat) : SlotStep t (t.pieceEnds g) :=
  ⟨t.pieceEnds_number g, by rw [t.pieceEnds_phase g], fun e => by rw [e]; rfl⟩

theorem traffic_endPiece (p : Piece) (s : State) : Traffic s (endPiece p s) := by
  unfold endPiece; split
  · exact (traffic_modSlot _ _ _ (slotStep_pieceEnds _ _)).trans (traffic_drainTest _ _)
  · exact .refl

/-! ### Host commands and the host port (chapters 4 to 6) -/

theorem traffic_joinRun (c : Cmd) (op : DriveOp) (k : Nat) (s : State) : Traffic s (joinRun c op k s) := by
  unfold joinRun; split
  · exact (traffic_joinQueue _ _).trans (traffic_modCmd _ _ _ fun _ => ⟨rfl, rfl⟩)
  · exact .refl

theorem traffic_joinMergeRead (c : Cmd) (s : State) : Traffic s (joinMergeRead c s) := by
  unfold joinMergeRead; split
  · exact (traffic_joinQueue _ _).trans (traffic_modCmd _ _ _ fun _ => ⟨rfl, rfl⟩)
  · exact .refl

theorem traffic_enterCmdActive (t : HostTag) (s : State) : Traffic s (enterCmdActive t s) := by
  unfold enterCmdActive
  split
  · exact .refl
  · simp only
    refine Traffic.trans ?_ (traffic_makeRequests _ _)
    have h := traffic_setCmdState s t .active
    split
    · split
      · exact traffic_setCmdState _ _ _
      · exact h.trans (traffic_joinRun _ _ _ _)
    · exact h.trans (traffic_joinRun _ _ _ _)
    · exact h.trans (traffic_joinQueue _ _)
    · exact h.trans (traffic_joinQueue _ _)
    · exact h.trans (traffic_joinQueue _ _)
    · exact h
    · exact h
    · exact h

theorem traffic_beginCmd (t : HostTag) (s : State) : Traffic s (beginCmd t s) := by
  unfold beginCmd; split
  · exact .refl
  · split
    · exact (traffic_setCmdState _ _ _).trans (traffic_joinMergeRead _ _)
    · exact traffic_enterCmdActive _ _

theorem traffic_beginReleased (s : State) : Traffic s (beginReleased s) :=
  Traffic.foldl (fun s t => traffic_beginCmd t s) _ s

theorem traffic_storeEnded (num : Nat) (s : State) : Traffic s (storeEnded num s) := by
  unfold storeEnded
  refine Traffic.trans ?_ (traffic_beginReleased _)
  exact .one (.modCmds s _ (fun _ _ => rfl) fun c hc => ⟨c, hc, rfl, rfl⟩)

theorem traffic_endWork (t : HostTag) (s : State) : Traffic s (endWork t s) :=
  (((traffic_dropJobs _ s).trans (traffic_dropRequests _ _)).trans (traffic_leaveLinks _ _)).trans
    (traffic_freeFramesOf _ _)

theorem traffic_endPieces (cs : List Cmd) (s : State) : Traffic s (endPieces cs s) :=
  Traffic.foldl (fun s p => traffic_endPiece p s) _ s

theorem traffic_releaseBehind (t : HostTag) (s : State) : Traffic s (releaseBehind t s) :=
  (traffic_dropWaits _ _).trans (traffic_beginReleased _)

theorem traffic_leaveTable (c : Cmd) (s : State) : Traffic s (leaveTable c s) := by
  refine Traffic.trans ?_ (traffic_releaseBehind _ _)
  exact (Traffic.one (.dropCmds s fun d => decide (d.tag ≠ c.tag))).trans (traffic_endPieces _ _)

theorem traffic_endCommand (t : HostTag) (s : State) : Traffic s (endCommand t s) := by
  unfold endCommand
  split
  · exact .refl
  · exact (traffic_endWork _ _).trans (traffic_leaveTable _ _)

theorem traffic_failWork (t : HostTag) (s : State) : Traffic s (failWork t s) := by
  unfold failWork; split
  · exact (traffic_setCmdState _ _ _).trans (traffic_endWork _ _)
  · exact .refl

theorem traffic_failCommand (t : HostTag) (e : Ending) (s : State) : Traffic s (failCommand t e s) := by
  unfold failCommand; split
  · exact (traffic_completionDue _ _).trans (traffic_failWork _ _)
  · exact .refl

theorem traffic_endFailed (t : HostTag) (s : State) : Traffic s (endFailed t s) := by
  unfold endFailed
  split
  · exact traffic_leaveTable _ _
  · exact .refl

theorem traffic_failAtDrive (t : HostTag) (lba : Option Nat) (s : State) : Traffic s (failAtDrive t lba s) := by
  unfold failAtDrive; split
  · simp only
    split
    · refine Traffic.trans ?_ (traffic_failWork _ _)
      exact (traffic_driveReportsError _ _).tail (.drive _ _ rfl)
    · exact traffic_failCommand _ _ _
  · exact .refl

theorem traffic_sendCompletion (c : Completion) (s : State) : Traffic s (sendCompletion c s) := by
  unfold sendCompletion
  simp only
  have h : Traffic s (s.emit (.completion c)) := traffic_emit _ _
  repeat' split
  all_goals first
    | exact h
    | exact h.trans (traffic_endCommand _ _)
    | exact h.trans (traffic_endFailed _ _)

theorem traffic_sendDue : ∀ (fuel : Nat) (s : State), Traffic s (sendDue fuel s)
  | 0, _ => .refl
  | fuel + 1, s => by
    unfold sendDue
    split
    · exact .refl
    · refine Traffic.trans ?_ (traffic_sendDue fuel _)
      refine Traffic.trans ?_ (traffic_sendCompletion _ _)
      exact .one (.host s _ rfl)

theorem traffic_servePull (t : HostTag) (s : State) : Traffic s (servePull t s) := by
  unfold servePull; split
  · split
    · split
      · exact traffic_startDriveXfer _ _ _ _
      · exact .refl
    · exact .refl
  · exact .refl

theorem traffic_produceSectors (n : Nat) (s : State) : Traffic s (produceSectors n s) := by
  unfold produceSectors; split
  · rename_i x c f _
    have h (g : Frame → Frame) (hg : ∀ z, (g z).num = z.num ∧ (g z).holder = z.holder) (y : Option HostXfer) :
        Traffic s { s.modFrame f.num g with host := { s.host with xfer := y }, freeReads := s.freeReads + 1 } :=
      ((traffic_modFrame s f.num g hg).tail (.host _ { s.host with xfer := y } rfl)).tail (.freeReads _ (s.freeReads + 1))
    refine h _ ?_ _
    exact fun _ => ⟨rfl, rfl⟩
  · exact .refl

theorem traffic_startHostXfer (f : Frame) (s : State) : Traffic s (startHostXfer f s) := by
  unfold startHostXfer
  simp only
  split
  · split
    · refine Traffic.trans ?_ (traffic_produceSectors _ _)
      exact .one (.host s _ rfl)
    · refine Traffic.trans ?_ (traffic_servePull _ _)
      exact .one (.host s _ rfl)
  · exact .one (.host s _ rfl)

theorem traffic_startNext (s : State) : Traffic s (startNext s) := by
  unfold startNext; split
  · split
    · exact traffic_startHostXfer _ _
    · exact .refl
  · exact .refl

theorem traffic_sendAll (s : State) : Traffic s (sendAll s) := by
  unfold sendAll; split
  · exact traffic_sendDue _ _
  · exact .refl

/-- The host port's work at the end of a step. -/
theorem traffic_pump (s : State) : Traffic s (pump s) :=
  ((traffic_produceSectors _ s).trans (traffic_sendAll _)).trans (traffic_startNext _)

theorem traffic_checkDelivered (t : HostTag) (s : State) : Traffic s (checkDelivered t s) := by
  unfold checkDelivered; split
  · split
    · exact traffic_completeGood _ _
    · exact .refl
  · exact .refl

end Sys2Proof.Machine
end

