-- ==== Sys2Proof/Laws/Steps.lean ====
section
/-!
SUPPORT. What a step can do beside its traffic. `Moves L s t` says that t is reached from s by single moves of the kinds
of `Move`: traffic, the monitor, the flags, the clock, the phase, the policies, a slot that takes a title number, a
command that is admitted. `L` says that the step began in LOCKDOWN (R187). One lemma for each operation says that it does
no more than that. A nonce drawn, a RESUME of the monitor and the resets are no moves: the lemmas of the commands that do
them say so.
-/

namespace Sys2Proof.Machine

/-- A tag that passes the tests of R73 against the table. -/
structure NewTag (s : State) (t : HostTag) : Prop where
  free : t ∉ s.occupied
  queued : ∀ n, t = .queued n → n.val ≤ 27 ∧ HostTag.immediate ∉ s.occupied
  alone : t = .immediate → s.occupied = []

/-- The single moves of a step. -/
inductive Move (L : Prop) : State → State → Prop
  | traffic {s t : State} (h : TMove s t) : Move L s t
  | extents (s : State) (m : List Extent) : Move L s { s with map := m }
  | link (s : State) (l : DriveLink) : Move L s { s with drive := { s.drive with link := l } }
  | header (s : State) (h : HeaderCopy) : Move L s { s with cat := { s.cat with header := h } }
  | ceiling (s : State) (c : Nat) : Move L s { s with buffer := { s.buffer with ceiling := c } }
  | flag (s : State) (f : EventFlag) : Move L s (s.setFlag f)
  | clearFlags (s : State) (e : BitVec 8) : Move L s (clearFlags e s)
  | count (s : State) (k : Violation) : Move L s { s with mon := s.mon.count k }
  | alarm (s : State) (k : Violation) : Move L s (alarmReaction k s)
  | fault (s : State) (k : Violation) : Move L s (faultReaction k s)
  | deadline (s : State) : Move L s (deadlineReached s)
  | refusal (s : State) (r : RefusalRecord) : Move L s { s with mon := { s.mon with refusal := some r } }
  | reactions (s : State) (rs : Vector Reaction 10) (w : Nat) (h : (10 ≤ w ∧ w ≤ 60000) ∨ w = s.mon.window) :
      Move L s { s with mon := { s.mon with reactions := rs, window := w } }
  | acknowledge (s : State) (kinds : BitVec 10) : Move L s { s with mon := s.mon.acknowledge kinds }
  | policies (s : State) (r w d : Setting) :
      Move L s { s with win := { s.win with readPolicy := r, writePolicy := w, deallocatePolicy := d } }
  | last (s : State) (r : Sector) : Move L s { s with win := { s.win with last := some r } }
  | phase (s : State) (p : Phase) : Move L s { s with phase := p }
  | identity (s : State) (d : Identity) : Move L s { s with identity := some d }
  | clock (s : State) (v : Nat) (h : ∀ c, s.clock = some c → c ≤ Config.maxCount32 → c ≤ v)
      (hm : v ≤ Config.maxCount32 ∨ s.clock = some v) : Move L s { s with clock := some v }
  | draw (s : State) : Move L s s.drawn
  | occupy (s : State) (i : SlotIx) (t : TitleSlot) (n : Nat) (hi : (s.slot i).phase = .idle) (hp : t.phase ≠ .idle)
      (hn : t.number = some n) (hr : 1 ≤ n ∧ n ≤ 1031) (hf : s.numberHeld i n = false) : Move L s (s.setSlot i t)
  | rangeOn (s : State) (t : HostTag) (h : NewTag s t) :
      Move L s { s with host := { s.host with rangeSector := some t } }
  | rangeOff (s : State) : Move L s { s with host := { s.host with rangeSector := none } }
  | admitted (s : State) (c : Cmd) (ht : NewTag s c.tag) (hl : L → ∀ p ∈ c.pieces, p.isProtected = false) :
      Move L s { s with table := s.table ++ [c] }
  | admitHeld (s : State) (c : Cmd) (ht : s.host.rangeSector = some c.tag) (hp : c.pieces = []) :
      Move L s { s with host := { s.host with rangeSector := none }, table := s.table ++ [c] }

/-- t is reached from s by moves. -/
inductive Moves (L : Prop) : State → State → Prop
  | refl {s : State} : Moves L s s
  | tail {s t u : State} (h : Moves L s t) (m : Move L t u) : Moves L s u

namespace Moves
variable {L : Prop}

theorem one {s t : State} (h : Move L s t) : Moves L s t := .tail .refl h

theorem trans {s t u : State} (h : Moves L s t) (k : Moves L t u) : Moves L s u := by
  induction k with
  | refl => exact h
  | tail _ m ih => exact .tail ih m

theorem foldl {α : Type} {f : State → α → State} (hf : ∀ s a, Moves L s (f s a)) :
    ∀ (l : List α) (s : State), Moves L s (l.foldl f s)
  | [], _ => .refl
  | a :: l, s => (hf s a).trans (foldl hf l (f s a))

end Moves

theorem Traffic.moves {L : Prop} {s t : State} (h : Traffic s t) : Moves L s t := by
  induction h with
  | refl => exact .refl
  | tail _ m ih => exact .tail ih (.traffic m)

/-- A step keeps RESET_N, the queue and the nonce. -/
structure Stays (s t : State) : Prop where
  inReset : t.inReset = s.inReset
  pending : t.pending = s.pending
  nonce : t.win.nonce = s.win.nonce

theorem Move.stays {L : Prop} {s t : State} (h : Move L s t) : Stays s t := by
  cases h with
  | traffic h => exact ⟨h.keeps.inReset, h.keeps.pending, h.keeps.nonce⟩
  | alarm k => unfold alarmReaction; split <;> [skip; split; skip] <;> exact ⟨rfl, rfl, rfl⟩
  | fault k => unfold faultReaction; split <;> exact ⟨rfl, rfl, rfl⟩
  | deadline => unfold deadlineReached; split <;> exact ⟨rfl, rfl, rfl⟩
  | _ => exact ⟨rfl, rfl, rfl⟩

theorem Moves.stays {L : Prop} {s t : State} (h : Moves L s t) : Stays s t := by
  induction h with
  | refl => exact ⟨rfl, rfl, rfl⟩
  | tail _ m ih =>
    exact ⟨m.stays.inReset.trans ih.inReset, m.stays.pending.trans ih.pending, m.stays.nonce.trans ih.nonce⟩

/-- LOCKDOWN is left by no move (R185, R188). -/
theorem Move.lockdown {L : Prop} {s t : State} (h : Move L s t) (hs : s.mon.state = .lockdown) :
    t.mon.state = .lockdown := by
  cases h with
  | traffic h => rw [h.keeps.mon]; exact hs
  | alarm k => unfold alarmReaction; rw [hs]; exact hs
  | fault k => unfold faultReaction; rw [hs]; exact hs
  | deadline => unfold deadlineReached; rw [hs]; exact hs
  | acknowledge k => simp only [Monitor.acknowledge, hs]
  | _ => exact hs

theorem Moves.lockdown {L : Prop} {s t : State} (h : Moves L s t) (hs : s.mon.state = .lockdown) :
    t.mon.state = .lockdown := by
  induction h with
  | refl => exact hs
  | tail _ m ih => exact m.lockdown ih

section ops
variable {L : Prop}

/-! ### The monitor and refusals (chapter 10) -/

theorem traffic_haltSlots (named : List SlotIx) (s : State) : Traffic s (haltSlots named s) := by
  unfold haltSlots
  refine Traffic.foldl (fun s i => ?_) named s
  split
  · exact .refl
  · rename_i h; exact traffic_modSlot _ _ _ (.busy h h rfl)

theorem moves_violate (k : Violation) (named : List SlotIx) (s : State) : Moves L s (violate k named s) := by
  have h : Moves L s { s with mon := s.mon.count k } := .one (.count s k)
  unfold violate
  simp only
  split
  · exact h
  · exact h.trans (traffic_haltSlots _ _).moves
  · exact h.tail (.alarm _ k)
  · exact h.tail (.fault _ k)

theorem moves_refuse (t : HostTag) (lba count : Nat) (r : Reason) (named : List SlotIx) (s : State) :
    Moves L s (refuse t lba count r named s) := by
  have h : Moves L s (completionDue { tag := t, ending := .refused } s) := (traffic_completionDue _ s).moves
  unfold refuse
  simp only
  split
  · refine Moves.trans ?_ (moves_violate _ _ _)
    exact h.tail (.refusal _ _)
  · exact h.tail (.refusal _ _)

theorem moves_refuseAt (t : HostTag) (r : Reason) (range : Option Range) (s : State) :
    Moves L s (refuseAt t r range s) := by
  unfold refuseAt; split <;> exact moves_refuse _ _ _ _ _ _

/-! ### Expiry (R9, R170) -/

theorem TitleSlot.expires_active {t : TitleSlot} {c : Option Nat} (h : t.expires c = true) : t.phase = .active := by
  unfold TitleSlot.expires at h; simp only [Bool.and_eq_true, decide_eq_true_eq] at h; exact h.1.1

theorem moves_expireSlot (i : SlotIx) (s : State) : Moves L s (expireSlot i s) := by
  unfold expireSlot; split
  · rename_i h
    refine (Moves.one (.flag s .titleExpired)).trans (traffic_startDrain i _ _ ?_).moves
    have := TitleSlot.expires_active h
    show (s.slot i).phase ≠ .idle
    rw [this]; decide
  · exact .refl

theorem moves_expiryTest (s : State) : Moves L s (expiryTest s) := Moves.foldl (fun s i => moves_expireSlot i s) _ s

/-- The step into ACTIVE of a slot that is not IDLE. -/
theorem moves_enterActive (i : SlotIx) (s : State) (h : (s.slot i).phase ≠ .idle) : Moves L s (enterActive i s) := by
  unfold enterActive
  exact (traffic_modSlot s i _ (.busy h (by simp) rfl)).moves.trans (moves_expireSlot _ _)

/-! ### Catalogue work (chapter 8) -/

theorem moves_sweepTo : ∀ (fuel j : Nat) (s : State), Moves L s (sweepTo fuel j s)
  | 0, _, s => by
    unfold sweepTo
    refine Moves.tail ?_ (.flag _ _)
    exact .one (.traffic (.cat s _ rfl))
  | fuel + 1, j, s => by
    unfold sweepTo; split
    · exact moves_sweepTo fuel _ s
    · refine Moves.trans ?_ (traffic_requestOp _ _ _ _).moves
      refine Moves.trans ?_ (traffic_takeClaim _ _ _).moves
      exact .one (.traffic (.cat s _ rfl))

theorem moves_sweepOn (j : Nat) (s : State) : Moves L s (sweepOn j s) := by
  unfold sweepOn
  simp only
  refine Moves.trans ?_ (moves_sweepTo _ _ _)
  split
  · exact ((traffic_dropClaims _ _).trans (traffic_claimAndLoad _ _ _)).moves
  · exact (traffic_dropClaims _ _).moves

theorem moves_catalogueDamaged (s : State) : Moves L s (catalogueDamaged s) :=
  (moves_violate _ _ s).tail (.flag _ _)


/-! ### Admission (chapter 4) -/

/-- What the operations below change leaves the tags alone. -/
theorem occupied_of_table {s t : State} (h1 : t.table = s.table) (h2 : t.host.rangeSector = s.host.rangeSector) :
    t.occupied = s.occupied := by unfold State.occupied; rw [h1, h2]

theorem NewTag.of_occupied {s u : State} {t : HostTag} (h : NewTag s t) (e : u.occupied = s.occupied) : NewTag u t :=
  ⟨by rw [e]; exact h.free, by rw [e]; exact h.queued, by rw [e]; exact h.alone⟩

/-- The tests of R73 let a tag pass only if it is new. -/
theorem newTag_of_tagTest {s : State} {t : HostTag} (h : tagTest s t = none) : NewTag s t := by
  have key : ∀ u, s.tagBusy u = false → u ∉ s.occupied := by
    intro u hu hm
    unfold State.tagBusy at hu
    simp only [Bool.or_eq_false_iff] at hu
    obtain ⟨⟨h1, h2⟩, _⟩ := hu
    unfold State.occupied at hm
    rcases List.mem_append.mp hm with hm | hm
    · obtain ⟨c, hc, e⟩ := List.mem_map.mp hm
      exact absurd h1 (by simpa using ⟨c, hc, e⟩)
    · have e : s.host.rangeSector = some u := by simpa using hm
      simp [e] at h2
  cases t with
  | queued n =>
    by_cases hn : 27 < n.val
    · simp [tagTest, hn] at h
    · cases hb : s.tagBusy (.queued n) with
      | true => simp [tagTest, hn, hb] at h
      | false =>
        cases hi : s.tagBusy .immediate with
        | true => simp [tagTest, hn, hb, hi] at h
        | false =>
          refine ⟨key _ hb, ?_, by intro e; cases e⟩
          intro m e; cases e
          exact ⟨by omega, key _ hi⟩
  | immediate =>
    cases ha : s.anyBusy with
    | true => simp [tagTest, ha] at h
    | false =>
      have he : s.occupied = [] := by
        unfold State.anyBusy at ha
        simp only [Bool.or_eq_false_iff, Bool.not_eq_false', List.isEmpty_iff] at ha
        obtain ⟨⟨h1, h2⟩, _⟩ := ha
        unfold State.occupied
        rw [h1]
        cases hr : s.host.rangeSector with
        | none => rfl
        | some x => rw [hr] at h2; simp at h2
      refine ⟨by rw [he]; exact List.not_mem_nil, ?_, fun _ => he⟩
      intro n e; cases e

/-- A command joins the table. -/
theorem moves_enterTable (c : Cmd) (s : State) (ht : NewTag s c.tag) (hl : L → ∀ p ∈ c.pieces, p.isProtected = false) :
    Moves L s (enterTable c s) := by
  unfold enterTable; split
  · exact (Moves.one (.admitted s c ht hl)).trans (traffic_beginCmd _ _).moves
  · exact .one (.admitted s { c with state := .waitOverlap } ht hl)

theorem moves_rekeySlot (i : SlotIx) (s : State) (h : (s.slot i).phase ≠ .idle) : Moves L s (rekeySlot i s) := by
  unfold rekeySlot
  simp only
  refine Moves.tail ?_ (.flag _ _)
  refine Moves.tail ?_ (.draw _)
  exact Traffic.moves (traffic_slot s i _ (.busy h h rfl))

/-- What a step on slot i does to the phases: none enters or leaves a phase. -/
theorem rekeySlot_phase (i k : SlotIx) (s : State) : ((rekeySlot i s).slot k).phase = (s.slot k).phase := by
  show ((s.setSlot i _).slot k).phase = _
  by_cases e : k = i
  · subst e; rw [State.slot_setSlot_same]
  · rw [State.slot_setSlot_other _ _ _ _ e]

theorem modSlot_phase (i k : SlotIx) (f : TitleSlot → TitleSlot) (s : State) (hf : ∀ t, (f t).phase = t.phase) :
    ((s.modSlot i f).slot k).phase = (s.slot k).phase := by
  by_cases e : k = i
  · subst e; rw [State.slot_modSlot_same, hf]
  · rw [State.slot_modSlot_other _ _ _ _ e]

/-- A piece that has passed its tests lies in an ACTIVE slot, and none does in LOCKDOWN (R76). -/
theorem testProtected_ok {write : Bool} {s : State} {p : Piece} {o : Owned} {x : Tested}
    (h : testProtected write s p o = .ok x) :
    s.mon.state ≠ .lockdown ∧ ∃ q, x.piece.owned = some q ∧ q.slot = o.slot ∧ (s.slot o.slot).phase = .active := by
  unfold testProtected at h
  simp only at h
  split at h
  · contradiction
  · rename_i hl
    refine ⟨hl, ?_⟩
    split at h
    · contradiction
    · split at h
      · contradiction
      · rename_i ha
        have ha : (s.slot o.slot).phase = .active := by simpa using ha
        split at h
        · contradiction
        · split at h
          · contradiction
          · split at h
            · unfold testRing at h
              split at h
              · split at h
                · contradiction
                · contradiction
                · injection h with h; subst h; exact ⟨_, rfl, rfl, ha⟩
              · injection h with h; subst h; exact ⟨_, rfl, rfl, ha⟩
            · injection h with h; subst h; exact ⟨_, rfl, rfl, ha⟩

theorem testPiece_ok {write : Bool} {s : State} {p : Piece} {x : Tested} (h : testPiece write s p = .ok x) :
    (x.piece.isProtected = true → s.mon.state ≠ .lockdown) ∧
    ∀ q, x.piece.owned = some q → (s.slot q.slot).phase = .active := by
  unfold testPiece at h
  split at h
  · obtain ⟨h1, q, hq, e, ha⟩ := testProtected_ok h
    refine ⟨fun _ => h1, fun r hr => ?_⟩
    rw [hq] at hr; injection hr with hr; subst hr; rw [e]; exact ha
  · rename_i hn
    split at h
    · injection h with h; subst h
      exact ⟨fun e => by simp [Piece.isProtected, hn] at e, fun q hq => by rw [hn] at hq; cases hq⟩
    · contradiction

theorem testPieces_ok {write : Bool} {s : State} : ∀ {ps : List Piece} {xs : List Tested},
    testPieces write s ps = .ok xs → ∀ x ∈ xs, (x.piece.isProtected = true → s.mon.state ≠ .lockdown) ∧
      ∀ q, x.piece.owned = some q → (s.slot q.slot).phase = .active
  | [], xs, h => by
    unfold testPieces at h; injection h with h; subst h; intro x hx; exact absurd hx List.not_mem_nil
  | p :: ps, xs, h => by
    unfold testPieces at h
    split at h
    · contradiction
    · rename_i t ht
      split at h
      · contradiction
      · rename_i ts hts
        injection h with h; subst h
        intro x hx
        rcases List.mem_cons.mp hx with e | hx
        · subst e; exact testPiece_ok ht
        · exact testPieces_ok hts x hx

/-- A ring's trial copy takes effect on an ACTIVE slot. -/
theorem moves_applyTrial (x : Tested) (s : State)
    (h : ∀ q, x.piece.owned = some q → (s.slot q.slot).phase = .active) : Moves L s (applyTrial x s) := by
  unfold applyTrial
  split
  · rename_i o tr ho ht
    have ha : (s.slot o.slot).phase ≠ .idle := by rw [h o ho]; decide
    split
    · refine (moves_rekeySlot _ s ha).trans (traffic_modSlot _ _ _ (.busy ?_ ?_ rfl)).moves
      · rw [rekeySlot_phase]; exact ha
      · show ((rekeySlot o.slot s).slot o.slot).phase ≠ .idle
        rw [rekeySlot_phase]; exact ha
    · exact (traffic_modSlot _ _ _ (.busy ha ha rfl)).moves
  · exact .refl

theorem applyTrial_phase (x : Tested) (s : State) (k : SlotIx) :
    ((applyTrial x s).slot k).phase = (s.slot k).phase := by
  unfold applyTrial
  split
  · refine (modSlot_phase _ k _ _ ?_).trans ?_
    · exact fun _ => rfl
    · split
      · exact rekeySlot_phase _ _ _
      · rfl
  · rfl

theorem moves_applyTrials : ∀ (xs : List Tested) (s : State),
    (∀ x ∈ xs, ∀ q, x.piece.owned = some q → (s.slot q.slot).phase = .active) →
    Moves L s (xs.foldl (fun s x => applyTrial x s) s)
  | [], _, _ => .refl
  | x :: xs, s, h =>
    (moves_applyTrial x s (h x List.mem_cons_self)).trans
      (moves_applyTrials xs _ fun y hy q hq => by
        rw [applyTrial_phase]; exact h y (List.mem_cons_of_mem _ hy) q hq)

theorem applyTrials_phase : ∀ (xs : List Tested) (s : State) (k : SlotIx),
    ((xs.foldl (fun s x => applyTrial x s) s).slot k).phase = (s.slot k).phase
  | [], _, _ => rfl
  | x :: xs, s, k => by rw [List.foldl_cons, applyTrials_phase xs, applyTrial_phase]

theorem traffic_raiseFlight (p : Piece) (s : State)
    (h : ∀ q, p.owned = some q → (s.slot q.slot).phase = .active) : Traffic s (raiseFlight p s) := by
  unfold raiseFlight
  split
  · rename_i o ho
    have ha : (s.slot o.slot).phase ≠ .idle := by rw [h o ho]; decide
    exact traffic_modSlot _ _ _ (.busy ha ha rfl)
  · exact .refl

theorem raiseFlight_phase (p : Piece) (s : State) (k : SlotIx) :
    ((raiseFlight p s).slot k).phase = (s.slot k).phase := by
  unfold raiseFlight
  split
  · exact modSlot_phase _ _ _ _ fun _ => rfl
  · rfl

theorem traffic_raiseFlights : ∀ (ps : List Piece) (s : State),
    (∀ p ∈ ps, ∀ q, p.owned = some q → (s.slot q.slot).phase = .active) →
    Traffic s (ps.foldl (fun s p => raiseFlight p s) s)
  | [], _, _ => .refl
  | p :: ps, s, h =>
    (traffic_raiseFlight p s (h p List.mem_cons_self)).trans
      (traffic_raiseFlights ps _ fun r hr q hq => by
        rw [raiseFlight_phase]; exact h r (List.mem_cons_of_mem _ hr) q hq)

theorem moves_countExpired (c : Cmd) (s : State) : Moves L s (countExpired c s) := by
  unfold countExpired; split
  · exact moves_violate _ _ _
  · exact .refl

/-- The table and the tag whose range sector is taken are no part of the monitor, the slots and the generator. -/
structure SameTags (s t : State) : Prop where
  table : t.table = s.table
  rangeSector : t.host.rangeSector = s.host.rangeSector

theorem SameTags.trans {a b c : State} (h : SameTags a b) (k : SameTags b c) : SameTags a c :=
  ⟨k.table.trans h.table, k.rangeSector.trans h.rangeSector⟩

theorem SameTags.foldl {α : Type} {f : State → α → State} (hf : ∀ s a, SameTags s (f s a)) :
    ∀ (l : List α) (s : State), SameTags s (l.foldl f s)
  | [], _ => ⟨rfl, rfl⟩
  | a :: l, s => (hf s a).trans (foldl hf l (f s a))

theorem sameTags_haltSlots (named : List SlotIx) (s : State) : SameTags s (haltSlots named s) := by
  unfold haltSlots
  refine SameTags.foldl (fun s i => ?_) named s
  split <;> exact ⟨rfl, rfl⟩

theorem sameTags_violate (k : Violation) (named : List SlotIx) (s : State) : SameTags s (violate k named s) := by
  unfold violate
  simp only
  split
  · exact ⟨rfl, rfl⟩
  · exact ⟨(sameTags_haltSlots named _).table, (sameTags_haltSlots named _).rangeSector⟩
  · unfold alarmReaction; split <;> [skip; split; skip] <;> exact ⟨rfl, rfl⟩
  · unfold faultReaction; split <;> exact ⟨rfl, rfl⟩

theorem sameTags_applyTrial (x : Tested) (s : State) : SameTags s (applyTrial x s) := by
  unfold applyTrial; split
  · split <;> exact ⟨rfl, rfl⟩
  · exact ⟨rfl, rfl⟩

theorem sameTags_raiseFlight (p : Piece) (s : State) : SameTags s (raiseFlight p s) := by
  unfold raiseFlight; split <;> exact ⟨rfl, rfl⟩

theorem sameTags_countExpired (c : Cmd) (s : State) : SameTags s (countExpired c s) := by
  unfold countExpired; split
  · exact sameTags_violate _ _ _
  · exact ⟨rfl, rfl⟩

theorem moves_admitData (write : Bool) (t : HostTag) (lba count : Nat) (ps : List Piece) (xs : List Tested) (s : State)
    (hL : L → s.mon.state = .lockdown) (ht : NewTag s t) (hx : testPieces write s ps = .ok xs) :
    Moves L s (admitData write t lba count xs s) := by
  have hok := testPieces_ok hx
  unfold admitData
  extract_lets s1 pieces c0 c1 c
  have h1 : Moves L s s1 := moves_applyTrials xs s fun x m => (hok x m).2
  have hp : ∀ p ∈ pieces, ∀ q, p.owned = some q → (s1.slot q.slot).phase = .active := by
    intro p hp q hq
    obtain ⟨x, hm, e⟩ := List.mem_map.mp hp
    subst e
    unfold Piece.takeGen at hq
    cases ho : x.piece.owned with
    | none => rw [ho] at hq; cases hq
    | some o =>
      rw [ho] at hq
      injection hq with hq; subst hq
      rw [show (s1.slot o.slot).phase = (s.slot o.slot).phase from applyTrials_phase xs s o.slot]
      exact (hok x hm).2 o ho
  have h2 : Moves L s (pieces.foldl (fun s p => raiseFlight p s) s1) :=
    h1.trans (traffic_raiseFlights pieces s1 hp).moves
  have h3 : Moves L s (countExpired c (pieces.foldl (fun s p => raiseFlight p s) s1)) :=
    h2.trans (moves_countExpired _ _)
  refine h3.trans (moves_enterTable c _ ?_ ?_)
  · have st : SameTags s (countExpired c (pieces.foldl (fun s p => raiseFlight p s) s1)) :=
      ((SameTags.foldl (fun s x => sameTags_applyTrial x s) xs s).trans
        (SameTags.foldl (fun s p => sameTags_raiseFlight p s) pieces s1)).trans (sameTags_countExpired _ _)
    exact ht.of_occupied (occupied_of_table st.table st.rangeSector)
  · intro l p hp
    have hp : p ∈ pieces := hp
    obtain ⟨x, hm, e⟩ := List.mem_map.mp hp
    have hne := (hok x hm).1
    subst e
    cases hb : x.piece.isProtected with
    | true => exact absurd (hL l) (hne hb)
    | false =>
      unfold Piece.isProtected at hb ⊢
      unfold Piece.takeGen
      cases ho : x.piece.owned with
      | none => rfl
      | some o => rw [ho] at hb; cases hb

theorem moves_admitPlain (c : Cmd) (s : State) (ht : NewTag s c.tag) (hp : c.pieces = []) :
    Moves L s (admitPlain c s) :=
  moves_enterTable c s ht fun _ p h => by rw [hp] at h; cases h

theorem moves_admitRange (write : Bool) (t : HostTag) (lba count : Nat) (s : State)
    (hL : L → s.mon.state = .lockdown) (ht : NewTag s t) : Moves L s (admitRange write t lba count s) := by
  unfold admitRange
  split
  · exact moves_refuse _ _ _ _ _ _
  · split
    · split
      · split
        · exact .one (.admitted s _ ht fun _ p h => by cases h)
        · exact moves_refuse _ _ _ _ _ _
      · split
        · exact moves_admitPlain _ s ht rfl
        · exact moves_refuse _ _ _ _ _ _
    · unfold admitBelow
      simp only
      split
      · exact moves_refuse _ _ _ _ _ _
      · split
        · exact moves_refuse _ _ _ _ _ _
        · rename_i xs hx; exact moves_admitData write t lba count _ xs s hL ht hx

theorem moves_takeKind (a : Arrival) (s : State) (hL : L → s.mon.state = .lockdown) (ht : NewTag s a.tag) :
    Moves L s (takeKind a s) := by
  unfold takeKind
  split
  · exact moves_admitRange _ _ _ _ s hL ht
  · exact moves_admitRange _ _ _ _ s hL ht
  · exact .one (.rangeOn s _ ht)
  · exact moves_admitPlain _ s ht rfl
  · split
    · exact moves_refuseAt _ _ _ _
    · exact moves_admitPlain _ s ht rfl
  · split
    · exact moves_refuseAt _ _ _ _
    · exact moves_admitPlain _ s ht rfl
  · exact moves_refuseAt _ _ _ _

theorem moves_takeCommand (a : Arrival) (s : State) (hL : L → s.mon.state = .lockdown) :
    Moves L s (takeCommand a s) := by
  unfold takeCommand; split
  · exact moves_refuseAt _ _ _ _
  · rename_i h; exact moves_takeKind a s hL (newTag_of_tagTest h)

theorem moves_arrive (a : Arrival) (s : State) (hL : L → s.mon.state = .lockdown) : Moves L s (arrive a s) := by
  unfold arrive; split
  · split
    · exact .one (.traffic (.host s _ rfl))
    · exact moves_takeCommand a s hL
  · exact .refl

theorem moves_takeHeldList : ∀ (as : List Arrival) (s : State), (L → s.mon.state = .lockdown) →
    Moves L s (takeHeldList as s)
  | [], _, _ => .refl
  | a :: as, s, hL => by
    unfold takeHeldList; split
    · exact .one (.traffic (.host s _ rfl))
    · have h := moves_takeCommand a s hL
      exact h.trans (moves_takeHeldList as _ fun l => h.lockdown (hL l))

theorem moves_takeHeld (s : State) (hL : L → s.mon.state = .lockdown) : Moves L s (takeHeld s) := by
  unfold takeHeld
  have h : Moves L s { s with host := { s.host with held := [] } } := .one (.traffic (.host s _ rfl))
  exact h.trans (moves_takeHeldList _ _ fun l => h.lockdown (hL l))

theorem moves_rangeSectorArrives (t : HostTag) (ranges : List Range) (s : State)
    (hL : L → s.mon.state = .lockdown) (hr : s.host.rangeSector = some t) :
    Moves L s (rangeSectorArrives t ranges s) := by
  have h1 : Moves L s { s with host := { s.host with rangeSector := none } } := .one (.rangeOff s)
  unfold rangeSectorArrives
  simp only
  have key : ∀ u, Moves L s u → Moves L s (takeHeld u) := fun u hu =>
    hu.trans (moves_takeHeld u fun l => hu.lockdown (hL l))
  apply key
  split
  · refine h1.trans (Moves.trans ?_ (traffic_sendAll _).moves)
    exact (traffic_completionDue _ _).moves
  · split
    · exact h1.trans (moves_refuse _ _ _ _ _ _)
    · unfold admitPlain enterTable
      rw [if_pos ⟨rfl, rfl⟩]
      refine Moves.trans ?_ (traffic_beginCmd _ _).moves
      exact .one (.admitHeld s
        { tag := t, kind := .deallocate, ranges := ranges.filter (fun r => decide (r.len ≠ 0)), entries := ranges } hr rfl)

end ops

end Sys2Proof.Machine
end

