-- ==== Sys2Proof/Laws/Ends.lean ====
section
/-!
SUPPORT. What the ends of service operations, the resets of the drive link and the data path can do, as moves
(chapters 4 to 8).
-/

namespace Sys2Proof.Machine

section ops
variable {L : Prop}

/-! ### The ends of service operations (chapter 8) -/

theorem moves_headerEnd (h : HeaderCopy) (s : State) (hL : L → s.mon.state = .lockdown) :
    Moves L s (headerEnd h s) := by
  have h1 : Moves L s (dropClaims .header { s with cat := { s.cat with header := h } }) :=
    (Moves.one (.header s h)).trans (traffic_dropClaims _ _).moves
  have h2 : Moves L s (if h = .unreadable then catalogueDamaged (dropClaims .header { s with cat := { s.cat with header := h } })
      else dropClaims .header { s with cat := { s.cat with header := h } }) := by
    split
    · exact h1.trans (moves_catalogueDamaged _)
    · exact h1
  have h3 := h2.tail (.phase _ (phaseOf h))
  exact h3.trans (moves_takeHeld _ fun l => h3.lockdown (hL l))

theorem traffic_failLoading (i : SlotIx) (r : Result) (s : State) : Traffic s (failLoading i r s) :=
  (traffic_enterIdle _ _).trans (traffic_answer _ _ _ _)

theorem moves_makeTitle (i : SlotIx) (r : Sector) (s : State) (h : (s.slot i).phase ≠ .idle) :
    Moves L s (makeTitle i r s) := by
  unfold makeTitle
  refine Moves.trans ?_ (traffic_setStage _ _).moves
  exact (Moves.one (.draw s)).trans (traffic_changeAndStore i _ _ s.drawn h rfl rfl).moves

theorem moves_createLoaded (i : SlotIx) (r : Sector) (o : LoadOutcome) (s : State) (h : (s.slot i).phase ≠ .idle) :
    Moves L s (createLoaded i r o s) := by
  unfold createLoaded; split
  · exact moves_makeTitle i r s h
  · split
    · exact moves_makeTitle i r s h
    · exact (traffic_failLoading _ _ _).moves
  · exact (traffic_failLoading _ _ _).moves
  · exact (traffic_failLoading _ _ _).moves

theorem moves_openTitle (i : SlotIx) (f : TitleFields) (s : State) (h : (s.slot i).phase ≠ .idle) :
    Moves L s (openTitle i f s) := by
  unfold openTitle
  simp only
  split
  · exact ((traffic_enterIdle _ _).trans (traffic_answerWith _ _ _ _ _)).moves
  · split
    · exact ((traffic_enterIdle _ _).trans (traffic_answerWith _ _ _ _ _)).moves
    · refine Moves.trans ?_ (traffic_answer _ _ _ _).moves
      have h1 : Moves L s (({ s with map := insertExtents i f.extents s.map }).modSlot i (takeFields f)) := by
        have h0 : Moves L s { s with map := insertExtents i f.extents s.map } := .one (.extents s _)
        have h1 : Traffic { s with map := insertExtents i f.extents s.map }
            (({ s with map := insertExtents i f.extents s.map }).modSlot i (takeFields f)) :=
          traffic_modSlot _ i _ (.busy h h rfl)
        exact h0.trans h1.moves
      refine h1.trans (moves_enterActive i _ ?_)
      rw [State.slot_modSlot_same]; exact h

theorem moves_openLoaded (i : SlotIx) (o : LoadOutcome) (s : State) (h : (s.slot i).phase ≠ .idle) :
    Moves L s (openLoaded i o s) := by
  unfold openLoaded; split
  · exact (traffic_failLoading _ _ _).moves
  · exact (traffic_failLoading _ _ _).moves
  · exact (traffic_failLoading _ _ _).moves
  · split
    · exact ((traffic_requestOp _ _ _ _).trans (traffic_setStage _ _)).moves
    · exact moves_openTitle i _ s h

theorem moves_slotLoaded (i : SlotIx) (o : LoadOutcome) (s : State) : Moves L s (slotLoaded i o s) := by
  unfold slotLoaded
  split
  · rename_i hp _
    have h : (s.slot i).phase ≠ .idle := by rw [hp]; decide
    split
    · exact moves_createLoaded i _ o s h
    · exact moves_openLoaded i o s h
  · rename_i hp _
    exact moves_openLoaded i o s (by rw [hp]; decide)
  all_goals exact .refl

theorem moves_sweepLoaded (j : Nat) (o : LoadOutcome) (s : State) : Moves L s (sweepLoaded j o s) := by
  unfold sweepLoaded; split
  · split
    · exact (traffic_requestOp _ _ _ _).moves
    · exact moves_sweepOn _ _
  all_goals exact moves_sweepOn _ _

theorem moves_loadEnd (f : Flight) (i : Nat) (o : LoadOutcome) (s : State) : Moves L s (loadEnd f i o s) := by
  have h2 : Moves L s (if o = .damaged then catalogueDamaged (endFlight f.tag s) else endFlight f.tag s) := by
    have h1 : Moves L s (endFlight f.tag s) := (traffic_endFlight _ _).moves
    split
    · exact h1.trans (moves_catalogueDamaged _)
    · exact h1
  unfold loadEnd
  simp only
  split
  · exact h2.trans (moves_slotLoaded _ _ _)
  · exact h2.trans (moves_sweepLoaded _ _ _)
  · exact h2

theorem moves_flagFailed (good : Bool) (s : State) : Moves L s (flagFailed good s) := by
  unfold flagFailed; split
  · exact .refl
  · exact .one (.flag s _)

theorem traffic_idleWith (st : Stage) (i : SlotIx) (r : Result) (s : State) : Traffic s (idleWith st i r s) :=
  (traffic_enterIdle _ _).trans (traffic_answer _ _ _ _)

theorem traffic_storeSettled (i : SlotIx) (good : Bool) (s : State) : Traffic s (storeSettled i good s) := by
  unfold storeSettled
  refine Traffic.trans ?_ (traffic_drainTest _ _)
  refine Traffic.trans ?_ (traffic_answer _ _ _ _)
  exact traffic_modSlot s i _ ⟨rfl, Iff.rfl, fun e => by rw [e]; cases good <;> rfl⟩

theorem moves_slotStored (i : SlotIx) (good : Bool) (s : State) : Moves L s (slotStored i good s) := by
  unfold slotStored
  split
  · rename_i hp
    have h : (s.slot i).phase ≠ .idle := by rw [hp]; decide
    split
    · refine Moves.trans ?_ (traffic_answer _ _ _ _).moves
      refine Moves.trans (traffic_modSlot s i _ (.busy h h rfl)).moves (moves_enterActive i _ ?_)
      rw [State.slot_modSlot_same]; exact h
    · exact (traffic_idleWith _ _ _ _).moves
  · exact (traffic_idleWith _ _ _ _).moves
  all_goals exact (traffic_storeSettled _ _ _).moves

theorem moves_storeEnd (f : Flight) (good : Bool) (s : State) : Moves L s (storeEnd f good s) := by
  have h1 : Moves L s (flagFailed good (endFlight f.tag s)) :=
    (traffic_endFlight _ _).moves.trans (moves_flagFailed _ _)
  unfold storeEnd
  simp only
  refine Moves.trans ?_ (traffic_storeEnded _ _).moves
  split
  · exact h1.trans (moves_slotStored _ _ _)
  · exact h1
  · exact h1

theorem traffic_slotErased (i : SlotIx) (good : Bool) (s : State) : Traffic s (slotErased i good s) := by
  unfold slotErased; split <;> exact traffic_idleWith _ _ _ _

theorem moves_sweepErased (j : Nat) (good : Bool) (s : State) : Moves L s (sweepErased j good s) := by
  unfold sweepErased
  refine Moves.trans ?_ (moves_sweepOn _ _)
  split
  · exact .one (.traffic (.cat s _ rfl))
  · exact .refl

theorem moves_eraseEnd (f : Flight) (i : Nat) (good : Bool) (s : State) : Moves L s (eraseEnd f i good s) := by
  have h1 : Moves L s (flagFailed good (endFlight f.tag s)) :=
    (traffic_endFlight _ _).moves.trans (moves_flagFailed _ _)
  unfold eraseEnd
  simp only
  split
  · exact h1.trans (traffic_slotErased _ _ _).moves
  · exact h1.trans (moves_sweepErased _ _ _)
  · exact h1

theorem traffic_finishFormat (r : Result) (d : Details) (s : State) : Traffic s (finishFormat r d s) := by
  unfold finishFormat; split
  · split
    · exact traffic_finishControl _ _ _
    · exact .refl
  · exact .refl

theorem moves_headerWriteEnd (f : Flight) (e : Nat) (good : Bool) (s : State) :
    Moves L s (headerWriteEnd f e good s) := by
  have h1 : Moves L s (dropClaims .header (endFlight f.tag s)) :=
    ((traffic_endFlight _ _).trans (traffic_dropClaims _ _)).moves
  unfold headerWriteEnd
  simp only
  split
  · refine Moves.trans ?_ (traffic_finishFormat _ _ _).moves
    exact (h1.tail (.header _ (.valid e))).tail (.phase _ .ready)
  · exact h1.trans (traffic_finishFormat _ _ _).moves

theorem moves_opFailed (f : Flight) (s : State) (hL : L → s.mon.state = .lockdown) : Moves L s (opFailed f s) := by
  unfold opFailed; split
  · exact moves_loadEnd _ _ _ _
  · exact moves_storeEnd _ _ _
  · exact moves_eraseEnd _ _ _ _
  · have h : Moves L s (endFlight f.tag s) := (traffic_endFlight _ _).moves
    exact h.trans (moves_headerEnd _ _ fun l => h.lockdown (hL l))
  · exact moves_headerWriteEnd _ _ _ _

theorem moves_opWritten (f : Flight) (s : State) : Moves L s (opWritten f s) := by
  unfold opWritten; split
  · exact moves_storeEnd _ _ _
  · exact moves_eraseEnd _ _ _ _
  · exact moves_headerWriteEnd _ _ _ _
  all_goals exact .refl

theorem moves_opRead (f : Flight) (u : DiskUnit) (s : State) (hL : L → s.mon.state = .lockdown) :
    Moves L s (opRead f u s) := by
  unfold opRead; split
  · exact (traffic_setKnownGen _ _ _).moves.trans (moves_loadEnd _ _ _ _)
  · have h : Moves L s (endFlight f.tag s) := (traffic_endFlight _ _).moves
    exact h.trans (moves_headerEnd _ _ fun l => h.lockdown (hL l))
  all_goals exact .refl

theorem moves_serviceJobEnd (t : SvcTag) (s : State) (hL : L → s.mon.state = .lockdown) :
    Moves L s (serviceJobEnd t s) := by
  unfold serviceJobEnd; split
  · exact .refl
  · split
    · exact ((traffic_modFlight _ _ _).trans (traffic_joinQueue _ _)).moves
    · exact moves_opRead _ _ _ hL
    · exact .refl

theorem moves_failOp (n : Nat) (s : State) (hL : L → s.mon.state = .lockdown) : Moves L s (failOp n s) := by
  unfold failOp; split
  · exact moves_opFailed _ _ hL
  · exact .refl

theorem traffic_reissueOps (ns : List Nat) (s : State) : Traffic s (reissueOps ns s) := .one (.drive s _ rfl)

theorem traffic_failingKnown (f : Completion → Completion) (s : State) : Traffic s (failingKnown f s) := by
  unfold failingKnown; split
  · refine Traffic.trans ?_ (traffic_completionDue _ _)
    exact .one (.drive s _ rfl)
  · exact .refl

theorem moves_resetDriveLink (s : State) : Moves L s (resetDriveLink s) := by
  unfold resetDriveLink
  simp only
  refine Moves.trans ?_ (Traffic.foldl (fun s t => traffic_failCommand t _ s) _ _).moves
  refine Moves.trans ?_ (traffic_failingKnown _ _).moves
  refine Moves.trans ?_ (traffic_emit _ _).moves
  refine Moves.trans ?_ (traffic_stopLink _).moves
  refine Moves.trans (Moves.one (.link s .resetting)) (Traffic.moves ?_)
  exact .one (.drive _ _ rfl)

/-! ### The drive link (chapters 4 and 8) -/

theorem traffic_noteIssue (w : DriveWho) (s : State) : Traffic s (noteIssue w s) := by
  unfold noteIssue; split
  · exact (traffic_modFlight _ _ _).trans (traffic_tickStamp _)
  · exact .refl

theorem traffic_issueHead (s : State) : Traffic s (issueHead s) := by
  unfold issueHead; split
  · exact .refl
  · split
    · refine Traffic.trans ?_ (traffic_noteIssue _ _)
      refine Traffic.trans ?_ (traffic_emit _ _)
      exact .one (.drive s _ rfl)
    · exact .refl

theorem traffic_driveFails (t : HostTag) (lba : Option Nat) (s : State) : Traffic s (driveFails t lba s) := by
  unfold driveFails; split
  · exact (traffic_failAtDrive _ _ _).trans (traffic_pump _)
  · exact .refl

theorem traffic_errorRecordArrives (s : State) : Traffic s (errorRecordArrives s) := by
  unfold errorRecordArrives; split
  · simp only
    refine Traffic.trans ?_ (traffic_pump _)
    refine Traffic.trans ?_ (Traffic.foldl (fun s t => traffic_failCommand t _ s) _ _)
    refine Traffic.trans ?_ (traffic_failingKnown _ _)
    refine Traffic.trans ?_ (traffic_reissueOps _ _)
    exact .one (.drive s _ rfl)
  · exact .refl

theorem moves_errorRecordFails (s : State) : Moves L s (errorRecordFails s) := by
  unfold errorRecordFails; split
  · exact (moves_resetDriveLink _).trans (traffic_pump _).moves
  · exact .refl

theorem moves_timerEnds (t : SvcTag) (s : State) (hL : L → s.mon.state = .lockdown) : Moves L s (timerEnds t s) := by
  unfold timerEnds; split
  · exact .refl
  · split
    · split
      · refine Moves.trans ?_ (traffic_pump _).moves
        exact (traffic_modFlight _ _ _).moves.trans (moves_resetDriveLink _)
      · refine Moves.trans ?_ (traffic_pump _).moves
        rename_i f _ _ _
        have h : Moves L s ((dropReissue f.op.num (resetDriveLink s)).setFlag .serviceTimeout) := by
          refine Moves.tail ?_ (.flag _ _)
          refine Moves.tail (moves_resetDriveLink s) (.traffic ?_)
          exact .drive _ _ rfl
        exact h.trans (moves_failOp _ _ fun l => h.lockdown (hL l))
    · exact .refl

theorem moves_holdEnds (s : State) : Moves L s (holdEnds s) := by
  unfold holdEnds; split
  · exact .refl
  · exact (moves_resetDriveLink _).trans (traffic_pump _).moves

theorem traffic_restartOp (n : Nat) (s : State) : Traffic s (restartOp n s) := by
  unfold restartOp; split
  · exact traffic_beginFlight _ _
  · exact .refl

theorem moves_linkBack (s : State) : Moves L s (linkBack s) := by
  unfold linkBack; split
  · simp only
    refine Moves.trans ?_ (Traffic.foldl (fun s n => traffic_restartOp n s) _ _).moves
    refine Moves.trans (traffic_reissueOps s.drive.reissue s).moves ?_
    refine Moves.trans (Moves.one (.link _ .up)) (Traffic.moves ?_)
    exact .one (.drive _ _ rfl)
  · exact .refl

theorem moves_failOps : ∀ (ns : List Nat) (s : State), (L → s.mon.state = .lockdown) →
    Moves L s (ns.foldl (fun s n => failOp n s) s)
  | [], _, _ => .refl
  | n :: ns, s, hL => by
    have h : Moves L s (failOp n s) := moves_failOp n s hL
    exact h.trans (moves_failOps ns _ fun l => h.lockdown (hL l))

theorem moves_noAnswer (s : State) (hL : L → s.mon.state = .lockdown) : Moves L s (noAnswer s) := by
  unfold noAnswer; split
  · simp only
    refine Moves.trans ?_ (traffic_pump _).moves
    have h : Moves L s ((({ s with drive := { s.drive with reissue := [], restart := [] } }).setFlag
        .serviceTimeout).emit .driveLinkReset) := by
      refine Moves.trans ?_ (traffic_emit _ _).moves
      refine Moves.tail ?_ (.flag _ _)
      exact .one (.traffic (.drive s _ rfl))
    exact h.trans (moves_failOps _ _ fun l => h.lockdown (hL l))
  · exact .refl

/-! ### The data path (chapters 4 to 7) -/

theorem traffic_requestPush (r : Req) (s : State) : Traffic s (requestPush r s) := by
  unfold requestPush; split
  · rename_i h; exact traffic_grant _ _ (grantable_held h)
  · exact (traffic_setRequests _ _).trans (.one (.drive _ _ rfl))

theorem traffic_pushUnit (t : HostTag) (s : State) : Traffic s (pushUnit t s) := by
  unfold pushUnit; split
  · split
    · simp only
      split
      · exact traffic_startDriveXfer _ _ _ _
      · exact traffic_requestPush _ _
    · exact .refl
  · exact .refl

theorem traffic_submitUnit (c : Cmd) (f : Frame) (d : JobDir) (s : State) : Traffic s (submitUnit c f d s) := by
  unfold submitUnit; split
  · refine Traffic.trans ?_ (traffic_submitJob _ _)
    exact traffic_modFrame _ _ _ fun _ => ⟨rfl, rfl⟩
  · exact .refl

theorem traffic_unitWhole (c : Cmd) (f : Frame) (s : State) : Traffic s (unitWhole c f s) := by
  unfold unitWhole
  split
  · exact traffic_modFrame _ _ _ fun _ => ⟨rfl, rfl⟩
  · simp only
    refine Traffic.trans ?_ (traffic_makeRequests _ _)
    split
    · exact traffic_modCmd _ _ _ fun _ => ⟨rfl, rfl⟩
    · refine Traffic.trans ?_ (traffic_submitUnit _ _ _ _)
      exact traffic_modCmd _ _ _ fun _ => ⟨rfl, rfl⟩

theorem traffic_receiveUnit (data : List Sector) (s : State) : Traffic s (receiveUnit data s) := by
  unfold receiveUnit
  split
  · exact .refl
  · split
    · split
      · simp only
        have h : ∀ n (g : Frame → Frame) x, (∀ y, (g y).num = y.num ∧ (g y).holder = y.holder) →
            Traffic s ((endDriveXfer x s).modFrame n g) := fun n g x hg =>
          (traffic_endDriveXfer _ _).trans (traffic_modFrame _ _ _ hg)
        split
        · refine Traffic.trans ?_ (traffic_unitWhole _ _ _)
          exact h _ _ _ fun _ => ⟨rfl, rfl⟩
        · exact h _ _ _ fun _ => ⟨rfl, rfl⟩
      · exact .refl
    · exact .refl

theorem traffic_readRunEnds (t : HostTag) (s : State) : Traffic s (readRunEnds t s) := by
  unfold readRunEnds; split
  · split
    · simp only
      split
      · exact (traffic_driveCompletes _ _).trans (traffic_joinRun _ _ _ _)
      · exact ((traffic_driveCompletes _ _).trans (traffic_setCmdState _ _ _)).trans (traffic_checkDelivered _ _)
    · exact .refl
  · exact .refl

theorem traffic_mergeReadEnds (t : HostTag) (s : State) : Traffic s (mergeReadEnds t s) := by
  unfold mergeReadEnds
  split
  · rename_i c d hc _
    split
    · split
      · simp only
        refine Traffic.trans ?_ (traffic_joinMergeRead _ _)
        refine Traffic.trans ?_ (traffic_submitJob _ _)
        refine Traffic.trans (traffic_driveCompletes (.host t) s) ?_
        exact traffic_putCmd _ t c _ hc rfl rfl
      · exact .refl
    · exact .refl
  · exact .refl

theorem traffic_writeRunEnds (t : HostTag) (s : State) : Traffic s (writeRunEnds t s) := by
  unfold writeRunEnds; split
  · split
    · simp only
      split
      · exact (traffic_driveCompletes _ _).trans (traffic_joinRun _ _ _ _)
      · exact (traffic_driveCompletes _ _).trans (traffic_completeGood _ _)
    · exact .refl
  · exact .refl

theorem traffic_statusArrives (t : HostTag) (good : Bool) (s : State) : Traffic s (statusArrives t good s) := by
  unfold statusArrives; split
  · exact (traffic_driveCompletes _ _).trans (traffic_completeGood _ _)
  · exact traffic_failAtDrive _ _ _

theorem traffic_flushEnds (t : HostTag) (good : Bool) (s : State) : Traffic s (flushEnds t good s) := by
  unfold flushEnds; split
  · split
    · exact traffic_statusArrives _ _ _
    · exact .refl
  · exact .refl

theorem traffic_deallocateEnds (t : HostTag) (good : Bool) (s : State) : Traffic s (deallocateEnds t good s) := by
  unfold deallocateEnds; split
  · split
    · split
      · exact traffic_statusArrives _ _ _
      · exact .refl
    all_goals exact .refl
  · exact .refl

theorem traffic_passEnds (t : HostTag) (good : Bool) (s : State) : Traffic s (passEnds t good s) := by
  unfold passEnds
  split
  · split
    · split
      · split
        · split
          · unfold passGood
            simp only
            split
            · exact ((traffic_driveCompletes _ _).trans (traffic_setCmdState _ _ _)).trans (traffic_checkDelivered _ _)
            · exact (traffic_driveCompletes _ _).trans (traffic_completeGood _ _)
          · exact .refl
        · exact traffic_failAtDrive _ _ _
      · exact .refl
    all_goals exact .refl
  · exact .refl

theorem traffic_pullUnit (t : HostTag) (s : State) : Traffic s (pullUnit t s) := by
  unfold pullUnit; split
  · split
    · split
      · exact traffic_startDriveXfer _ _ _ _
      · exact .one (.drive s _ rfl)
    · exact .refl
  · exact .refl

theorem traffic_unitGone (s : State) : Traffic s (unitGone s) := by
  unfold unitGone
  split
  · exact .refl
  · split
    · split
      · exact .refl
      · simp only
        split
        · refine Traffic.trans ?_ (traffic_makeRequests _ _)
          refine Traffic.trans ?_ (traffic_freeFrame _ _)
          refine Traffic.trans ?_ (traffic_modCmd _ _ _ fun _ => ⟨rfl, rfl⟩)
          exact (traffic_endDriveXfer _ _).trans (traffic_emit _ _)
        · exact (traffic_endDriveXfer _ _).trans (traffic_emit _ _)
    · exact .refl

theorem moves_handOver (c : Cmd) (f : Frame) (r : Sector) (s : State) : Moves L s (handOver c f r s) := by
  unfold handOver
  refine Moves.trans ?_ (traffic_freeFrame _ _).moves
  refine Moves.trans (traffic_modCmd s c.tag (fun c => { c with taken := c.taken + 1 }) fun _ => ⟨rfl, rfl⟩).moves ?_
  refine Moves.trans (Moves.one (.last _ r)) (Traffic.moves ?_)
  exact .one (.window _ _ _)

theorem traffic_intakeWhole (c : Cmd) (f : Frame) (data : List Sector) (s : State) :
    Traffic s (intakeWhole c f data s) := by
  unfold intakeWhole
  simp only
  have h : ∀ (g : Frame → Frame) (k : Cmd → Cmd), (∀ y, (g y).num = y.num ∧ (g y).holder = y.holder) →
      (∀ y, (k y).tag = y.tag ∧ (k y).pieces = y.pieces) → Traffic s ((s.modFrame f.num g).modCmd c.tag k) :=
    fun g k hg hk => (traffic_modFrame _ _ _ hg).trans (traffic_modCmd _ _ _ hk)
  split
  · exact h _ _ (fun _ => ⟨rfl, rfl⟩) fun _ => ⟨rfl, rfl⟩
  · refine Traffic.trans ?_ (traffic_submitUnit _ _ _ _)
    exact h _ _ (fun _ => ⟨rfl, rfl⟩) fun _ => ⟨rfl, rfl⟩

theorem moves_takeUnit (data : List Sector) (s : State) : Moves L s (takeUnit data s) := by
  unfold takeUnit
  split
  · exact .refl
  · split
    · split
      · simp only
        split
        · exact (traffic_endHostXfer _).moves.trans (moves_handOver _ _ _ _)
        · exact ((traffic_endHostXfer _).trans (traffic_intakeWhole _ _ _ _)).moves
      · exact .refl
    · exact .refl

theorem traffic_endServed (t : HostTag) (s : State) : Traffic s (endServed t s) := by
  unfold endServed; split
  · split
    · exact traffic_setCmdState _ _ _
    · exact .refl
  · exact .refl

theorem traffic_deliverUnit (s : State) : Traffic s (deliverUnit s) := by
  unfold deliverUnit
  split
  · exact .refl
  · split
    · split
      · simp only
        refine Traffic.trans ?_ (traffic_checkDelivered _ _)
        refine Traffic.trans ?_ (traffic_endServed _ _)
        refine Traffic.trans ?_ (traffic_makeRequests _ _)
        refine Traffic.trans ?_ (traffic_freeFrame _ _)
        refine Traffic.trans ?_ (traffic_modCmd _ _ _ fun _ => ⟨rfl, rfl⟩)
        exact ((traffic_produceSectors _ _).trans (traffic_endHostXfer _)).trans (traffic_emit _ _)
      · exact .refl
    · exact .refl

theorem traffic_transferEnds (s : State) : Traffic s (transferEnds s) := by
  unfold transferEnds; split
  · split
    · exact .one (.host s _ rfl)
    · exact .refl
  · exact .refl

theorem traffic_baseHeld (c : Cmd) (f : Frame) (s : State) (h : s.cmd? c.tag = some c) :
    Traffic s (baseHeld c f s) := by
  unfold baseHeld
  simp only
  have h1 : Traffic s (s.modCmd c.tag fun _ => c.setMerge f.unit .held) := traffic_putCmd s _ c _ h rfl rfl
  split
  · exact h1.trans (traffic_enterCmdActive _ _)
  · exact h1

theorem traffic_hostJobEnd (r : Running) (t : HostTag) (s : State) : Traffic s (hostJobEnd r t s) := by
  unfold hostJobEnd
  split
  · rename_i c f hc _
    have put : ∀ (cond : Condition) (dir : Direction) (data : UnitData), Traffic s ((s.modFrame f.num fun f =>
        { f with data := data, cond := cond, dir := dir, order := s.stamp }).tickStamp) := by
      intro cond dir data
      refine Traffic.trans ?_ (traffic_tickStamp _)
      exact traffic_modFrame _ _ _ fun _ => ⟨rfl, rfl⟩
    simp only
    split
    · refine (put _ _ _).trans (traffic_baseHeld c f _ ?_)
      obtain ⟨_, e⟩ := cmd?_mem hc
      rw [e]; exact hc
    · split
      · exact put _ _ _
      · exact (put _ _ _).trans (traffic_servePull _ _)
  · exact .refl

theorem moves_laneEnds (l : Fin 2) (s : State) (hL : L → s.mon.state = .lockdown) : Moves L s (laneEnds l s) := by
  unfold laneEnds; split
  · split
    · refine Moves.trans ?_ (traffic_refillLane _ _).moves
      unfold handBack; split
      · exact (traffic_hostJobEnd _ _ _).moves
      · exact moves_serviceJobEnd _ _ hL
    · exact .refl
  · exact .refl

/-! ### Completions of service commands (chapter 8) -/

theorem moves_unitRead (f : Flight) (u : DiskUnit) (s : State) (hL : L → s.mon.state = .lockdown) :
    Moves L s (unitRead f u s) := by
  unfold unitRead; split
  · exact ((traffic_modFlight _ _ _).trans (traffic_submitJob _ _)).moves
  · exact moves_opRead _ _ _ hL

theorem moves_serviceFails (f : Flight) (s : State) (hL : L → s.mon.state = .lockdown) :
    Moves L s (serviceFails f s) := by
  unfold serviceFails
  have h : Moves L s (driveReportsError (.service f.tag) (driveCompletes (.service f.tag) s)) :=
    ((traffic_driveCompletes _ _).trans (traffic_driveReportsError _ _)).moves
  exact h.trans (moves_failOp _ _ fun l => h.lockdown (hL l))

theorem moves_serviceReadEnds (t : SvcTag) (u : Option DiskUnit) (s : State) (hL : L → s.mon.state = .lockdown) :
    Moves L s (serviceReadEnds t u s) := by
  unfold serviceReadEnds
  split
  · exact .refl
  · split
    · split
      · have h : Moves L s (driveCompletes (.service t) s) := (traffic_driveCompletes _ _).moves
        exact h.trans (moves_unitRead _ _ _ fun l => h.lockdown (hL l))
      · exact moves_serviceFails _ _ hL
    · exact .refl

theorem moves_serviceWriteEnds (t : SvcTag) (good : Bool) (s : State) (hL : L → s.mon.state = .lockdown) :
    Moves L s (serviceWriteEnds t good s) := by
  unfold serviceWriteEnds
  split
  · exact .refl
  · split
    · exact .refl
    · split
      · refine Moves.trans ?_ (moves_opWritten _ _)
        refine Moves.trans (traffic_driveCompletes (.service t) s).moves ?_
        unfold emitWritten; split
        · exact (traffic_emit _ _).moves
        all_goals exact .refl
      · exact moves_serviceFails _ _ hL

end ops

end Sys2Proof.Machine
end

