-- ==== Sys2Proof/Laws/Commands.lean ====
section
/-!
SUPPORT. What each command of the table can do, as moves from the quiet state: `moves_<Command>` for the function that its
meaning runs. An authorised command may also draw a nonce first (`authorised_<Command>`), RESUME may return the monitor
to NORMAL (`resume_moves`). `produceSectors_produces` says what the turn of window sectors produces.
-/

namespace Sys2Proof.Machine

/-! ### The sectors of a WINDOW_READ (R82) -/

/-- Each sector of a unit after some of its sectors have been replaced. -/
theorem placeSectors_get (d : UnitData) (lo : Nat) (xs : List Sector) (p : Fin 8) :
    (placeSectors d lo xs)[p] = if lo ≤ p.val then (xs[p.val - lo]?).getD d[p] else d[p] := by
  unfold placeSectors
  simp only [Fin.getElem_fin, Vector.getElem_ofFn]
  split
  · cases xs[p.val - lo]? <;> simp
  · rfl

/-- A frame after its own change. -/
theorem frame?_modFrame_same {s : State} {f : Frame} (g : Frame → Frame) (hg : ∀ x, (g x).num = x.num)
    (h : s.frame? f.num = some f) : (s.modFrame f.num g).frame? f.num = some (g f) := by
  simp only [State.frame?, State.modFrame, List.find?_map, Option.map_eq_some_iff]
  refine ⟨f, ?_, by simp⟩
  rw [← h, State.frame?]
  congr 1; funext x
  by_cases e : x.num = f.num <;> simp [e, hg]

/-- A frame after the change of another. -/
theorem frame?_modFrame_other {s : State} {n k : Nat} (g : Frame → Frame) (hg : ∀ x, (g x).num = x.num) (hk : k ≠ n) :
    (s.modFrame n g).frame? k = s.frame? k := by
  simp only [State.frame?, State.modFrame, List.find?_map]
  have : ((fun f : Frame => decide (f.num = k)) ∘ fun x => if x.num = n then g x else x) = fun f => decide (f.num = k) := by
    funext x; by_cases e : x.num = n <;> simp [e, hg]
  rw [this]
  cases h : s.buffer.frames.find? fun f => decide (f.num = k) with
  | none => rfl
  | some f =>
    have := List.find?_some h
    simp only [decide_eq_true_eq] at this
    simp [this, hk]

/-- What producing sectors can do: the next n of the WINDOW_READ unit on the link are produced, as far as so many are left
(R82). -/
theorem produceSectors_produces {s : State} {x : HostXfer} {c : Cmd} {f : Frame} (n : Nat)
    (h : s.serving = some (x, c, f)) (hf : s.frame? f.num = some f) :
    s.Produces (produceSectors n s) x c f (min n (c.hostHi f.unit + 1 - (c.hostLo f.unit + x.made))) := by
  generalize hlo : c.hostLo f.unit + x.made = lo
  generalize hk : min n (c.hostHi f.unit + 1 - lo) = k
  have hu : produceSectors n s = { s.modFrame f.num fun g => { g with
      data := placeSectors g.data lo (s.windowSectors (8 * f.unit + lo) k) } with
      host := { s.host with xfer := some { x with made := x.made + k } }, freeReads := s.freeReads + 1 } := by
    unfold produceSectors; rw [h, ← hk, ← hlo]
  generalize hg : (fun g : Frame => { g with data := placeSectors g.data lo (s.windowSectors (8 * f.unit + lo) k) }) = G at hu
  have hn : ∀ y, (G y).num = y.num := fun y => by rw [← hg]
  refine ⟨by omega, ⟨(G f).data, ?_, fun p => ?_⟩, ?_, ?_, fun j hj => ?_⟩
  · have := frame?_modFrame_same G hn hf
    rw [hu]; refine Eq.trans this ?_
    rw [← hg]
  · rw [← hg, placeSectors_get, hlo, State.windowSectors]
    by_cases h1 : lo ≤ p.val
    · rw [if_pos h1]
      by_cases h2 : p.val - lo < k
      · rw [if_pos (by omega), List.getElem?_map, List.getElem?_range' h2, Option.map_some, Option.getD_some]
        congr 1; omega
      · rw [if_neg (by omega), List.getElem?_eq_none (by rw [List.length_map, List.length_range']; omega), Option.getD_none]
    · rw [if_neg h1, if_neg (by omega)]
  · rw [hu]; rfl
  · rw [hu]; rfl
  · rw [hu]; exact frame?_modFrame_other G hn hj

section ops
variable {L : Prop}

/-! ### Resets and start-up (chapter 11) -/

theorem moves_enterNoDrive_parts (s : State) : Moves L { s with host := {}, drive := {} } (enterNoDrive s) :=
  .one (.phase _ .noDrive)

theorem moves_enterNoDrive (s : State) : Moves L s (enterNoDrive s) := by
  have h1 : Moves L s { s with host := { s.host with rangeSector := none } } := .one (.rangeOff s)
  have h2 := h1.tail (.traffic (.host _ {} rfl))
  have h3 := h2.tail (.link _ .off)
  have h4 := h3.tail (.traffic (.drive _ {} rfl))
  exact h4.trans (moves_enterNoDrive_parts s)

theorem moves_takeIdentity (d : Identity) (s : State) : Moves L s (takeIdentity d s) := by
  unfold takeIdentity
  refine Moves.trans ?_ (traffic_requestOp _ _ _ _).moves
  refine Moves.trans ?_ (traffic_takeClaim _ _ _).moves
  exact (Moves.one (.identity s d)).tail (.traffic (.drive _ { s.drive with asking := false } rfl))

theorem moves_identityArrives (a : Option Identity) (s : State) : Moves L s (identityArrives a s) := by
  unfold identityArrives; split
  · split
    · split
      · exact moves_takeIdentity _ _
      · exact moves_enterNoDrive _
    · exact moves_enterNoDrive _
  · exact .refl

theorem moves_abandonHeader (f : Flight) (s : State) (hL : L → s.mon.state = .lockdown) :
    Moves L s (abandonHeader f s) := by
  unfold abandonHeader
  simp only
  have h : ∀ u, Moves L s u → Moves L s (headerEnd .unreadable u) := fun u hu =>
    hu.trans (moves_headerEnd _ _ fun l => hu.lockdown (hL l))
  apply h
  refine Moves.trans ?_ (moves_resetDriveLink _)
  refine Moves.trans ?_ (traffic_endFlight _ _).moves
  refine Moves.trans (traffic_dropJobs (.service f.tag) s).moves ?_
  refine Moves.trans (traffic_driveCompletes (.service f.tag) _).moves (Traffic.moves ?_)
  exact .one (.drive _ _ rfl)

theorem moves_startUpLimitEnds (s : State) (hL : L → s.mon.state = .lockdown) : Moves L s (startUpLimitEnds s) := by
  unfold startUpLimitEnds; split
  · split
    · exact moves_enterNoDrive _
    · split
      · exact (moves_abandonHeader _ _ hL).trans (traffic_pump _).moves
      · exact .refl
  · exact .refl

theorem moves_clearTraffic (s : State) : Moves L s (clearTraffic s) := by
  have a1 : Moves L s { s with lanes := {} } := .one (.traffic (.lanes s _))
  have a2 := a1.tail (.traffic (.dropCmds _ fun _ => false))
  have a3 := a2.tail (.traffic (.dropFrames _ fun _ => false))
  have a4 := a3.tail (.traffic (.requests _ []))
  have a5 := a4.tail (.rangeOff _)
  have a6 := a5.tail (.traffic (.host _ {} rfl))
  have a7 := a6.tail (.traffic (.cat _ (clearTraffic s).cat rfl))
  have a8 := a7.tail (.traffic (.window _ (clearTraffic s).win.executing s.win.reply))
  have a9 := a8.tail (.link _ (clearTraffic s).drive.link)
  have a10 := a9.tail (.traffic (.drive _ (clearTraffic s).drive rfl))
  have e : s.table.filter (fun _ => false) = [] := by simp
  have e2 : s.buffer.frames.filter (fun _ => false) = [] := by simp
  simp only [e, e2, State.setRequests] at a10
  exact a10

theorem moves_hostLinkResets (s : State) : Moves L s (hostLinkResets s) := by
  unfold hostLinkResets; split
  · refine Moves.trans ?_ (traffic_endPieces _ _).moves
    refine Moves.trans (moves_clearTraffic s) ?_
    unfold emitLinkReset; split
    · exact .refl
    · exact (traffic_emit _ _).moves
  · exact .refl

theorem moves_hostLinkReturns (s : State) : Moves L s (hostLinkReturns s) := by
  unfold hostLinkReturns; split
  · exact .refl
  · exact .one (.traffic (.host s _ rfl))

/-! ### Time (chapters 9 and 10) -/

theorem moves_tickClock (s : State) : Moves L s (tickClock s) := by
  unfold tickClock; split
  · exact .refl
  · rename_i c hc
    refine Moves.trans ?_ (traffic_pump _).moves
    refine Moves.trans ?_ (moves_expiryTest _)
    refine .one (.clock s _ ?_ (.inl (Nat.min_le_left _ _)))
    intro d hd hm
    rw [hc] at hd; injection hd with hd; subst hd
    exact Nat.le_min.mpr ⟨hm, Nat.le_succ _⟩

theorem moves_deadlineReached (s : State) : Moves L s (deadlineReached s) := .one (.deadline s)

theorem moves_deadlineEnds (s : State) : Moves L s (deadlineEnds s) := by
  unfold deadlineEnds; split
  · exact (moves_deadlineReached s).trans (traffic_pump _).moves
  · exact .refl

/-! ### The commands of the host (chapter 4) -/

theorem moves_arriveAndPump (a : Arrival) (s : State) (hL : L → s.mon.state = .lockdown) :
    Moves L s (arriveAndPump a s) := (moves_arrive a s hL).trans (traffic_pump _).moves

theorem moves_rangeSector (rs : List Range) (s : State) (hL : L → s.mon.state = .lockdown) :
    Moves L s (rangeSector rs s) := by
  unfold rangeSector; split
  · rename_i t ht
    split
    · exact (moves_rangeSectorArrives t rs s hL ht).trans (traffic_pump _).moves
    · exact .refl
  · exact .refl

/-! ### The control window (chapter 11) -/

theorem traffic_takeTurn (s : State) : Traffic s (takeTurn s) := by
  unfold takeTurn; split
  · split
    · exact (traffic_enterCmdActive _ _).trans (traffic_pump _)
    · exact .refl
  · exact .refl

theorem moves_checkRecord (row : ControlRow) (ok : Sector → State → Bool) (body : Sector → State → State) (r : Sector)
    (s : State) (hb : Moves L s (body r s)) : Moves L s (checkRecord row ok body r s) := by
  unfold checkRecord
  split
  · exact (traffic_finishControl _ _ _).moves
  · split
    · exact (traffic_finishControl _ _ _).moves
    · split
      · exact (traffic_finishControl _ _ _).moves
      · exact hb

/-- A command that is not authorised. -/
theorem moves_runControl (row : ControlRow) (ok : Sector → State → Bool) (body : Sector → State → State) (s : State)
    (hr : row.authorised = false) (hb : ∀ r u, Moves L u (body r u)) : Moves L s (runControl row ok body s) := by
  unfold runControl
  split
  · refine Moves.trans ?_ (traffic_pump _).moves
    unfold authorise
    rw [hr]
    exact moves_checkRecord _ _ _ _ _ (hb _ _)
  · exact .refl

theorem handed_of_handedRecord {s : State} {p : Nat → Bool} {r : Sector} (h : s.handedRecord p = some r) :
    ∃ t, s.handed t r := by
  unfold State.handedRecord at h
  split at h
  · rename_i e he
    split at h
    · rename_i hp
      injection h with h
      refine ⟨e.tag, ?_⟩
      unfold State.handed
      rw [he, ← hp.1, ← h]
    · contradiction
  · contradiction

/-- An authorised command is turned away at checks 2 and 3, or it draws a nonce and goes on. -/
theorem authorised_runControl (row : ControlRow) (ok : Sector → State → Bool) (body : Sector → State → State)
    (s : State) (hb : ∀ r u, Moves L u (body r u)) :
    Moves L s (runControl row ok body s) ∨
    (∃ t r, s.handed t r ∧ s.authentic r) ∧ Moves L s.drawNonce (runControl row ok body s) := by
  unfold runControl
  split
  · rename_i r hr
    unfold authorise
    split
    · split
      · exact .inl (((moves_violate _ _ _).trans (traffic_finishControl _ _ _).moves).trans (traffic_pump _).moves)
      · rename_i h2
        split
        · exact .inl (((moves_violate _ _ _).trans (traffic_finishControl _ _ _).moves).trans (traffic_pump _).moves)
        · rename_i h3
          obtain ⟨t, ht⟩ := handed_of_handedRecord hr
          refine .inr ⟨⟨t, r, ht, by simpa using h2, by simpa using h3⟩, ?_⟩
          exact (moves_checkRecord _ _ _ _ _ (hb _ _)).trans (traffic_pump _).moves
    · exact .inl ((moves_checkRecord _ _ _ _ _ (hb _ _)).trans (traffic_pump _).moves)
  · exact .inl .refl

theorem traffic_fail (x : Result) (s : State) : Traffic s (fail x s) := traffic_finishControl _ _ _
theorem traffic_succeed (s : State) : Traffic s (succeed s) := traffic_finishControl _ _ _

theorem moves_withSlot (f : SlotIx → Sector → State → State) (r : Sector) (s : State)
    (hf : ∀ i, Moves L s (f i r s)) : Moves L s (withSlot f r s) := by
  unfold withSlot; split
  · exact hf _
  · exact (traffic_fail _ _).moves

theorem moves_needActive (f : SlotIx → Sector → State → State) (i : SlotIx) (r : Sector) (s : State)
    (hf : (s.slot i).phase = .active → Moves L s (f i r s)) : Moves L s (needActive f i r s) := by
  unfold needActive; split
  · rename_i h; exact hf h
  all_goals exact (traffic_fail _ _).moves

theorem moves_needIdle (lo hi n : Nat) (f : SlotIx → Sector → State → State) (i : SlotIx) (r : Sector) (s : State)
    (hf : (s.slot i).phase = .idle → lo ≤ n → n ≤ hi → s.numberHeld i n = false → Moves L s (f i r s)) :
    Moves L s (needIdle lo hi n f i r s) := by
  unfold needIdle; split
  · exact (traffic_fail _ _).moves
  · rename_i hp
    split
    · exact (traffic_fail _ _).moves
    · rename_i hn
      split
      · exact (traffic_fail _ _).moves
      · rename_i hh
        exact hf (by simpa using hp) (by omega) (by omega) (by simpa using hh)

theorem moves_enterLoading (i : SlotIx) (n : Nat) (s : State) (hi : (s.slot i).phase = .idle)
    (hr : 1 ≤ n ∧ n ≤ 1023) (hf : s.numberHeld i n = false) : Moves L s (enterLoading i n s) := by
  unfold enterLoading
  refine Moves.trans ?_ (traffic_claimAndLoad _ _ _).moves
  refine Moves.trans ?_ (traffic_setStage _ _).moves
  exact .one (.occupy s i _ n hi (by simp) rfl ⟨hr.1, by omega⟩ hf)

/-! ### The control commands on titles (chapters 1 to 3) -/

theorem moves_createBody (r : Sector) (s : State) : Moves L s (createBody r s) := by
  unfold createBody
  refine moves_withSlot _ _ _ fun i => ?_
  refine moves_needIdle _ _ _ _ _ _ _ fun hp h1 h2 hf => ?_
  split
  · exact (traffic_fail _ _).moves
  · exact moves_enterLoading i _ s hp ⟨h1, h2⟩ hf

theorem moves_openBody (r : Sector) (s : State) : Moves L s (openBody r s) := by
  unfold openBody
  refine moves_withSlot _ _ _ fun i => ?_
  exact moves_needIdle _ _ _ _ _ _ _ fun hp h1 h2 hf => moves_enterLoading i _ s hp ⟨h1, h2⟩ hf

theorem moves_createRingBody (r : Sector) (s : State) : Moves L s (createRingBody r s) := by
  unfold createRingBody
  refine moves_withSlot _ _ _ fun i => ?_
  refine moves_needIdle _ _ _ _ _ _ _ fun hp h1 h2 hf => ?_
  unfold createRingTests
  repeat' split
  all_goals first
    | exact (traffic_fail _ _).moves
    | skip
  unfold makeRing
  simp only
  refine Moves.trans ?_ (traffic_finishControl _ _ _).moves
  refine Moves.tail ?_ (.draw _)
  refine Moves.tail (Moves.one (.extents s _)) (.occupy _ i _ (recNumber r) hp ?_ rfl ⟨by omega, h2⟩ hf)
  intro e; cases e

theorem moves_changeAndStore (st : Stage) (i : SlotIx) (n : Nat) (f : TitleSlot → TitleSlot) (s : State)
    (h : (s.slot i).phase = .active) (hf : (f (s.slot i)).phase = (s.slot i).phase)
    (hn : (f (s.slot i)).number = (s.slot i).number) : Moves L s (setStage st (changeAndStore i n f s)) :=
  ((traffic_changeAndStore i n f s (by rw [h]; decide) hf hn).trans (traffic_setStage _ _)).moves

theorem moves_attachBody (r : Sector) (s : State) : Moves L s (attachBody r s) := by
  unfold attachBody
  refine moves_withSlot _ _ _ fun i => ?_
  refine moves_needActive _ _ _ _ fun h => ?_
  unfold attachTests
  simp only
  repeat' split
  all_goals first
    | exact (traffic_fail _ _).moves
    | skip
  unfold attachRun
  simp only
  refine Moves.trans (t := { s with map := addRun s.map i (attachLba r / 8) (attachLen r / 8) (s.slot i).nextUnit })
    (Moves.one (.extents s _)) ?_
  exact moves_changeAndStore _ i _ _ _ h rfl rfl

theorem moves_storeState (i : SlotIx) (r : Sector) (st : TitleState) (s : State) (h : (s.slot i).phase = .active) :
    Moves L s (storeState i r st s) := moves_changeAndStore _ i _ _ s h rfl rfl

theorem moves_sealSlot (i : SlotIx) (r : Sector) (s : State) (h : (s.slot i).phase = .active) :
    Moves L s (sealSlot i r s) := by
  unfold sealSlot
  simp only
  repeat' split
  all_goals first
    | exact (traffic_fail _ _).moves
    | exact (traffic_succeed _).moves
    | exact moves_storeState _ _ _ _ h

theorem moves_syncSlot (i : SlotIx) (r : Sector) (s : State) (h : (s.slot i).phase = .active) :
    Moves L s (syncSlot i r s) := by
  unfold syncSlot
  simp only
  repeat' split
  all_goals first
    | exact (traffic_succeed _).moves
    | exact (traffic_setStage _ _).moves
    | skip
  exact ((traffic_requestStore i s (by rw [h]; decide)).trans (traffic_setStage _ _)).moves

theorem moves_drainFor (d : DrainReason) (i : SlotIx) (s : State) (h : (s.slot i).phase = .active) :
    Moves L s (drainFor d i s) := by
  unfold drainFor
  refine ((traffic_setStage .idle s).trans (traffic_startDrain i d _ ?_)).moves
  have e : (setStage .idle s).slot i = s.slot i := by unfold setStage; split <;> rfl
  rw [e, h]; decide

theorem moves_recordingRights (i : SlotIx) (r : Sector) (s : State) (h : (s.slot i).phase = .active) :
    Moves L s (recordingRights i r s) := by
  unfold recordingRights
  repeat' split
  all_goals first
    | exact (traffic_fail _ _).moves
    | skip
  exact (moves_changeAndStore _ i _ _ s h rfl rfl).trans (moves_expireSlot _ _)

theorem moves_rightsSlot (i : SlotIx) (r : Sector) (s : State) (h : (s.slot i).phase = .active) :
    Moves L s (rightsSlot i r s) := by
  have h' : (s.slot i).phase ≠ .idle := by rw [h]; decide
  unfold rightsSlot; split
  · exact moves_recordingRights i r s h
  · unfold ringRights; split
    · exact (traffic_fail _ _).moves
    · simp only
      exact ((traffic_modSlot s i _ (.busy h' h' rfl)).trans (traffic_finishControl _ _ _)).moves

theorem moves_ringEmptySlot (i : SlotIx) (r : Sector) (s : State) (h : (s.slot i).phase = .active) :
    Moves L s (ringEmptySlot i r s) := by
  have h' : (s.slot i).phase ≠ .idle := by rw [h]; decide
  unfold ringEmptySlot; split
  · exact (traffic_fail _ _).moves
  · exact ((traffic_modSlot s i _ (.busy h' h' rfl)).trans (traffic_succeed _)).moves

theorem moves_resumeSlot (i : SlotIx) (r : Sector) (s : State) (h : (s.slot i).phase = .active) :
    Moves L s (resumeSlot i r s) := by
  have h' : (s.slot i).phase ≠ .idle := by rw [h]; decide
  exact ((traffic_modSlot s i _ (.busy h' h' rfl)).trans (traffic_succeed _)).moves

theorem moves_moveBeginSlot (i : SlotIx) (r : Sector) (s : State) (h : (s.slot i).phase = .active) :
    Moves L s (moveBeginSlot i r s) := by
  unfold moveBeginSlot
  simp only
  split
  · exact moves_storeState _ _ _ _ h
  · exact (traffic_fail _ _).moves

theorem moves_moveCommitSlot (i : SlotIx) (r : Sector) (s : State) (h : (s.slot i).phase = .active) :
    Moves L s (moveCommitSlot i r s) := by
  unfold moveCommitSlot
  simp only
  split
  · exact moves_drainFor _ _ _ h
  · exact (traffic_fail _ _).moves

theorem moves_moveCancelSlot (i : SlotIx) (r : Sector) (s : State) (h : (s.slot i).phase = .active) :
    Moves L s (moveCancelSlot i r s) := by
  unfold moveCancelSlot
  simp only
  split
  · exact moves_storeState _ _ _ _ h
  · exact (traffic_fail _ _).moves

/-- The body of a command on an ACTIVE slot. -/
theorem moves_activeBody (f : SlotIx → Sector → State → State)
    (hf : ∀ i r s, (s.slot i).phase = .active → Moves L s (f i r s)) (r : Sector) (s : State) :
    Moves L s (withSlot (needActive f) r s) :=
  moves_withSlot _ _ _ fun i => moves_needActive _ _ _ _ fun h => hf i r s h

/-! ### The control commands on the part (chapters 8 to 11) -/

theorem moves_setClockBody (r : Sector) (s : State) : Moves L s (setClockBody r s) := by
  unfold setClockBody
  simp only
  refine Moves.trans ?_ (traffic_finishControl _ _ _).moves
  refine Moves.trans ?_ (moves_expiryTest _)
  refine .one (.clock s _ ?_ ?_)
  · intro c hc _
    rw [hc]; unfold setTo; simp only; split
    · exact Nat.le_refl _
    · rename_i h; exact Nat.le_of_not_lt h
  · cases hc : s.clock with
    | none => exact .inl (Nat.min_le_left _ _)
    | some c =>
      unfold setTo; simp only; split
      · exact .inr rfl
      · exact .inl (Nat.min_le_left _ _)

theorem moves_setCeiling (c : Nat) (s : State) : Moves L s (setCeiling c s) := by
  have h : Moves L s { s with buffer := { s.buffer with ceiling := c } } := .one (.ceiling s c)
  unfold setCeiling
  simp only
  split
  · exact h.trans (traffic_arbitrate _).moves
  · exact h

theorem windowOfNat_range (w n : Nat) : (10 ≤ windowOfNat w n ∧ windowOfNat w n ≤ 60000) ∨ windowOfNat w n = w := by
  unfold windowOfNat; split
  · exact .inr rfl
  · left; omega

theorem moves_policyBody (r : Sector) (s : State) : Moves L s (policyBody r s) := by
  unfold policyBody
  simp only
  refine Moves.trans ?_ (traffic_finishControl _ _ _).moves
  refine Moves.trans ?_ (moves_setCeiling _ _)
  have h1 : Moves L s { s with win := { s.win with
      readPolicy := (settingOfNat s.win.readPolicy (Sector.field r 16 1)).getD s.win.readPolicy
      writePolicy := (settingOfNat s.win.writePolicy (Sector.field r 17 1)).getD s.win.writePolicy
      deallocatePolicy := (settingOfNat s.win.deallocatePolicy (Sector.field r 18 1)).getD s.win.deallocatePolicy } } :=
    .one (.policies s _ _ _)
  exact h1.tail (.reactions _ (Vector.ofFn fun k => (recReaction r s.mon k).getD s.mon.reactions[k])
    (windowOfNat s.mon.window (Sector.field r 32 4)) (windowOfNat_range _ _))

theorem moves_clearEventsBody (r : Sector) (s : State) : Moves L s (clearEventsBody r s) := by
  unfold clearEventsBody
  simp only
  refine Moves.trans ?_ (traffic_finishControl _ _ _).moves
  exact (Moves.one (.acknowledge s _)).tail (.clearFlags _ _)

theorem moves_formatBody (r : Sector) (s : State) : Moves L s (formatBody r s) := by
  unfold formatBody
  split
  · exact (traffic_fail _ _).moves
  · split
    · exact (traffic_fail _ _).moves
    · unfold writeHeader
      refine Moves.trans ?_ (traffic_requestOp _ _ _ _).moves
      refine Moves.trans ?_ (traffic_takeClaim _ _ _).moves
      refine Moves.trans ?_ (traffic_setStage _ _).moves
      unfold drawEpoch
      split
      · exact .refl
      all_goals exact .one (.draw s)

theorem moves_sweepBody (r : Sector) (s : State) : Moves L s (sweepBody r s) := by
  unfold sweepBody
  repeat' split
  all_goals first
    | exact (traffic_fail _ _).moves
    | skip
  refine (traffic_succeed s).moves.trans ?_
  unfold startSweep
  refine Moves.trans ?_ (moves_sweepTo _ _ _)
  exact .one (.traffic (.cat _ _ rfl))

/-- RESUME: the checks turn the record away, or the nonce is drawn, and the command fails a check or the monitor returns
to NORMAL and traffic follows (R188). -/
theorem resume_moves (s : State) :
    let row : ControlRow := { code := 18, authorised := true, inUnformatted := true, inLockdown := true }
    Moves L s (runControl row noFields resumeBody s) ∨
    (∃ t r, s.handed t r ∧ s.authentic r) ∧
    Traffic { s.drawNonce with mon := s.mon.resumed } (runControl row noFields resumeBody s) := by
  intro row
  unfold runControl
  split
  · rename_i r hr
    unfold authorise
    split
    · split
      · exact .inl (((moves_violate _ _ _).trans (traffic_finishControl _ _ _).moves).trans (traffic_pump _).moves)
      · rename_i h2
        split
        · exact .inl (((moves_violate _ _ _).trans (traffic_finishControl _ _ _).moves).trans (traffic_pump _).moves)
        · rename_i h3
          obtain ⟨t, ht⟩ := handed_of_handedRecord hr
          refine .inr ⟨⟨t, r, ht, by simpa using h2, by simpa using h3⟩, ?_⟩
          refine Traffic.trans ?_ (traffic_pump _)
          unfold checkRecord
          rw [if_neg (fun h => by cases h.2), if_neg (fun h => by cases h.2), if_neg (fun h => by cases h)]
          exact traffic_finishControl _ _ _
    · rename_i h; exact absurd rfl h
  · exact .inl .refl

end ops

end Sys2Proof.Machine
end

