-- ==== Sys2Proof/Laws/Exec.lean ====
section
/-!
SUPPORT. What a command can do, once for all 62: `exec_cases`.
-/

namespace Sys2Proof.Machine

/-- The ways a command changes the state: a hard reset; the release of RESET_N; moves; for an authorised command, a nonce
drawn and then moves; for RESUME, a nonce drawn, the monitor back in NORMAL, and traffic. -/
inductive Did (c : Instr) (s t : State) : Prop
  | hardReset (hc : c = .hardReset)
      (ht : t = { State.reset with draws := s.draws, stamp := s.stamp, freeReads := s.freeReads, pending := s.pending })
  | released (hc : c = .resetRelease) (hr : s.inReset = true)
      (ht : t = (askIdentity
        { s.quiet with inReset := false, phase := .starting, host := { s.host with up := true } }).drawNonce)
  | moved (h : Moves (s.mon.state = .lockdown) s t)
  | accepted (hc : c ∈ authorisedCommands) (ha : ∃ t r, s.handed t r ∧ s.authentic r)
      (h : Moves (s.mon.state = .lockdown) s.quiet.drawNonce t)
  | resumed (hc : c = .resume) (ha : ∃ t r, s.handed t r ∧ s.authentic r)
      (h : Traffic { s.quiet.drawNonce with mon := s.mon.resumed } t)

theorem did_act {c : Instr} {s t : State} {f : State → State}
    (hf : ∀ u : State, u.mon = s.mon → Moves (s.mon.state = .lockdown) u (f u)) (h : act s f = .next t) :
    Did c s t := by
  unfold act at h
  injection h with h
  subst h
  split
  · exact .moved (traffic_quiet s).moves
  · exact .moved ((traffic_quiet s).moves.trans (hf s.quiet rfl))

theorem did_authorised {c : Instr} {s t : State} {f : State → State} (hc : c ∈ authorisedCommands)
    (hf : ∀ u : State, Moves (s.mon.state = .lockdown) u (f u) ∨
      (∃ t r, u.handed t r ∧ u.authentic r) ∧ Moves (s.mon.state = .lockdown) u.drawNonce (f u))
    (h : act s f = .next t) : Did c s t := by
  unfold act at h
  injection h with h
  subst h
  split
  · exact .moved (traffic_quiet s).moves
  · rcases hf s.quiet with h | ⟨ha, h⟩
    · exact .moved ((traffic_quiet s).moves.trans h)
    · exact .accepted hc ha h

theorem exec_cases {c : Instr} {s t : State} (h : exec c s = .next t) : Did c s t := by
  have lock : ∀ u : State, u.mon = s.mon → (s.mon.state = .lockdown → u.mon.state = .lockdown) :=
    fun u e l => by rw [e]; exact l
  have arr : ∀ (a : Arrival) (u : State), u.mon = s.mon → Moves (s.mon.state = .lockdown) u (arriveAndPump a u) :=
    fun a u e => moves_arriveAndPump a u (lock u e)
  have pumped : ∀ (g : State → State), (∀ u, Traffic u (g u)) → ∀ u : State, u.mon = s.mon →
      Moves (s.mon.state = .lockdown) u (pump (g u)) := fun g hg u _ => ((hg u).trans (traffic_pump _)).moves
  cases c with
  | hardReset => injection h with h; exact .hardReset rfl h.symm
  | resetRelease =>
    change execResetRelease s = _ at h
    unfold execResetRelease at h
    injection h with h
    subst h
    split
    · rename_i hr; exact .released rfl hr rfl
    · exact .moved (traffic_quiet s).moves
  | hostLinkReset => exact did_act (fun u _ => moves_hostLinkResets u) h
  | driveIdentity a => exact did_act (fun u _ => moves_identityArrives a u) h
  | startUpLimit => exact did_act (fun u e => moves_startUpLimitEnds u (lock u e)) h
  | tick => exact did_act (fun u _ => moves_tickClock u) h
  | windowDeadline => exact did_act (fun u _ => moves_deadlineEnds u) h
  | serviceTimer t => exact did_act (fun u e => moves_timerEnds t u (lock u e)) h
  | driveLinkResetEnd => exact did_act (fun u _ => moves_linkBack u) h
  | linkResetNoAnswer => exact did_act (fun u e => moves_noAnswer u (lock u e)) h
  | holdLimit => exact did_act (fun u _ => moves_holdEnds u) h
  | driveError t l => exact did_act (fun u _ => (traffic_driveFails t l u).moves) h
  | errorRecordRead => exact did_act (fun u _ => (traffic_errorRecordArrives u).moves) h
  | errorRecordTimeout => exact did_act (fun u _ => moves_errorRecordFails u) h
  | driveIssue => exact did_act (fun u _ => (traffic_issueHead u).moves) h
  | hostRead t l n =>
    change execHostRead t l n s = _ at h
    unfold execHostRead at h; split at h
    · exact did_act (arr _) h
    · contradiction
  | hostWrite t l n =>
    change execHostWrite t l n s = _ at h
    unfold execHostWrite at h; split at h
    · exact did_act (arr _) h
    · contradiction
  | deallocate t => exact did_act (arr _) h
  | deallocateRangeSector rs =>
    change execDeallocateRangeSector rs s = _ at h
    unfold execDeallocateRangeSector at h; split at h
    · exact did_act (fun u e => moves_rangeSector rs u (lock u e)) h
    · contradiction
  | flush t => exact did_act (arr _) h
  | identify t => exact did_act (arr _) h
  | pass t w d =>
    change execPass t w d s = _ at h
    unfold execPass at h; split at h
    · exact did_act (arr _) h
    · contradiction
  | capacityRefusedCommand t r => exact did_act (arr _) h
  | drivePushUnit t => exact did_act (pumped _ (traffic_pushUnit t)) h
  | unitReceived d =>
    change execUnitReceived d s = _ at h
    unfold execUnitReceived at h; split at h
    · exact did_act (pumped _ (traffic_receiveUnit d)) h
    · contradiction
  | readRunComplete t => exact did_act (pumped _ (traffic_readRunEnds t)) h
  | mergeReadComplete t => exact did_act (pumped _ (traffic_mergeReadEnds t)) h
  | writeRunComplete t => exact did_act (pumped _ (traffic_writeRunEnds t)) h
  | driveFlushComplete t g => exact did_act (pumped _ (traffic_flushEnds t g)) h
  | deallocateComplete t g => exact did_act (pumped _ (traffic_deallocateEnds t g)) h
  | passComplete t g => exact did_act (pumped _ (traffic_passEnds t g)) h
  | drivePullUnit t => exact did_act (fun u _ => (traffic_pullUnit t u).moves) h
  | unitPulled => exact did_act (pumped _ traffic_unitGone) h
  | unitTaken d =>
    change execUnitTaken d s = _ at h
    unfold execUnitTaken at h; split at h
    · exact did_act (fun u _ => (moves_takeUnit d u).trans (traffic_pump _).moves) h
    · contradiction
  | unitDelivered => exact did_act (pumped _ traffic_deliverUnit) h
  | hostTransferEnd => exact did_act (pumped _ traffic_transferEnds) h
  | jobEnd l => exact did_act (fun u e => (moves_laneEnds l u (lock u e)).trans (traffic_pump _).moves) h
  | serviceReadComplete t d =>
    exact did_act (fun u e => (moves_serviceReadEnds t d u (lock u e)).trans (traffic_pump _).moves) h
  | serviceWriteComplete t g =>
    exact did_act (fun u e => (moves_serviceWriteEnds t g u (lock u e)).trans (traffic_pump _).moves) h
  | controlTurn => exact did_act (fun u _ => (traffic_takeTurn u).moves) h
  | unknownCommandCode =>
    change execUnknownCommandCode s = _ at h
    unfold execUnknownCommandCode at h
    refine did_act (fun u _ => ?_) h
    split
    · exact ((traffic_finishControl _ _ _).trans (traffic_pump _)).moves
    · exact .refl
  | createTitle =>
    exact did_authorised (by decide) (fun u => authorised_runControl _ _ _ u fun r v => moves_createBody r v) h
  | openTitle => exact did_act (fun u _ => moves_runControl _ _ _ u rfl fun r v => moves_openBody r v) h
  | createRing => exact did_act (fun u _ => moves_runControl _ _ _ u rfl fun r v => moves_createRingBody r v) h
  | attach => exact did_act (fun u _ => moves_runControl _ _ _ u rfl fun r v => moves_attachBody r v) h
  | sealTitle => exact did_act (fun u _ => moves_runControl _ _ _ u rfl (moves_activeBody _ moves_sealSlot)) h
  | sync => exact did_act (fun u _ => moves_runControl _ _ _ u rfl (moves_activeBody _ moves_syncSlot)) h
  | close =>
    exact did_act (fun u _ => moves_runControl _ _ _ u rfl
      (moves_activeBody _ fun i _ s hp => moves_drainFor .closed i s hp)) h
  | delete =>
    exact did_act (fun u _ => moves_runControl _ _ _ u rfl
      (moves_activeBody _ fun i _ s hp => moves_drainFor .deleted i s hp)) h
  | setRights =>
    exact did_authorised (by decide) (fun u => authorised_runControl _ _ _ u (moves_activeBody _ moves_rightsSlot)) h
  | ringEmpty => exact did_act (fun u _ => moves_runControl _ _ _ u rfl (moves_activeBody _ moves_ringEmptySlot)) h
  | resumeTitle => exact did_act (fun u _ => moves_runControl _ _ _ u rfl (moves_activeBody _ moves_resumeSlot)) h
  | moveBegin =>
    exact did_authorised (by decide) (fun u => authorised_runControl _ _ _ u (moves_activeBody _ moves_moveBeginSlot)) h
  | moveCommit =>
    exact did_authorised (by decide) (fun u => authorised_runControl _ _ _ u (moves_activeBody _ moves_moveCommitSlot)) h
  | moveCancel =>
    exact did_act (fun u _ => moves_runControl _ _ _ u rfl (moves_activeBody _ moves_moveCancelSlot)) h
  | setClock =>
    exact did_authorised (by decide) (fun u => authorised_runControl _ _ _ u fun r v => moves_setClockBody r v) h
  | setPolicy =>
    exact did_authorised (by decide) (fun u => authorised_runControl _ _ _ u fun r v => moves_policyBody r v) h
  | clearEvents => exact did_act (fun u _ => moves_runControl _ _ _ u rfl fun r v => moves_clearEventsBody r v) h
  | resume =>
    change execResume s = _ at h
    unfold execResume act at h
    injection h with h
    subst h
    split
    · exact .moved (traffic_quiet s).moves
    · rcases resume_moves (L := s.mon.state = .lockdown) s.quiet with h | ⟨ha, h⟩
      · exact .moved ((traffic_quiet s).moves.trans h)
      · exact .resumed rfl ha h
  | format =>
    exact did_authorised (by decide) (fun u => authorised_runControl _ _ _ u fun r v => moves_formatBody r v) h
  | sweep => exact did_act (fun u _ => moves_runControl _ _ _ u rfl fun r v => moves_sweepBody r v) h
  | hostLinkReturn => exact did_act (fun u _ => moves_hostLinkReturns u) h

end Sys2Proof.Machine
end

