-- ==== Sys2Proof/Laws/PerInstr.lean ====
section
/-!
SUPPORT. What WellFormed says of each command, one lemma a command: the bounds the manual gives its operands (R71, R88,
R91, R114), and nothing for a command without bounds.
-/

namespace Sys2Proof.Laws.WellFormedRange

/-- The bounds of a command's operands. -/
def Bounds : Instr → Prop
  | .hostRead _ _ count => 1 ≤ count ∧ count ≤ 65536
  | .hostWrite _ _ count => 1 ≤ count ∧ count ≤ 65536
  | .deallocateRangeSector ranges => ranges.length ≤ 64
  | .pass _ _ data => data ≠ .toHost 0 ∧ data ≠ .toDrive 0
  | .unitReceived data => 1 ≤ data.length ∧ data.length ≤ 8
  | .unitTaken data => 1 ≤ data.length ∧ data.length ≤ 8
  | .hardReset | .resetRelease | .hostLinkReset | .driveIdentity _ | .startUpLimit | .tick | .windowDeadline
  | .serviceTimer _ | .driveLinkResetEnd | .linkResetNoAnswer | .holdLimit | .driveError _ _ | .errorRecordRead
  | .errorRecordTimeout | .driveIssue | .deallocate _ | .flush _ | .identify _ | .capacityRefusedCommand _ _
  | .drivePushUnit _ | .readRunComplete _ | .mergeReadComplete _ | .writeRunComplete _ | .driveFlushComplete _ _
  | .deallocateComplete _ _ | .passComplete _ _ | .drivePullUnit _ | .unitPulled | .unitDelivered
  | .hostTransferEnd | .jobEnd _ | .serviceReadComplete _ _ | .serviceWriteComplete _ _ | .controlTurn
  | .unknownCommandCode | .createTitle | .openTitle | .createRing | .attach | .sealTitle | .sync | .close | .delete
  | .setRights | .ringEmpty | .resumeTitle | .moveBegin | .moveCommit | .moveCancel | .setClock | .setPolicy
  | .clearEvents | .resume | .format | .sweep | .hostLinkReturn => True

/-- A command is well-formed exactly where its operands keep their bounds. -/
def Statement (i : Instr) : Prop := i.WellFormed = true ↔ Bounds i

theorem hardReset : Statement .hardReset := iff_of_true rfl trivial
theorem resetRelease : Statement .resetRelease := iff_of_true rfl trivial
theorem hostLinkReset : Statement .hostLinkReset := iff_of_true rfl trivial
theorem driveIdentity (answer : Option Identity) : Statement (.driveIdentity answer) := iff_of_true rfl trivial
theorem startUpLimit : Statement .startUpLimit := iff_of_true rfl trivial
theorem tick : Statement .tick := iff_of_true rfl trivial
theorem windowDeadline : Statement .windowDeadline := iff_of_true rfl trivial
theorem serviceTimer (tag : SvcTag) : Statement (.serviceTimer tag) := iff_of_true rfl trivial
theorem driveLinkResetEnd : Statement .driveLinkResetEnd := iff_of_true rfl trivial
theorem linkResetNoAnswer : Statement .linkResetNoAnswer := iff_of_true rfl trivial
theorem holdLimit : Statement .holdLimit := iff_of_true rfl trivial
theorem driveError (tag : HostTag) (lba : Option Nat) : Statement (.driveError tag lba) := iff_of_true rfl trivial
theorem errorRecordRead : Statement .errorRecordRead := iff_of_true rfl trivial
theorem errorRecordTimeout : Statement .errorRecordTimeout := iff_of_true rfl trivial
theorem driveIssue : Statement .driveIssue := iff_of_true rfl trivial
theorem hostRead (tag : HostTag) (lba : Nat) (count : Nat) : Statement (.hostRead tag lba count) :=
  Bool.and_eq_true_iff.trans (and_congr decide_eq_true_iff decide_eq_true_iff)

theorem hostWrite (tag : HostTag) (lba : Nat) (count : Nat) : Statement (.hostWrite tag lba count) :=
  Bool.and_eq_true_iff.trans (and_congr decide_eq_true_iff decide_eq_true_iff)

theorem deallocate (tag : HostTag) : Statement (.deallocate tag) := iff_of_true rfl trivial
theorem deallocateRangeSector (ranges : List Range) : Statement (.deallocateRangeSector ranges) := by
  simp [Statement, Bounds, Instr.WellFormed, rangesOk]

theorem flush (tag : HostTag) : Statement (.flush tag) := iff_of_true rfl trivial
theorem identify (tag : HostTag) : Statement (.identify tag) := iff_of_true rfl trivial
theorem pass (tag : HostTag) (words : Nat) (data : PassData) : Statement (.pass tag words data) := by
  cases data <;> simp [Statement, Bounds, Instr.WellFormed, passOk] <;> omega

theorem capacityRefusedCommand (tag : HostTag) (range : Option Range) : Statement (.capacityRefusedCommand tag range) :=
  iff_of_true rfl trivial
theorem drivePushUnit (tag : HostTag) : Statement (.drivePushUnit tag) := iff_of_true rfl trivial
theorem unitReceived (data : List Sector) : Statement (.unitReceived data) := by
  simp [Statement, Bounds, Instr.WellFormed, transferOk]

theorem readRunComplete (tag : HostTag) : Statement (.readRunComplete tag) := iff_of_true rfl trivial
theorem mergeReadComplete (tag : HostTag) : Statement (.mergeReadComplete tag) := iff_of_true rfl trivial
theorem writeRunComplete (tag : HostTag) : Statement (.writeRunComplete tag) := iff_of_true rfl trivial
theorem driveFlushComplete (tag : HostTag) (good : Bool) : Statement (.driveFlushComplete tag good) :=
  iff_of_true rfl trivial
theorem deallocateComplete (tag : HostTag) (good : Bool) : Statement (.deallocateComplete tag good) :=
  iff_of_true rfl trivial
theorem passComplete (tag : HostTag) (good : Bool) : Statement (.passComplete tag good) := iff_of_true rfl trivial
theorem drivePullUnit (tag : HostTag) : Statement (.drivePullUnit tag) := iff_of_true rfl trivial
theorem unitPulled : Statement .unitPulled := iff_of_true rfl trivial
theorem unitTaken (data : List Sector) : Statement (.unitTaken data) := by
  simp [Statement, Bounds, Instr.WellFormed, transferOk]

theorem unitDelivered : Statement .unitDelivered := iff_of_true rfl trivial
theorem hostTransferEnd : Statement .hostTransferEnd := iff_of_true rfl trivial
theorem jobEnd (lane : Fin 2) : Statement (.jobEnd lane) := iff_of_true rfl trivial
theorem serviceReadComplete (tag : SvcTag) (unit : Option DiskUnit) : Statement (.serviceReadComplete tag unit) :=
  iff_of_true rfl trivial
theorem serviceWriteComplete (tag : SvcTag) (good : Bool) : Statement (.serviceWriteComplete tag good) :=
  iff_of_true rfl trivial
theorem controlTurn : Statement .controlTurn := iff_of_true rfl trivial
theorem unknownCommandCode : Statement .unknownCommandCode := iff_of_true rfl trivial
theorem createTitle : Statement .createTitle := iff_of_true rfl trivial
theorem openTitle : Statement .openTitle := iff_of_true rfl trivial
theorem createRing : Statement .createRing := iff_of_true rfl trivial
theorem attach : Statement .attach := iff_of_true rfl trivial
theorem sealTitle : Statement .sealTitle := iff_of_true rfl trivial
theorem sync : Statement .sync := iff_of_true rfl trivial
theorem close : Statement .close := iff_of_true rfl trivial
theorem delete : Statement .delete := iff_of_true rfl trivial
theorem setRights : Statement .setRights := iff_of_true rfl trivial
theorem ringEmpty : Statement .ringEmpty := iff_of_true rfl trivial
theorem resumeTitle : Statement .resumeTitle := iff_of_true rfl trivial
theorem moveBegin : Statement .moveBegin := iff_of_true rfl trivial
theorem moveCommit : Statement .moveCommit := iff_of_true rfl trivial
theorem moveCancel : Statement .moveCancel := iff_of_true rfl trivial
theorem setClock : Statement .setClock := iff_of_true rfl trivial
theorem setPolicy : Statement .setPolicy := iff_of_true rfl trivial
theorem clearEvents : Statement .clearEvents := iff_of_true rfl trivial
theorem resume : Statement .resume := iff_of_true rfl trivial
theorem format : Statement .format := iff_of_true rfl trivial
theorem sweep : Statement .sweep := iff_of_true rfl trivial
theorem hostLinkReturn : Statement .hostLinkReturn := iff_of_true rfl trivial

end Sys2Proof.Laws.WellFormedRange
end

