-- ==== Sys2Proof/Tests/Slice0.lean ====
section
/-!
SUPPORT. Tests on small states: the checks of WellFormed, one step of each command with values from the manual's examples
and rules, and for each statement a concrete state and operands that meet its hypotheses.
-/

namespace Sys2Proof.Tests

open Sys2Proof Sys2Proof.Machine

set_option Elab.async false

/-! ### Helpers -/

/-- A queued tag. -/
def q (n : Nat) : HostTag := .queued (Fin.ofNat 32 n)

/-- A drive of 2,097,152 sectors: P is 2,088,960, and the command sector is 2,088,944 (R142). -/
def disk : Identity := { capacity := 2097152, queued := true, depth := 32, sector := 0#4096 }

/-- A part in READY with both links up. -/
def up : State :=
  { inReset := false, phase := .ready, identity := some disk, host := { up := true }, drive := { link := .up },
    cat := { header := .valid 7 } }

/-- An ACTIVE recording, title 37. -/
def title37 : TitleSlot :=
  { number := some 37, phase := .active, kind := some .recording, state := some .recording, cls := some .once,
    nextUnit := 5000, extentCount := 1, key := some ⟨1⟩, gen := some 1 }

/-- Units 10,000 … 14,999, slot 3's. -/
def extent37 : Extent := { start := 10000, len := 5000, slot := 3, first := 0 }

/-- The part with a title in slot 3 on that extent. -/
def withTitle (t : TitleSlot) : State := { up with map := [extent37], slots := up.slots.set 3 t }

/-- An ACTIVE ring of 64 segments of one unit, title 1030. -/
def title1030 (r : Ring) : TitleSlot :=
  { number := some 1030, phase := .active, kind := some .ring, state := some .recording, cls := some .free,
    extentCount := 1, key := some ⟨1⟩, gen := some 1, ring := some r }

/-- Units 10,000 … 10,063, slot 3's. -/
def extent1030 : Extent := { start := 10000, len := 64, slot := 3, first := 0 }

def withRing (r : Ring) : State := { up with map := [extent1030], slots := up.slots.set 3 (title1030 r) }

/-- A ring whose 64 segments were last written on the lap before 65,535 reaches its end. -/
def lastLap : Ring :=
  { newRing 64 0 with head := some 63, lapCounter := 65535, segs := List.replicate 64 { lap := 65535, firstWrite := some 5 } }

/-- What a command makes of the state. -/
def after (i : Instr) (s : State) : State :=
  match exec i s with
  | .next t => t
  | .fault _ => s
  | .refused _ => s

/-- The part with a CONTROL_WRITE's record in hand. -/
def inHand (s : State) (r : Sector) : State :=
  { s with
    table := s.table ++ [{ tag := q 0, kind := .controlWrite, lba := 2088944, count := 1 }]
    win := { s.win with executing := some { tag := some (q 0), record := r, stage := .handed }, last := some r } }

/-- A record: request 9, a code, a slot, the nonce 0 of a part that has drawn none, and more fields. -/
def record (code slot : Nat) (fs : List (Nat × Nat × Nat)) : Sector := layout ([(0, 4, 9), (4, 1, code), (5, 1, slot)] ++ fs)

/-- A record with this authorisation code. -/
def coded (c : BitVec 256) (r : Sector) : Sector := c.setWidth 4096 <<< 3840 ||| (recCovered r).setWidth 4096

/-- A record with its right authorisation code (R197). -/
def signed (r : Sector) : Sector := coded (Config.authCode (recCovered r)) r

theorem covered_coded (c : BitVec 256) (r : Sector) : recCovered (coded c r) = recCovered r := by
  unfold coded recCovered
  apply BitVec.eq_of_getLsbD_eq
  intro i hi
  have : i < 4096 := by omega
  simp [hi, this]

theorem auth_coded (c : BitVec 256) (r : Sector) : recAuth (coded c r) = c := by
  unfold coded recAuth recCovered
  apply BitVec.eq_of_getLsbD_eq
  intro i hi
  have : 3840 + i < 4096 := by omega
  simp [hi, this]

/-- A field below byte 480 is as before. -/
theorem field_coded (c : BitVec 256) (r : Sector) (off n : Nat) (h : 8 * off + 8 * n ≤ 3840) :
    Sector.field (coded c r) off n = Sector.field r off n := by
  have e (i : Nat) (hi : i < 3840) : (coded c r).toNat.testBit i = r.toNat.testBit i := by
    have := congrArg (fun x => BitVec.getLsbD x i) (covered_coded c r)
    rw [BitVec.testBit_toNat, BitVec.testBit_toNat]
    simpa [recCovered, hi] using this
  apply Nat.eq_of_testBit_eq
  intro i
  unfold Sector.field
  simp only [Nat.testBit_mod_two_pow, Nat.testBit_shiftRight]
  by_cases hi : i < 8 * n
  · rw [e (8 * off + i) (by omega)]
  · simp [hi]

theorem nonce_coded (c : BitVec 256) (r : Sector) : recNonce (coded c r) = recNonce r :=
  congrArg (BitVec.ofNat 64) (field_coded c r 8 8 (by decide))

theorem field_signed (r : Sector) (off n : Nat) (h : 8 * off + 8 * n ≤ 3840) :
    Sector.field (signed r) off n = Sector.field r off n := field_coded _ r off n h

/-- A signed record that carries the current nonce passes checks 2 and 3 (R195). -/
theorem authentic_signed (s : State) (r : Sector) (h : recNonce r = s.win.nonce) : s.authentic (signed r) := by
  exact ⟨(nonce_coded _ r).trans h, by rw [signed, auth_coded, covered_coded]⟩

/-- RESUME with the code of the same record but for its slot byte, or its nonce (R197). -/
def resumeRecord : Sector := record 18 0 []
def otherSlot : Sector := coded (Config.authCode (recCovered resumeRecord)) (record 18 1 [])
def otherNonce : Sector := coded (Config.authCode (recCovered resumeRecord)) (record 18 0 [(8, 8, 513)])

theorem slot_changed : ChangedIn (· = 5) (recCovered resumeRecord) (recCovered otherSlot) := by
  rw [otherSlot, covered_coded]; exact ⟨by decide +kernel, by decide +kernel⟩

theorem nonce_changed : ChangedIn (listedByte · = true) (recCovered resumeRecord) (recCovered otherNonce) := by
  rw [otherNonce, covered_coded]; exact ⟨by decide +kernel, by decide +kernel⟩

/-- R195, R197: the record with another slot than its code covers is answered AUTH_FAIL. -/
theorem test_authorise_otherSlot (next : Sector → State → State) (s : State) (h : s.win.nonce = 0#64) :
    authorise { code := 18, authorised := true } next otherSlot s =
      finishControl .authFail .none (violate .authFail [] s) := by
  have hn : recNonce otherSlot = s.win.nonce := by rw [otherSlot, nonce_coded, h]; decide +kernel
  have hc : recAuth otherSlot ≠ Config.authCode (recCovered otherSlot) := by
    rw [otherSlot, auth_coded]; exact Config.authCode_byteChanged 5 slot_changed
  rw [authorise, if_pos rfl, if_neg (not_not_intro hn), if_pos hc]

/-- The part as a command is first in its queue. -/
def queued (c : Instr) (s : State) : State := { s with pending := [c] }

/-- A state in LOCKDOWN (R183). -/
def locked (s : State) : State := { s with mon := { s.mon with state := .lockdown, alarmed := 1#10 } }

/-- A record that needs no authorisation passes checks 1 to 5 (R195). -/
theorem passes_plain (s : State) (row : ControlRow) (r : Sector) (hr : s.inReset = false) (hc : recCode r = row.code)
    (ha : row.authorised = false) (hm : s.mon.state ≠ .lockdown) (hp : s.phase = .ready) :
    (inHand s r).Passes row (some (q 0)) r :=
  ⟨⟨hr, rfl, hc⟩, fun h => absurd (ha.symm.trans h) (by decide), fun _ => hm, fun _ => hp⟩

/-- A signed record with the current nonce passes them too. -/
theorem passes_signed (s : State) (row : ControlRow) (r : Sector) (hr : s.inReset = false) (hc : recCode r = row.code)
    (hn : recNonce r = s.win.nonce) (hm : s.mon.state ≠ .lockdown) (hp : s.phase = .ready) :
    (inHand s (signed r)).Passes row (some (q 0)) (signed r) :=
  ⟨⟨hr, rfl, (field_signed r 4 1 (by decide)).trans hc⟩, fun _ => authentic_signed _ r hn, fun _ => hm, fun _ => hp⟩

/-! ### The checks of WellFormed -/

theorem test_wellFormed_read_zero : (Instr.hostRead (q 0) 0 0).WellFormed = false := by decide
theorem test_wellFormed_read_long : (Instr.hostRead (q 0) 0 65537).WellFormed = false := by decide
theorem test_wellFormed_read_longest : (Instr.hostRead (q 0) 0 65536).WellFormed = true := by decide
theorem test_wellFormed_write_zero : (Instr.hostWrite (q 0) 0 0).WellFormed = false := by decide
theorem test_wellFormed_write_long : (Instr.hostWrite (q 0) 0 65537).WellFormed = false := by decide
theorem test_wellFormed_ranges :
    (Instr.deallocateRangeSector (List.replicate 65 { lba := 0, len := 1 })).WellFormed = false ∧
    (Instr.deallocateRangeSector (List.replicate 64 { lba := 0, len := 1 })).WellFormed = true := by decide
theorem test_wellFormed_pass :
    (Instr.pass .immediate 0 (.toHost 0)).WellFormed = false ∧ (Instr.pass .immediate 0 (.toDrive 0)).WellFormed = false ∧
    (Instr.pass .immediate 0 (.toDrive 1)).WellFormed = true ∧ (Instr.pass .immediate 0 .none).WellFormed = true := by
  decide
theorem test_wellFormed_received :
    (Instr.unitReceived []).WellFormed = false ∧ (Instr.unitReceived (List.replicate 9 0#4096)).WellFormed = false ∧
    (Instr.unitReceived (List.replicate 8 0#4096)).WellFormed = true := by decide
theorem test_wellFormed_taken :
    (Instr.unitTaken []).WellFormed = false ∧ (Instr.unitTaken (List.replicate 9 0#4096)).WellFormed = false ∧
    (Instr.unitTaken [0#4096]).WellFormed = true := by decide

/-- The table gives no row any bits, so no word spells a command. -/
theorem test_decode_none : decodeTableWord 8 1 = none ∧ State.reset.withFetchWord 8 1 = State.reset := ⟨rfl, rfl⟩

/-! ### Witnesses: the queue, and what every step keeps -/

theorem witness_StepRunsTheFront :
    (queued .tick up).pending = .tick :: [] ∧ State.reset.pending = [] := ⟨rfl, rfl⟩

theorem witness_EveryCommandAnswers :
    (Instr.hostWrite (q 27) 0 65536).WellFormed = true ∧ (Instr.hostWrite (q 27) 0 0).WellFormed = false := by decide

theorem witness_ClockNeverFalls :
    (let s : State := queued .tick { up with clock := some 4294967295 }
     s.ClockOk ∧ (∃ t, step s = .next t) ∧ s.clock = some 4294967295) ∧
    (let s : State := queued .hardReset { up with clock := some 4294967295 }
     s.ClockOk ∧ (∃ t, step s = .next t) ∧ s.pending.head? = some .hardReset) :=
  ⟨⟨fun c h => by injection h with h; subst h; decide, ⟨_, rfl⟩, rfl⟩,
   fun c h => by injection h with h; subst h; decide, ⟨_, rfl⟩, rfl⟩

theorem witness_MonitorKept :
    (queued (.hostRead (q 2) 2088960 1) up).MonOk ∧ ∃ t, step (queued (.hostRead (q 2) 2088960 1) up) = .next t :=
  ⟨⟨by decide, by decide, by decide, by decide, by decide, by decide⟩, _, rfl⟩

theorem witness_BlocksKept :
    let s := queued (.hostWrite (q 2) 80003 10) (withTitle title37)
    s.IdleOk ∧ s.NumbersOk ∧ s.FramesOk ∧ s.TableOk ∧ ∃ t, step s = .next t :=
  ⟨by unfold State.IdleOk; decide,
   ⟨fun i h => ⟨37, by revert i; decide, by decide, by decide⟩, by decide⟩,
   ⟨by decide, by decide, fun _ => Nat.zero_le 8⟩,
   ⟨by decide, fun n h => by simp [State.occupied, queued, withTitle, up] at h, by decide⟩, _, rfl⟩

theorem mapOk37 (t : TitleSlot) : (withTitle t).MapOk :=
  ⟨(by decide : [extent37].Pairwise fun a b => a.stop ≤ b.start),
   (by decide : ∀ e ∈ [extent37], 1 ≤ e.len ∧ e.stop ≤ up.windowUnit)⟩

theorem mapOk1030 (r : Ring) : (withRing r).MapOk :=
  ⟨(by decide : [extent1030].Pairwise fun a b => a.stop ≤ b.start),
   (by decide : ∀ e ∈ [extent1030], 1 ≤ e.len ∧ e.stop ≤ up.windowUnit)⟩

/-- The sealed fields of an opened title's record: two runs side by side. -/
def opened : TitleFields :=
  { state := .sealed, cls := .once, expiry := some 4000, nextUnit := 30,
    extents := [{ start := 200, len := 20, first := 0 }, { start := 220, len := 10, first := 20 }], key := some ⟨8⟩,
    lastChanger := 0 }

theorem witness_MapKept :
    (let s := queued .tick (withTitle title37)
     s.MapOk ∧ (∀ l, s.pending.head? ≠ some (.jobEnd l)) ∧ ∃ t, step s = .next t) ∧
    (withTitle title37).MapOk ∧ (∀ e ∈ opened.extents, 1 ≤ e.len) ∧
    opened.extents.Pairwise fun a b => sharesUnit a.start a.len b.start b.len = false :=
  ⟨⟨⟨by decide, by decide⟩, (by decide : ∀ l : Fin 2, _), ⟨_, rfl⟩⟩, mapOk37 _, by decide, by decide⟩

theorem step_front (c : Instr) (s : State) : step (queued c s) = exec c { s with pending := [] } := rfl

theorem witness_LockdownLeftByResume :
    (let s := queued .hardReset (locked up)
     s.mon.state = .lockdown ∧ ∃ t, step s = .next t ∧ t.mon.state ≠ .lockdown) ∧
    (let s := queued .resume (inHand (locked up) (signed (record 18 0 [])))
     s.mon.state = .lockdown ∧ s.authentic (signed (record 18 0 [])) ∧ ∃ t, step s = .next t) :=
  ⟨⟨rfl, _, rfl, by decide⟩, rfl, authentic_signed _ _ (by decide +kernel), _, rfl⟩

/-- A write of title 37 in the table. -/
def writer : Cmd :=
  { tag := q 2, kind := .write, lba := 80003, count := 10,
    pieces := [{ lba := 80003, count := 10, owned := some { slot := 3, title := 37, extStart := 10000, first := 0, gen := 1 } }] }

theorem witness_LockdownAdmitsNothingProtected :
    let s := queued (.windowDeadline) { locked (withTitle title37) with table := [writer] }
    s.mon.state = .lockdown ∧ ∃ t, step s = .next t ∧ ∃ c ∈ t.table, ∃ p ∈ c.pieces, p.isProtected = true :=
  ⟨rfl, _, rfl, writer, by decide, by decide⟩

theorem witness_NonceAndGenerator : ∃ t, step (queued .resetRelease State.reset) = .next t := ⟨_, rfl⟩

/-- A part that shows a value in every field: a record and its reply, a refusal, a stalled link, an alarm window, and a
ring with a retired key whose segments are all readable. -/
def showing (d : Details) : State :=
  let t : TitleSlot := { title1030 lastLap with retired := some { key := ⟨1⟩, gen := 1, refs := 1 } }
  { withRing lastLap with
    slots := up.slots.set 3 t
    drive := { link := .up, hold := some (.stall (q 1)) }
    mon := { state := .alarm, alarmed := 1#10, deadline := some { length := 2000, since := 0 }
             refusal := some { tag := q 2, lba := 2090000, count := 8, reason := .hidden, number := 1 } }
    win := { executing := some { tag := some (q 0), record := record 18 0 [], stage := .handed }, last := some (record 18 0 [])
             reply := some { request := 9, code := 18, slot := 0, result := .ok, nonce := 5#64, number := 1, details := d } } }

theorem witness_KeysHidden :
    (let s := showing (.ring 1 64 60)
     s.win.last = some (record 18 0 []) ∧ (s.win.reply.map (·.details)) = some (.ring 1 64 60) ∧
     s.mon.refusal.isSome = true ∧ s.drive.hold = some (.stall (q 1)) ∧ s.win.executing.isSome = true ∧
     s.cat.header = .valid 7 ∧ s.mon.deadline = some { length := 2000, since := 0 } ∧ 0 ≤ s.freeReads ∧
     (s.slot 3).retired.isSome = true ∧ (s.slot 3).ring = some lastLap ∧ lastLap.head = some 63 ∧
     (List.range' (63 + 1) (lastLap.m - (63 + 1)) ++ List.range' 0 (63 + 1)).head? = some 0 ∧
     (lastLap.seg 0).readable s.clock = true ∧ (lastLap.seg 0).firstWrite = some 5) ∧
    (up.win.last = none ∧ up.win.reply = none ∧ up.mon.refusal = none ∧ up.mon.deadline = none ∧ up.drive.hold = none ∧
      (up.slot 3).retired = none ∧ (up.slot 3).ring = none) ∧
    (withRing (newRing 64 0)).alert = false ∧ (locked up).alert = true := by decide +kernel

/-! ### Witnesses: resets, start-up, time and the monitor -/

theorem witness_ResetAndRelease :
    State.reset.inReset = true ∧ up.inReset = false ∧ Instr.tick.WellFormed = true ∧ Instr.tick ≠ .hardReset ∧
    Instr.tick ≠ .resetRelease := by decide

/-- A part with a waiting write, a frame request and a read at the drive. -/
def busy : State :=
  { withTitle { title37 with inFlight := 1 } with
    table := [writer, { tag := q 1, kind := .read, lba := 0, count := 8 }]
    buffer := { requests := [{ kind := .push, cls := .bulk, tag := q 1, unit := 0 }] }
    drive := { link := .up, outstanding := [{ who := .host (q 1), op := .read, lba := 0, count := 8 }],
               hold := some (.stall (q 1)) } }

/-- The part released from reset, its drive asked for its identity. -/
def starting : State := { inReset := false, host := { up := true }, drive := { link := .up, asking := true } }

/-- The part with the title's slot in DRAINING and its one piece in flight. -/
def draining (t : TitleSlot) : State :=
  { withTitle { t with phase := .draining, inFlight := 1 } with table := [writer] }

theorem witness_HostLinkResets :
    (busy.inReset = false ∧ busy.host.up = true ∧ busy.drive.asking = false ∧ (∀ i, (busy.slot i).phase ≠ .draining) ∧
      extent37 ∈ busy.map) ∧
    (starting.inReset = false ∧ starting.host.up = true ∧ starting.drive.asking = true) ∧
    (let s := draining { title37 with drain := some .closed, dirty := true, storeInFlight := true }
     (s.slot 3).phase = .draining ∧ (s.slot 3).inFlight = (ownedOn (s.table.flatMap (·.pieces)) 3).length ∧
     (s.slot 3).inFlight ≠ 0 ∧ (s.slot 3).storeInFlight = true) ∧
    (let t : TitleSlot := { title37 with drain := some .closed, dirty := true }
     (draining t).inReset = false ∧ (draining t).host.up = true ∧ t.storeInFlight = false ∧ t.kind = some .recording) ∧
    (let t : TitleSlot := { title37 with drain := some .deleted }
     ((draining t).slot 3).drain ≠ some .closed ∧ t.kind = some .recording) ∧
    (let t : TitleSlot := { title37 with drain := some .closed }
     ((draining t).slot 3).drain = some .closed ∧ t.dirty = false) ∧
    (title1030 lastLap).kind ≠ some .recording ∧
    (let s : State := { up with host := {} }
     s.inReset = false ∧ s.host.up = false ∧ s.phase ≠ .noDrive) ∧
    (let s : State := { up with phase := .noDrive, host := {}, drive := {} }
     s.inReset = false ∧ s.host.up = false ∧ s.phase = .noDrive) := by decide +kernel

theorem witness_IdentityAnswered :
    (starting.inReset = false ∧ starting.phase = .starting ∧ starting.identity = none ∧ starting.drive.asking = true ∧
      2097152 ≤ disk.capacity ∧ disk.queued = true ∧ 32 ≤ disk.depth ∧ starting.cat.queue = [] ∧
      starting.cat.flights = [] ∧ starting.cat.claims = []) ∧
    (∀ d, some { disk with capacity := 2097151 } = some d → d.capacity < 2097152 ∨ d.queued = false ∨ d.depth < 32) ∧
    (∀ d, some { disk with depth := 31 } = some d → d.capacity < 2097152 ∨ d.queued = false ∨ d.depth < 32) ∧
    (up.inReset = false ∧ (up.phase ≠ .starting ∨ up.identity ≠ none ∨ up.drive.asking = false)) ∧
    (let s : State := { starting with drive := { link := .up } }
     s.phase = .starting ∧ s.identity = none ∧ s.drive.asking = false) :=
  ⟨⟨rfl, rfl, rfl, rfl, by decide, rfl, by decide, rfl, rfl, rfl⟩,
   fun d h => by injection h with h; subst h; decide, fun d h => by injection h with h; subst h; decide,
   ⟨rfl, .inl (by decide)⟩, rfl, rfl, rfl⟩

/-- A HEADER_READ at the drive. -/
def readingHeader : State :=
  { starting with
    identity := some disk
    drive := { link := .up, outstanding := [{ who := .service 0, op := .serviceRead, lba := 2088960, count := 8 }] }
    cat := { claims := [{ index := 0, owner := .header }],
             flights := [{ tag := 0, op := { num := 0, kind := .headerRead, owner := .header }, issued := some 1 }] } }

theorem witness_StartUpLimitEnds :
    (starting.inReset = false ∧ starting.phase = .starting ∧ starting.identity = none) ∧
    (readingHeader.inReset = false ∧ readingHeader.phase = .starting ∧ readingHeader.identity ≠ none ∧
      readingHeader.headerFlight.isSome = true) ∧
    (up.inReset = false ∧ up.phase ≠ .starting) := by decide +kernel

theorem witness_TickExpires :
    (up.inReset = false ∧ up.clock = none) ∧
    (let s : State := { withTitle { title37 with expiry := some 50 } with clock := some 50 }
     s.inReset = false ∧ s.clock = some 50 ∧ (s.slot 3).expires s.clock = true ∧ (s.slot 2).expires s.clock = false ∧
     (s.slot 3).inFlight = 0 ∧ (s.slot 3).storeInFlight = false) ∧
    (let s : State := { withTitle { title37 with expiry := some 50, inFlight := 1 } with clock := some 49 }
     (s.slot 3).expires s.clock = false ∧ (s.slot 3).expires (some 50) = true ∧ (s.slot 3).inFlight ≠ 0) := by
  decide +kernel

/-- A monitor in ALARM for a HIDDEN_AREA violation. -/
def alarmed : Monitor := { state := .alarm, alarmed := 1#10, deadline := some { length := 2000, since := 0 } }

theorem witness_MonitorReacts :
    up.mon.reactions[Violation.controlMisuse.ix] = .count ∧
    (up.mon.reactions[Violation.writeSealed.ix] = .halt ∧ (3 : SlotIx) ∈ [(3 : SlotIx)] ∧
      ((withTitle title37).slot 3).phase ≠ .idle) ∧
    (up.mon.reactions[Violation.hiddenArea.ix] = .alarm ∧ up.mon.state = .normal) ∧
    (alarmed.reactions[Violation.authFail.ix] = .alarm ∧ alarmed.state = .alarm ∧
      alarmed.alarmed &&& Violation.authFail.bit = 0#10) ∧
    (alarmed.reactions[Violation.hiddenArea.ix] = .alarm ∧ alarmed.alarmed &&& Violation.hiddenArea.bit ≠ 0#10) ∧
    ((locked up).mon.reactions[Violation.authFail.ix] = .alarm ∧ (locked up).mon.state = .lockdown) ∧
    (let m : Monitor := { reactions := Vector.replicate 10 .fault }
     m.reactions[Violation.policy.ix] = .fault ∧ m.state ≠ .lockdown) ∧
    (let s : State := { up with mon := alarmed }
     s.inReset = false ∧ s.mon.state = .alarm) := by decide +kernel

/-! ### Witnesses: the drive link -/

/-- A read of unclaimed sectors, and its run. -/
def reader : Cmd :=
  { tag := q 1, kind := .read, lba := 5, count := 8, pieces := [{ lba := 5, count := 8 }], runs := [{ lba := 5, len := 8 }],
    nextRun := 1 }

def readerRun : DriveCmd := { who := .host (q 1), op := .read, lba := 5, count := 8 }

/-- The read at the drive. -/
def reading : State := { up with table := [reader], drive := { link := .up, outstanding := [readerRun] } }

/-- A LOAD of index 5 for slot 2, its command on service tag 1. -/
def loadFlight : Flight := { tag := 1, op := { num := 3, kind := .load 5, owner := .slot 2 }, issued := some 4 }

def loadRun : DriveCmd := { who := .service 1, op := .serviceRead, lba := 2089000, count := 8 }

/-- The part with slot 2 in LOADING and its command waiting. -/
def loading : State :=
  { inHand up (record 2 2 [(16, 2, 5)]) with
    slots := up.slots.set 2 { number := some 5, phase := .loading, kind := some .recording }
    cat := { header := .valid 7, flights := [loadFlight], claims := [{ index := 5, owner := .slot 2 }] }
    drive := { link := .up, outstanding := [loadRun] }
    win := { executing := some { tag := some (q 0), record := record 2 2 [(16, 2, 5)], stage := .load } } }

theorem witness_HeadIsIssued :
    (let s : State := { up with drive := { link := .up, queue := [readerRun], outstanding := [loadRun] } }
     s.inReset = false ∧ s.drive.link = .up ∧ s.drive.errorRead = false ∧ s.drive.hold = none ∧
     queuedWho readerRun.who = true ∧ ∀ o ∈ s.drive.outstanding, queuedWho o.who = true) ∧
    (let d : DriveCmd := { who := .host .immediate, op := .pass 0 }
     queuedWho d.who = false ∧ ({ up with drive := { link := .up, queue := [d] } } : State).drive.outstanding = []) ∧
    (let s : State := { loading with drive := { link := .up, queue := [loadRun] } }
     s.inReset = false ∧ s.drive.queue = [loadRun] ∧ s.drive.hold = none) ∧
    (let s : State := { up with drive := { link := .up, queue := [{ who := .host .immediate, op := .flush }],
                                           outstanding := [readerRun] } }
     s.canTake { who := .host .immediate, op := .flush } = false) := by decide +kernel

/-- The part with slot 2's record read and its job on lane 0. -/
def opening : State :=
  { loading with
    cat := { loading.cat with flights := [{ loadFlight with content := .whole (sealedRecord 7 5 1 opened) }] }
    drive := { link := .up }
    lanes := { lane0 := some { job := serviceJob 1 .decrypt (catalogueTweak 1 5), key := .root } } }

theorem witness_MapKept_jobEnd :
    let s := queued (.jobEnd 0) opening
    s.MapOk ∧ s.ReadsSound ∧ ∃ t, step s = .next t := by
  refine ⟨⟨by decide, by decide⟩, ?_, _, rfl⟩
  intro f hf i unit x hk hc hx
  have hf : f = { loadFlight with content := .whole (sealedRecord 7 5 1 opened) } := by
    simpa [queued, opening, loading] using hf
  subst hf
  cases hk
  cases hc
  have : (queued (.jobEnd 0) opening).classify 5 (sealedRecord 7 5 1 opened) = .title opened := by decide
  rw [this] at hx
  cases hx
  exact ⟨by decide, by decide⟩

/-- A FLUSH of the immediate slot at the drive. -/
def flushing : State :=
  { up with table := [{ tag := .immediate, kind := .flush }]
            drive := { link := .up, outstanding := [{ who := .host .immediate, op := .flush }] } }

theorem witness_DriveErrorsEnd :
    (reading.inReset = false ∧ reading.drive.link = .up ∧ reading.drive.errorRead = false ∧
      reading.cmd? (q 1) = some reader ∧ (reading.driveCmdOf (q 1)).isSome = true ∧ queuedWho (.host (q 1)) = true) ∧
    (flushing.inReset = false ∧ flushing.drive.link = .up ∧ flushing.drive.errorRead = false ∧
      flushing.cmd? .immediate = some { tag := .immediate, kind := .flush } ∧
      (flushing.driveCmdOf .immediate).isSome = true ∧ queuedWho (.host .immediate) = false) ∧
    (reading.driveCmdOf (q 4) = none) ∧
    (let s : State := { reading with drive := { reading.drive with
       errorRead := true, failing := some { tag := q 2, ending := .driveError none }, outstanding := [readerRun, loadRun] } }
     s.drive.errorRead = true ∧ s.cmd? (q 1) = some reader ∧ (s.driveCmdOf (q 1)).isSome = true) ∧
    (let s : State := { withTitle title37 with table := [writer], drive := { link := .up, errorRead := true } }
     s.drive.errorRead = true ∧ s.cmd? (q 2) = some writer ∧ s.driveCmdOf (q 2) = none) ∧
    reading.drive.errorRead = false := by decide +kernel

theorem witness_LimitsResetTheLink :
    (busy.inReset = false ∧ busy.drive.hold ≠ none ∧ busy.drive.errorRead = false) ∧
    (let s : State := { reading with drive := { reading.drive with errorRead := true } }
     s.inReset = false ∧ s.drive.errorRead = true ∧ s.drive.hold = none) := by decide +kernel

theorem witness_TimerResetsTheLink :
    (loading.inReset = false ∧ loading.drive.link = .up ∧ loading.flight? 1 = some loadFlight ∧
      loading.svcOutstanding 1 = true ∧ loadFlight.op.timeouts = 0) ∧
    (let f : Flight := { loadFlight with op := { loadFlight.op with timeouts := 1 } }
     let s : State := { loading with cat := { loading.cat with flights := [f] } }
     s.flight? 1 = some f ∧ s.flightOfOp f.op.num = some f ∧ f.op.timeouts ≠ 0 ∧ f.op.kind = .load 5 ∧
     f.op.owner = .slot 2 ∧ (s.slot 2).phase = .loading) ∧
    (let f : Flight := { tag := 2, op := { num := 8, kind := .store 37, owner := .slot 3, timeouts := 1 } }
     let s : State := { withTitle title37 with
       cat := { flights := [f] }, drive := { link := .up, outstanding := [{ who := .service 2, op := .forcedWrite }] } }
     s.flight? 2 = some f ∧ s.svcOutstanding 2 = true ∧ s.flightOfOp 8 = some f) ∧
    (up.inReset = false ∧ up.flight? 0 = none) ∧
    (let f : Flight := { tag := 0, op := { num := 0, kind := .headerRead, owner := .header, timeouts := 1 } }
     let s : State := { readingHeader with cat := { readingHeader.cat with flights := [f] } }
     s.flight? 0 = some f ∧ s.svcOutstanding 0 = true ∧ s.flightOfOp 0 = some f) := by decide +kernel

/-- The drive link in a reset, with the LOAD to be issued again. -/
def resetting : State := { loading with drive := { link := .resetting, reissue := [3] } }

/-- The drive link in a reset, with an operation in flight that begins again. -/
def restarting (k : SvcKind) (o : SvcOwner) : State :=
  { withTitle title37 with
    drive := { link := .resetting, restart := [3] }
    cat := { header := .valid 7, flights := [{ tag := 1, op := { num := 3, kind := k, owner := o } }],
             claims := [{ index := 37, owner := .slot 3, gen := some 4294967295 }] } }

theorem witness_LinkAnswersOrNot :
    (resetting.inReset = false ∧ resetting.drive.link = .resetting ∧ resetting.drive.reissue = [3] ∧
      resetting.flightOfOp 3 = some loadFlight ∧ loadFlight.op.kind = .load 5 ∧ loadFlight.op.owner = .slot 2 ∧
      (resetting.slot 2).phase = .loading) ∧
    ((restarting .headerRead .header).drive.link = .resetting ∧
      (restarting .headerRead .header).flightOfOp 3 = some { tag := 1, op := { num := 3, kind := .headerRead, owner := .header } }) ∧
    (let s := restarting (.store 37) (.slot 3)
     let f : Flight := { tag := 1, op := { num := 3, kind := .store 37, owner := .slot 3 } }
     s.inReset = false ∧ s.flightOfOp 3 = some f ∧ s.flight? f.tag = some f ∧ (s.claim? 37).isSome = true) ∧
    (let s := restarting (.erase 37) (.slot 3)
     let f : Flight := { tag := 1, op := { num := 3, kind := .erase 37, owner := .slot 3 } }
     s.flightOfOp 3 = some f ∧ s.flight? f.tag = some f) ∧
    (let s := restarting (.headerWrite 8) .header
     let f : Flight := { tag := 1, op := { num := 3, kind := .headerWrite 8, owner := .header } }
     s.flightOfOp 3 = some f ∧ s.flight? f.tag = some f) ∧
    (up.inReset = false ∧ up.drive.link ≠ .resetting ∧ up.flightOfOp 3 = none) := by decide +kernel

/-! ### Witnesses: admission -/

theorem takes (s : State) (h : (!s.inReset && s.host.up && decide (s.phase ≠ .starting) &&
    decide (s.host.rangeSector = none)) = true) : s.TakesHost := by
  simp only [Bool.and_eq_true, Bool.not_eq_true', decide_eq_true_eq] at h
  exact ⟨h.1.1.1, h.1.1.2, h.1.2, h.2⟩

theorem witness_ArrivalsTested :
    (arrivalOf (.flush (q 3)) = some (.flush (q 3)) ∧ starting.inReset = false ∧ starting.host.up = true ∧
      starting.phase = .starting) ∧
    (let s : State := { up with host := { up := true, rangeSector := some (q 3) } }
     s.inReset = false ∧ s.host.up = true ∧ s.host.rangeSector ≠ none) ∧
    (let s : State := { up with phase := .noDrive, host := {} }
     s.inReset = false ∧ s.host.up = false) ∧
    (up.TakesHost ∧ q 28 = .queued 28 ∧ (∀ d ∈ up.table, d.tag ≠ q 28)) ∧
    (reading.TakesHost ∧ q 1 = .queued 1 ∧ (∃ d ∈ reading.table, d.tag = q 1)) ∧
    (let s : State := { up with table := [{ tag := .immediate, kind := .flush }] }
     s.TakesHost ∧ q 27 = .queued 27 ∧ (∃ d ∈ s.table, d.tag = .immediate)) ∧
    (let s : State := { up with table := [{ reader with state := .failed }] }
     s.TakesHost ∧ (∃ d ∈ s.table, d.tag = q 1) ∧ s.cmd? (q 1) = none) ∧
    (let s : State := { up with host := { up := true, due := [{ tag := q 1, ending := .good }] } }
     s.TakesHost ∧ ∃ e ∈ s.host.due, e.tag = q 1 ∧ e.ending ≠ .refused) :=
  ⟨by decide, by decide, by decide, ⟨takes _ rfl, by decide, by decide⟩, ⟨takes _ rfl, by decide, by decide⟩,
   ⟨takes _ rfl, by decide, by decide⟩, ⟨takes _ rfl, by decide⟩, takes _ rfl, by decide⟩

/-- P − 16 is 2,088,944 and P is 2,088,960: ranges that end at, reach over and lie in the window. -/
theorem witness_WindowRangesSorted :
    up.TakesHost ∧ tagTest up (q 0) = none ∧ up.presented = 2088960 ∧
    up.presented < 2088960 + 1 ∧ (2088959 + 1 ≤ up.presented ∧ up.presented - 16 < 2088959 + 1) ∧
    up.presented - 16 ≤ 2088944 ∧ 2088943 < up.presented - 16 ∧ 2088944 = up.presented - 16 ∧
    2088943 + 1 ≤ up.presented - 16 := ⟨takes _ rfl, by decide⟩

/-- Three units of title 37 with unclaimed units between them. -/
def spread (t : TitleSlot) : State :=
  { withTitle t with
    map := [{ start := 10000, len := 1, slot := 3, first := 0 }, { start := 10002, len := 1, slot := 3, first := 1 },
            { start := 10004, len := 1, slot := 3, first := 2 }] }

/-- Sectors 79,999 and 120,000 lie just outside the extent of units 10,000 … 14,999. Over three units apart a range of
five pieces, and one of two of which the second fails. -/
theorem witness_UnclaimedSpaceFollowsPolicy :
    (withTitle title37).TakesHost ∧ tagTest (withTitle title37) (q 0) = none ∧ (withTitle title37).MapOk ∧
    (∀ e ∈ (withTitle title37).map, 8 * e.stop ≤ 79999 ∨ 79999 + 1 ≤ 8 * e.start) ∧
    (∀ e ∈ (withTitle title37).map, 8 * e.stop ≤ 120000 ∨ 120000 + 9 ≤ 8 * e.start) ∧
    120000 + 9 ≤ (withTitle title37).presented - 16 ∧ up.win.readPolicy = .pass ∧ up.win.writePolicy = .pass ∧
    (let s : State := { up with win := { readPolicy := .refuse, writePolicy := .refuse } }
     s.TakesHost ∧ s.win.readPolicy = .refuse ∧ s.win.writePolicy = .refuse) ∧
    (let s := spread { title37 with halted := true }
     s.TakesHost ∧ tagTest s (q 0) = none ∧ 4 < (cutPieces 5 s.map 80000 (80000 + 33)).length ∧
     (cutPieces 5 s.map 79999 (79999 + 2)).length ≤ 4 ∧
     ∃ a b, cutPieces 5 s.map 79999 (79999 + 2) = [a] ++ b :: [] ∧ testPiece false s a = .ok { piece := a } ∧
       testPiece false s b = .error { reason := .halted }) :=
  ⟨takes _ rfl, by decide, mapOk37 _, by decide, by decide, by decide, rfl, rfl, ⟨takes _ rfl, rfl, rfl⟩,
   takes _ rfl, by decide, by decide +kernel, by decide +kernel, _, _, rfl, rfl, rfl⟩

theorem witness_TitleTestsInOrder :
    (withTitle title37).TakesHost ∧ tagTest (withTitle title37) (q 0) = none ∧ (withTitle title37).MapOk ∧
    extent37 ∈ (withTitle title37).map ∧ (8 * extent37.start ≤ 80000 ∧ 80000 + 40000 ≤ 8 * extent37.stop) ∧
    80000 + 40000 ≤ (withTitle title37).presented - 16 ∧
    (locked (withTitle title37)).mon.state = .lockdown ∧
    ((withTitle { title37 with halted := true }).slot 3).halted = true ∧
    (((withTitle { title37 with phase := .draining }).slot 3).halted = false ∧
      ((withTitle { title37 with phase := .draining }).slot 3).phase ≠ .active) ∧
    ((withTitle { title37 with state := some .sealed }).slot 3).state ≠ some .recording ∧
    (((withTitle { title37 with expiry := some 9 }).slot 3).expiry ≠ none ∧ (withTitle title37).clock = none) ∧
    (let p : Piece := { lba := 80000, count := 8, owned := some { slot := 3, title := 0, extStart := 10000, first := 0 } }
     let s := withTitle title37
     (∃ o, p.owned = some o ∧ s.mon.state ≠ .lockdown ∧ (s.slot o.slot).halted = false ∧ (s.slot o.slot).phase = .active ∧
       (s.slot o.slot).state = some .recording ∧ (s.slot o.slot).ring = none ∧ (s.slot o.slot).expiry = none) ∧
     s.win.readPolicy = .pass ∧ ({ s with win := { readPolicy := .refuse } } : State).win.readPolicy = .refuse) :=
  ⟨takes _ rfl, by decide, mapOk37 _, by decide, by decide, by decide, by decide, by decide, by decide, by decide,
   by decide, ⟨_, rfl, by decide⟩, by decide⟩

/-- A property of the owner fields of a cut's pieces, checked piece by piece. -/
theorem owned_all (P : Owned → Prop) [DecidablePred P] (ps : List Piece)
    (h : (ps.all fun p => p.owned.all fun o => decide (P o)) = true) : ∀ p ∈ ps, ∀ o, p.owned = some o → P o := by
  intro p hp o ho
  have := List.all_eq_true.mp h p hp
  rw [ho] at this
  exact of_decide_eq_true this

/-- Sectors 80,003 … 80,012 in one extent; 79,999 … 80,008, an unclaimed and a protected piece. -/
theorem witness_TitleReadAdmitted :
    (let s := withTitle title37
     s.TakesHost ∧ tagTest s (q 0) = none ∧ s.MapOk ∧ extent37 ∈ s.map ∧ 8 * extent37.start ≤ 80003 ∧
     80003 + 10 ≤ 8 * extent37.stop ∧ 80003 + 10 ≤ s.presented - 16 ∧ s.mon.state ≠ .lockdown ∧
     (s.slot extent37.slot).halted = false ∧ (s.slot extent37.slot).phase = .active ∧
     (s.slot extent37.slot).kind = some .recording ∧ (s.slot extent37.slot).ring = none ∧
     (s.slot extent37.slot).expiry = none ∧
     (∃ o ∈ ({ s with table := [writer] } : State).table, o.kind = .write ∧
       ∃ r ∈ o.unitRanges, r.1 ≤ (80003 + 10 - 1) / 8 ∧ 80003 / 8 ≤ r.2)) ∧
    (let s := withTitle title37
     let ps := cutPieces 5 s.map 79999 (79999 + 10)
     ps.length = 2 ∧ (∀ p ∈ ps, p.owned = none → s.win.readPolicy = .pass) ∧
     ∀ p ∈ ps, ∀ o, p.owned = some o → s.mon.state ≠ .lockdown ∧ (s.slot o.slot).halted = false ∧
       (s.slot o.slot).phase = .active ∧ (s.slot o.slot).kind = some .recording ∧ (s.slot o.slot).ring = none ∧
       ((s.slot o.slot).expiry = none ∨ s.clock ≠ none)) :=
  ⟨⟨takes _ rfl, by decide, mapOk37 _, by decide⟩, by decide +kernel, fun _ _ _ => rfl,
   owned_all _ _ (by decide +kernel)⟩

/-- A write of part of one unit, of part of two, and of whole units. -/
theorem witness_TitleWriteAdmitted :
    let s := withTitle title37
    s.TakesHost ∧ tagTest s (q 0) = none ∧ s.MapOk ∧ extent37 ∈ s.map ∧
    (8 * extent37.start ≤ 80000 ∧ 119999 + 1 ≤ 8 * extent37.stop ∧ 119999 + 1 ≤ s.presented - 16) ∧
    s.mon.state ≠ .lockdown ∧ (s.slot extent37.slot).halted = false ∧ (s.slot extent37.slot).phase = .active ∧
    (s.slot extent37.slot).state = some .recording ∧ (s.slot extent37.slot).ring = none ∧
    (80000 / 8 = (80000 + 1 - 1) / 8 ∧ (80000 + 1) % 8 ≠ 0) ∧
    (80007 % 8 ≠ 0 ∧ 80007 / 8 ≠ (80007 + 2 - 1) / 8 ∧ (80007 + 2) % 8 ≠ 0) ∧
    (80000 % 8 = 0 ∧ (80000 + 40000) % 8 = 0) ∧
    (let ps := cutPieces 5 s.map 79999 (79999 + 10)
     ps.length = 2 ∧ (∀ p ∈ ps, p.owned = none → s.win.writePolicy = .pass) ∧
     ∀ p ∈ ps, ∀ o, p.owned = some o → s.mon.state ≠ .lockdown ∧ (s.slot o.slot).halted = false ∧
       (s.slot o.slot).phase = .active ∧ (s.slot o.slot).state = some .recording ∧ (s.slot o.slot).ring = none) :=
  ⟨takes _ rfl, by decide, mapOk37 _, by decide, by decide, by decide, by decide, by decide, by decide, by decide,
   by decide, by decide, by decide, by decide +kernel, fun _ _ _ => rfl,
   owned_all _ _ (by decide +kernel)⟩

/-- A ring in which segment 5 is the head on lap 3. -/
def midLap : Ring :=
  { newRing 64 0 with
    head := some 5, lapCounter := 3,
    segs := List.replicate 6 { lap := 3, firstWrite := some 40, stamp := 60 } ++ List.replicate 58 { lap := 2 } }

theorem ringOk_new : RingOk (newRing 64 0) := ⟨by decide, by decide, by decide, by decide, fun h k e => by cases e⟩

theorem ringOk_midLap : RingOk midLap := by
  refine ⟨by decide, fun h e => ?_, by decide, fun h e => ?_, fun h k e => ?_⟩ <;> injection e with e <;> subst e
  · decide
  · decide
  · revert k; decide

theorem ringOk_lastLap : RingOk lastLap := by
  refine ⟨by decide, fun h e => ?_, by decide, fun h e => ?_, fun h k e => ?_⟩ <;> injection e with e <;> subst e
  · decide
  · decide
  · revert k; decide

theorem witness_RingTestedInOrder :
    (RingOk (newRing 64 0) ∧ (newRing 64 0).head = none ∧ (newRing 64 0).lapCounter < 65535 ∧ 63 < (newRing 64 0).m) ∧
    (RingOk midLap ∧ midLap.head = some 5 ∧ (6 ≠ 5 ∧ 6 = (5 + 1) % midLap.m ∧ (midLap.seg 5).lap ≤ 65535) ∧
      (7 ≠ 5 ∧ 7 ≠ (5 + 1) % midLap.m)) ∧
    (let r : Ring := { midLap with head := some 63, segs := List.replicate 64 { lap := 3 } }
     r.head = some 63 ∧ 0 = (63 + 1) % r.m ∧ (r.seg 63).lap < 65535) ∧
    (RingOk lastLap ∧ lastLap.head = some 63 ∧ 0 = (63 + 1) % lastLap.m ∧ 65535 ≤ (lastLap.seg 63).lap) ∧
    (RingOk lastLap.emptied ∧ lastLap.emptied.head = none ∧ 65535 ≤ lastLap.emptied.lapCounter) :=
  ⟨⟨ringOk_new, by decide⟩, ⟨ringOk_midLap, by decide⟩, by decide, ⟨ringOk_lastLap, by decide⟩,
   ⟨by decide, by decide, by decide, by decide, fun h k e => by cases e⟩, by decide⟩

theorem witness_RingOrderKept :
    64 ≤ 64 ∧ RingOk ({ ring := midLap } : Trial).ring ∧ (∀ k ∈ [5, 6], k < midLap.m) ∧
    ∃ t', ringTest (some 50) false [5, 6] { ring := midLap } = .ok t' :=
  ⟨by decide, ringOk_midLap, by decide, _, rfl⟩

/-- The owner fields of a read of segments 5 and 6 of the ring, of which segment 5 is readable and segment 6 is not. -/
def ringOwned : Owned :=
  { slot := 3, title := 1030, extStart := 10000, first := 0, gen := 1, g := 1,
    laps := some [{ seg := 5, lap := 3, readable := true }, { seg := 6, lap := 2 }] }

theorem witness_RingWriteAdmitted :
    (let s := withRing midLap
     s.TakesHost ∧ tagTest s (q 0) = none ∧ s.MapOk ∧ extent1030 ∈ s.map ∧ 8 * extent1030.start ≤ 80040 ∧
     80040 + 16 ≤ 8 * extent1030.stop ∧ 80040 + 16 ≤ s.presented - 16 ∧ s.mon.state ≠ .lockdown ∧
     (s.slot 3).halted = false ∧ (s.slot 3).phase = .active ∧ (s.slot 3).state = some .recording ∧
     (s.slot 3).ring = some midLap) ∧
    (∃ t', ringTest none false (segsTouched 1 5 6) { ring := midLap } = .ok t' ∧ t'.rekeyed = false ∧
      t'.laps = [{ seg := 5, lap := 3 }, { seg := 6, lap := 3, started := true }]) ∧
    (80043 % 8 ≠ 0 ∧ 80043 / 8 ≠ (80043 + 12 - 1) / 8 ∧ (80043 + 12) % 8 ≠ 0 ∧
      (80043 / 8 - extent1030.start = 5 ∧ (80043 + 12 - 1) / 8 - extent1030.start = 6)) ∧
    (ringOwned.laps = some ([{ seg := 5, lap := 3, readable := true }] ++ { seg := 6, lap := 2 } :: []) ∧
      6 = (10006 - ringOwned.extStart) / ringOwned.g ∧
      ringOwned.tweak 10006 = { title := 1030, seq := 2, unit := 6 }) ∧
    (∃ t', ringTest none false (segsTouched 1 0 0) { ring := lastLap } = .ok t' ∧ t'.rekeyed = true) ∧
    ringTest none false (segsTouched 1 7 7) { ring := midLap } = .error .ringOrder ∧
    ringTest none true (segsTouched 1 0 0) { ring := lastLap } = .error .rekeyBusy ∧
    (writer.pieces.all (·.owned.isSome) = true ∧ ({ lba := 5, count := 8 } : Piece).owned = none) ∧
    (let t : TitleSlot := { title37 with phase := .draining, inFlight := 1, retired := some { key := ⟨1⟩, gen := 1, refs := 1 } }
     t.inFlight ≤ 1 ∧ t.storeInFlight = false ∧ t.phase = .draining) ∧
    1 < ({ title37 with phase := .draining, inFlight := 2 } : TitleSlot).inFlight ∧
    (title1030 lastLap).key = some ⟨1⟩ ∧ (title1030 lastLap).gen = some 1 :=
  ⟨⟨takes _ rfl, by decide, mapOk1030 _, by decide⟩, ⟨_, rfl, rfl, by decide⟩, by decide, by decide, ⟨_, rfl, rfl⟩, rfl, rfl,
   by decide, by decide, by decide, rfl, rfl⟩

/-- That read, of units 10,005 and 10,006. -/
def ringReader : Cmd :=
  { tag := q 1, kind := .read, lba := 80040, count := 16,
    pieces := [{ lba := 80040, count := 16, owned := some ringOwned }], runs := [{ lba := 80040, len := 8 }],
    nextRun := 1 }

theorem witness_RingReadAdmitted :
    (let s : State := { withRing midLap with clock := some 99 }
     s.TakesHost ∧ tagTest s (q 0) = none ∧ extent1030 ∈ s.map ∧ (s.slot 3).kind = some .ring ∧
     (s.slot 3).ring = some midLap ∧ (s.slot 3).phase = .active ∧ s.clock = some 99 ∧ 1 ≤ midLap.g) ∧
    (withRing midLap).MapOk ∧ ((midLap.seg 5).readable (some 99) = true ∧ (midLap.seg 5).readable (some 100) = false) ∧
    (midLap.seg 6).readable none = true ∧
    (let s : State := { up with table := [ringReader] }
     ringReader.kind = .read ∧ ringReader.received < ringReader.units ∧ ringReader.state = .active ∧
     s.buffer.requests = [] ∧ ringReader.zeroFilled (ringReader.firstUnit + ringReader.received) = false ∧
     s.cmd? (q 1) = some ringReader ∧ s.buffer.frames.length < 60) ∧
    (let c : Cmd := { ringReader with received := 1 }
     c.received < c.units ∧ c.zeroFilled (c.firstUnit + c.received) = true) ∧
    (∃ o laps, ringReader.ownedOf 10006 = some o ∧ o.laps = some laps) ∧
    (up.mon.reactions[(6 : Fin 10)] ≠ .halt ∧
      ({ reactions := Vector.replicate 10 .halt } : Monitor).reactions[(6 : Fin 10)] = .halt) :=
  ⟨⟨takes _ rfl, by decide⟩, mapOk1030 _, by decide, by decide, by decide +kernel, by decide +kernel,
   ⟨ringOwned, _, by decide +kernel, rfl⟩, by decide⟩

/-- A FLUSH that waits for these commands and stores. -/
def flushWaiting (ts : List HostTag) (ns : List Nat) : State :=
  { up with table := [{ tag := q 4, kind := .flush, state := .waitOverlap, waitFor := ts, waitStores := ns }] }

theorem tableOk_flushWaiting (ts : List HostTag) (ns : List Nat) : (flushWaiting ts ns).TableOk :=
  ⟨(by decide : [q 4].Nodup), (by decide : ∀ n, HostTag.queued n ∈ [q 4] → n.val ≤ 27),
   (by decide : HostTag.immediate ∈ [q 4] → [q 4] = [.immediate])⟩

theorem witness_OtherKindsSorted :
    (up.TakesHost ∧ tagTest up (q 27) = none ∧ queuedWho (.host (q 27)) = true) ∧
    (tagTest up .immediate = none ∧ up.flushWaits = [] ∧ up.storesPending = [] ∧ passOk (.toHost 1) = true ∧
      up.buffer.frames = [] ∧ up.buffer.requests = []) ∧
    (∃ d, up.identity = some d) ∧
    (let s : State := { up with table := [writer] }
     s.TakesHost ∧ tagTest s (q 27) = none ∧ s.flushWaits ≠ []) ∧
    (let k : Cmd := { tag := q 4, kind := .flush, state := .waitOverlap, waitStores := [7] }
     (flushWaiting [] [7]).TableOk ∧ k ∈ (flushWaiting [] [7]).table ∧ k.waitFor = [] ∧ ∀ m ∈ k.waitStores, m = 7) ∧
    (let k : Cmd := { tag := q 4, kind := .flush, state := .waitOverlap, waitFor := [q 2], waitStores := [7] }
     (flushWaiting [q 2] [7]).TableOk ∧ k ∈ (flushWaiting [q 2] [7]).table ∧ k.waitFor ≠ []) :=
  ⟨⟨takes _ rfl, by decide⟩, by decide, ⟨_, rfl⟩, ⟨takes _ rfl, by decide⟩, ⟨tableOk_flushWaiting _ _, by decide⟩,
   tableOk_flushWaiting _ _, by decide⟩

theorem witness_RangeSectorTested :
    let s : State := { withTitle title37 with host := { up := true, rangeSector := some (q 3) } }
    (s.inReset = false ∧ s.host.rangeSector = some (q 3) ∧ s.host.xfer = none ∧ s.host.up = true) ∧
    (let h : HostPort := { s.host with xfer := some { frame := 4, tag := q 1, send := true } }
     h.rangeSector = some (q 3) ∧ ∃ x, h.xfer = some x ∧ x.done = false) ∧
    ([{ lba := 0, len := 0 }] : List Range).filter (fun r => decide (r.len ≠ 0)) = [] ∧
    s.presented < 2088960 + 1 ∧ (2088944 + 1 ≤ s.presented ∧ s.presented - 16 < 2088944 + 1) ∧
    ((∀ y ∈ ([{ lba := 119999, len := 1 }] : List Range), y.lba + y.len ≤ s.presented - 16) ∧
      firstTouched s.map [{ lba := 119999, len := 1 }] = some ({ lba := 119999, len := 1 }, extent37)) ∧
    firstTouched s.map [{ lba := 120000, len := 8 }] = none ∧ s.win.deallocatePolicy = .pass ∧
    (∀ d ∈ s.table, d.tag ≠ q 3) ∧ (up.inReset = false ∧ up.host.rangeSector = none) :=
  ⟨by decide, ⟨rfl, _, rfl, rfl⟩, by decide⟩

/-! ### Witnesses: frames, the host link and the movement of data -/

/-- A read of two units of title 37, its run at the drive. -/
def titleReader : Cmd :=
  { tag := q 1, kind := .read, lba := 80003, count := 10,
    pieces := [{ lba := 80003, count := 10, owned := some { slot := 3, title := 37, extStart := 10000, first := 0, gen := 1 } }],
    runs := [{ lba := 80000, len := 16 }], nextRun := 1 }

def titleRun : DriveCmd := { who := .host (q 1), op := .read, lba := 80000, count := 16 }

def titleReading : State :=
  { withTitle { title37 with inFlight := 1 } with
    table := [titleReader], drive := { link := .up, outstanding := [titleRun] } }

/-- A shared frame of a command. -/
def frame (t u : Nat) (d : Direction) (c : Machine.Class) (k : Condition) : Frame :=
  { num := 4, holder := q t, unit := u, dir := d, cls := c, cond := k, data := UnitData.zero }

/-- The read with a request of each tier waiting. -/
def asking (n : Nat) : State :=
  { titleReading with
    table := [titleReader, reader, writer]
    buffer := { frames := (List.range' 4 n).map fun i => { frame 30 i .toHost .bulk .ready with num := i }
                requests := [{ kind := .intake, cls := .bulk, tag := q 2, unit := 0 },
                             { kind := .intake, cls := .record, tag := q 2, unit := 10000 },
                             { kind := .push, cls := .play, tag := q 1, unit := 10000 }] } }

/-- With 60 frames in use nothing is grantable; with none the PUSH goes first, over two older requests. -/
theorem witness_FramesGranted :
    (reading.cmd? (q 1) = some reader ∧ reading.buffer.frames.length < 60) ∧ up.buffer.requests = [] ∧
    ((asking 60).buffer.requests ≠ [] ∧ ∀ r ∈ (asking 60).buffer.requests, grantable r (asking 60) = false) ∧
    (∀ r ∈ (asking 0).buffer.requests, ((asking 0).cmd? r.tag).isSome = true) ∧
    ((asking 0).buffer.requests.filter fun r => grantable r (asking 0)) =
      [{ kind := .intake, cls := .bulk, tag := q 2, unit := 0 },
       { kind := .intake, cls := .record, tag := q 2, unit := 10000 }] ++
        { kind := .push, cls := .play, tag := q 1, unit := 10000 } :: [] := by decide +kernel

/-- A write of one whole unit of title 37, its run at the drive. -/
def titleWriter : Cmd :=
  { tag := q 2, kind := .write, lba := 80000, count := 8,
    pieces := [{ lba := 80000, count := 8, owned := some { slot := 3, title := 37, extStart := 10000, first := 0, gen := 1 } }],
    runs := [{ lba := 80000, len := 8 }], nextRun := 1, granted := 1 }

def titleWriting (c : Condition) : State :=
  { withTitle { title37 with inFlight := 1 } with
    table := [titleWriter], buffer := { frames := [frame 2 10000 .toDrive .record c] }
    drive := { link := .up, outstanding := [{ who := .host (q 2), op := .write, lba := 80000, count := 8 }] } }

theorem witness_DriveTransfersStart :
    (titleReading.inReset = false ∧ titleReading.drive.link = .up ∧ titleReading.drive.errorRead = false ∧
      titleReading.drive.hold = none ∧ titleReading.drive.xfer = none ∧ titleReading.cmd? (q 1) = some titleReader ∧
      titleReading.driveCmdOf (q 1) = some titleRun ∧ pushes titleRun titleReader = true ∧
      titleRun.moved < titleRun.count) ∧
    (titleReading.frameOf (q 1) 10000 = none ∧
      grantable { kind := .push, cls := .play, tag := q 1, unit := 10000 } titleReading = true) ∧
    (let s : State := { titleReading with
       buffer := { requests := [{ kind := .fill, cls := .play, tag := q 1, unit := 9999 }] } }
     s.frameOf (q 1) 10000 = none ∧
     grantable { kind := .push, cls := .play, tag := q 1, unit := 10000 } s = false) ∧
    (let s : State := { titleReading with buffer := { frames := [frame 1 10000 .toHost .play .filling] } }
     s.frameOf (q 1) 10000 = some (frame 1 10000 .toHost .play .filling)) ∧
    (let s := titleWriting .ready
     s.cmd? (q 2) = some titleWriter ∧ pulls { who := .host (q 2), op := .write } titleWriter = true ∧
     s.frameOf (q 2) 10000 = some (frame 2 10000 .toDrive .record .ready) ∧
     (frame 2 10000 .toDrive .record .ready).readyForDrive titleWriter s = true) ∧
    (frame 2 10000 .toDrive .record .inJob).readyForDrive titleWriter (titleWriting .inJob) = false := by decide +kernel

/-- The second unit of the read on the drive link. -/
def pushing (count : Nat) : State :=
  { titleReading with
    buffer := { frames := [frame 1 10000 .toHost .play .filling] }
    drive := { link := .up, outstanding := [titleRun],
               xfer := some { push := true, tag := q 1, frame := 4, lba := 80000, count := count } } }

theorem witness_PushedUnitReceived :
    (let s := pushing 8
     s.inReset = false ∧ s.drive.xfer.isSome = true ∧ s.cmd? (q 1) = some titleReader ∧
     s.frame? 4 = some (frame 1 10000 .toHost .play .filling) ∧ titleReader.sends = true ∧
     titleReader.state ≠ .mergeRead ∧ titleReader.need 10000 ≤ 80000 % 8 + 8 - titleReader.stageLo 10000 ∧
     (titleReader.ownedOf 10000).isSome = true) ∧
    80000 % 8 + 3 - titleReader.stageLo 10000 < titleReader.need 10000 ∧
    (let c : Cmd := { titleWriter with state := .mergeRead }
     c.state = .mergeRead ∧ c.need 10000 ≤ 80000 % 8 + 8 - c.stageLo 10000) ∧
    (reader.need 0 ≤ 5 % 8 + 3 - reader.stageLo 0 ∧ (frame 1 0 .toHost .bulk .passing).cls = .bulk) := by decide +kernel

theorem witness_RunsEnd :
    (let c : Cmd := { reader with runs := [{ lba := 5, len := 8 }, { lba := 13, len := 8 }] }
     let d : DriveCmd := { readerRun with moved := 8 }
     let s : State := { reading with table := [c], drive := { link := .up, outstanding := [d] } }
     s.inReset = false ∧ s.drive.errorRead = false ∧ s.cmd? (q 1) = some c ∧ s.driveCmdOf (q 1) = some d ∧
     d.moved = d.count ∧ c.runs[c.nextRun]? = some { lba := 13, len := 8 } ∧ d.op = .read) ∧
    (let c : Cmd := { reader with delivered := 2 }
     c.runs.length ≤ c.nextRun ∧ c.units ≤ c.delivered ∧ reader.delivered < reader.units) ∧
    (let d : DriveCmd := { who := .host (q 2), op := .write, lba := 80000, count := 8, moved := 8 }
     let s : State := { titleWriting .ready with drive := { link := .up, outstanding := [d] } }
     s.cmd? (q 2) = some titleWriter ∧ s.driveCmdOf (q 2) = some d ∧ d.moved = d.count ∧
     titleWriter.runs.length ≤ titleWriter.nextRun) := by decide +kernel

/-- An entry of a merge list. -/
def mergeEntry (u lo hi : Nat) (st : MergeState) : MergeEntry :=
  { unit := u, lo := lo, hi := hi, base := .read, tweak := { title := 37, seq := 0, unit := u - 10000 }, gen := 1, state := st }

/-- A write of part of units 10,000 and 10,001 in MERGE_READ. -/
def merger (a b : MergeState) : Cmd :=
  { writer with state := .mergeRead, merges := [mergeEntry 10000 3 7 a, mergeEntry 10001 0 4 b] }

def merging (a b : MergeState) : State :=
  { withTitle { title37 with inFlight := 1 } with
    table := [merger a b], buffer := { frames := [frame 2 10000 .toDrive .record .inJob] }
    drive := { link := .up, outstanding := [{ who := .host (q 2), op := .mergeRead, lba := 80000, count := 8, moved := 8 }] } }

theorem witness_MergeReadsFollow :
    (let s := merging .reading .pending
     s.inReset = false ∧ s.cmd? (q 2) = some (merger .reading .pending) ∧
     (merger .reading .pending).reading = some (mergeEntry 10000 3 7 .reading) ∧
     s.frameOf (q 2) 10000 = some (frame 2 10000 .toDrive .record .inJob) ∧
     ((merger .reading .pending).ownedOf 10000).isSome = true ∧
     (∀ m' ∈ (merger .reading .pending).merges, m'.unit ≠ 10000 → m' = mergeEntry 10001 0 4 .pending)) ∧
    ∀ m ∈ (merger .reading .held).merges, m.unit ≠ 10000 → m.state ≠ .pending := by decide +kernel

theorem witness_StatusCompletes :
    (let d : DriveCmd := { who := .host (q 1), op := .flush }
     let s : State := { up with table := [{ tag := q 1, kind := .flush }], drive := { link := .up, outstanding := [d] } }
     s.inReset = false ∧ s.drive.errorRead = false ∧ s.cmd? (q 1) = some { tag := q 1, kind := .flush } ∧
     s.driveCmdOf (q 1) = some d ∧ d.op = .flush) ∧
    (let d : DriveCmd := { who := .host (q 1), op := .deallocate [{ lba := 0, len := 1 }] }
     d.op = .deallocate [{ lba := 0, len := 1 }]) ∧
    (let c : Cmd := { tag := .immediate, kind := .pass, data := .toHost 1, count := 1 }
     let d : DriveCmd := { who := .host .immediate, op := .pass 5, count := 1, moved := 1 }
     let s : State := { up with table := [c], drive := { link := .up, outstanding := [d] } }
     s.cmd? .immediate = some c ∧ s.driveCmdOf .immediate = some d ∧ d.op = .pass 5 ∧ d.moved = d.count ∧
     c.sends = true ∧ c.delivered < c.units) ∧
    ({ tag := .immediate, kind := .pass } : Cmd).sends = false := by decide +kernel

/-- The unit of a write on the drive link. -/
def pulling (count : Nat) : State :=
  { titleWriting .ready with drive := { (titleWriting .ready).drive with
      xfer := some { push := false, tag := q 2, frame := 4, lba := 80000, count := count } } }

/-- The last unit of a read on the host link. -/
def sending (delivered : Nat) (st : CmdState) : State :=
  { titleReading with
    table := [{ titleReader with received := 2, delivered := delivered, state := st }]
    buffer := { frames := [frame 1 (10000 + delivered) .toHost .play .ready] }
    host := { up := true, xfer := some { frame := 4, tag := q 1, send := true } } }

/-- A WINDOW_READ of the command and the reply sector on the host link, its first sector produced before as all ones; a
reply stands since then. -/
def serving : State :=
  { up with
    table := [{ tag := q 9, kind := .windowRead, lba := 2088944, count := 2, received := 1 }]
    buffer := { frames := [{ frame 9 261118 .toHost .bulk .ready with
      data := placeSectors UnitData.zero 0 [BitVec.allOnes 4096] }] }
    win := { up.win with
      reply := some { request := 5, code := 6, slot := 3, result := .ok, nonce := 0, number := 1, details := .none } }
    host := { up := true, xfer := some { frame := 4, tag := q 9, send := true, made := 1 } } }

theorem witness_UnitsLeave :
    (let s := pulling 8
     s.inReset = false ∧ s.cmd? (q 2) = some titleWriter ∧
     s.frame? 4 = some (frame 2 10000 .toDrive .record .ready) ∧
     (frame 2 10000 .toDrive .record .ready).arrived titleWriter = true ∧
     titleWriter.need 10000 ≤ 80000 % 8 + 8 - titleWriter.stageLo 10000 ∧ titleWriter.kind = .write ∧
     s.buffer.requests = [] ∧ titleWriter.units ≤ titleWriter.granted) ∧
    ¬ titleWriter.need 10000 ≤ 80000 % 8 + 7 - titleWriter.stageLo 10000 ∧
    (let s := sending 1 .ending
     let c : Cmd := { titleReader with received := 2, delivered := 1, state := .ending }
     s.inReset = false ∧ s.cmd? (q 1) = some c ∧ s.frame? 4 = some (frame 1 10001 .toHost .play .ready) ∧
     (frame 1 10001 .toHost .play .ready).sendable c = true ∧ c.units ≤ c.delivered + 1 ∧ s.buffer.requests = [] ∧
     c.sends = true ∧ c.units ≤ c.received) ∧
    (let c : Cmd := { titleReader with received := 2 }
     (sending 0 .active).cmd? (q 1) = some c ∧ c.delivered + 1 < c.units) ∧
    (let c : Cmd := { tag := q 9, kind := .windowRead, lba := 2088944, count := 2, received := 1 }
     serving.host.up = true ∧ serving.cmd? (q 9) = some c ∧ c.hostLo 261118 = 0 ∧ c.hostHi 261118 = 1 ∧
     (serving.frame? 4).map (fun f => f.sendable c) = some true) := by decide +kernel

/-- A CONTROL_WRITE whose sector is on the host link. -/
def controlTaking : State :=
  { up with
    table := [{ tag := q 0, kind := .controlWrite, lba := 2088944, count := 1, granted := 1 }]
    buffer := { frames := [frame 0 261118 .toDrive .bulk .passing] }
    host := { up := true, xfer := some { frame := 4, tag := q 0, send := false } } }

/-- The unit of a write on the host link. -/
def taking : State :=
  { titleWriting .filling with host := { up := true, xfer := some { frame := 4, tag := q 2, send := false } } }

theorem witness_IntakeUnitTaken :
    (let c : Cmd := { tag := q 0, kind := .controlWrite, lba := 2088944, count := 1, granted := 1 }
     controlTaking.inReset = false ∧ controlTaking.cmd? (q 0) = some c ∧ c.kind = .controlWrite ∧
     controlTaking.frame? 4 = some (frame 0 261118 .toDrive .bulk .passing) ∧ 1 = c.hostHi 261118 + 1 - c.hostLo 261118 ∧
     controlTaking.buffer.requests = []) ∧
    (taking.inReset = false ∧ taking.cmd? (q 2) = some titleWriter ∧ titleWriter.kind ≠ .controlWrite ∧
     taking.frame? 4 = some (frame 2 10000 .toDrive .record .filling) ∧
     8 = titleWriter.hostHi 10000 + 1 - titleWriter.hostLo 10000 ∧ (titleWriter.ownedOf 10000).isSome = true) := by
  decide +kernel

/-- A read in ENDING whose completion is due, and behind it a write of part of a unit, one of a whole unit, a read and a
flush that wait for it, and a read that waits for another command too. -/
def releasing : State :=
  { up with
    host := { up := true, due := [{ tag := q 1, ending := .good }] }
    table := [{ titleReader with state := .ending },
      { writer with state := .waitOverlap, waitFor := [q 1], merges := [
          { unit := 10000, lo := 3, hi := 7, base := .read, tweak := default, gen := 1, state := .pending }] },
      { titleWriter with tag := q 5, state := .waitOverlap, waitFor := [q 1] },
      { titleReader with tag := q 6, state := .waitOverlap, waitFor := [q 1] },
      { tag := q 7, kind := .flush, state := .waitOverlap, waitFor := [q 1] },
      { titleReader with tag := q 8, state := .waitOverlap, waitFor := [q 1, q 2] }] }

theorem tableOk_releasing : releasing.TableOk :=
  ⟨(by decide : [q 1, q 2, q 5, q 6, q 7, q 8].Nodup),
   (by decide : ∀ n, HostTag.queued n ∈ [q 1, q 2, q 5, q 6, q 7, q 8] → n.val ≤ 27),
   (by decide : HostTag.immediate ∈ [q 1, q 2, q 5, q 6, q 7, q 8] → [q 1, q 2, q 5, q 6, q 7, q 8] = [.immediate])⟩

/-- A read of a title that has failed, its completion due. -/
def failing : State :=
  { up with
    host := { up := true, due := [{ tag := q 1, ending := .deviceError }] }
    table := [{ titleReader with state := .failed }] }

theorem tableOk_failing : failing.TableOk :=
  ⟨(by decide : [q 1].Nodup), (by decide : ∀ n, HostTag.queued n ∈ [q 1] → n.val ≤ 27),
   (by decide : HostTag.immediate ∈ [q 1] → [q 1] = [.immediate])⟩

theorem witness_HostPortWorks :
    (releasing.host.up = true ∧ releasing.host.xfer = none ∧ releasing.win.executing = none ∧
     releasing.host.due = [{ tag := q 1, ending := .good }] ∧
     releasing.cmd? (q 1) = some { titleReader with state := .ending } ∧
     (∀ k ∈ releasing.table, k.tag = q 1 → k.state = .ending) ∧ releasing.TableOk) ∧
    (releasing.table.all fun k => decide (k.state = .ending) || decide (k.state = .waitOverlap)) = true ∧
    (releasing.table.filter fun k => decide (∀ w ∈ k.waitFor, w = q 1)).map (·.tag) = [q 1, q 2, q 5, q 6, q 7] ∧
    (let c : Cmd := { titleReader with state := .failed }
     failing.host.up = true ∧ failing.host.xfer = none ∧ failing.win.executing = none ∧ failing.TableOk ∧
     failing.table = [c] ∧ c.tag = q 1 ∧ c.state = .failed ∧
     failing.host.due = [{ tag := q 1, ending := .deviceError }]) ∧
    (up.host.xfer = none ∧ up.host.due = [] ∧ up.oldestDue = none) ∧
    (let s : State := { sending 1 .ending with host := { up := true } }
     s.host.due = [] ∧ s.host.rangeSector = none ∧ s.oldestDue = some (frame 1 10001 .toHost .play .ready)) ∧
    (let c : Cmd := { tag := q 9, kind := .windowRead, lba := 2088944, count := 1, received := 1 }
     let s : State := { up with table := [c], buffer := { frames := [frame 9 261118 .toHost .bulk .ready] } }
     s.oldestDue = some (frame 9 261118 .toHost .bulk .ready) ∧ s.cmd? (q 9) = some c ∧ c.kind = .windowRead ∧
     s.frame? 4 = some (frame 9 261118 .toHost .bulk .ready) ∧ c.hostLo 261118 ≤ c.hostHi 261118) ∧
    (serving.serving.map (fun y => (y.1.made, y.2.1.tag, y.2.2.num)) = some (1, q 9, 4)) ∧
    (let s : State := { sending 1 .ending with host := { up := true, rangeSector := some (q 3) } }
     s.host.xfer = none ∧ s.host.due = [] ∧ s.host.rangeSector ≠ none) ∧
    ((sending 1 .ending).host.xfer = some { frame := 4, tag := q 1, send := true }) ∧ State.reset.host.up = false ∧
    (let s : State := { up with host := { up := true, xfer := some { frame := 4, tag := q 1, send := true, done := true } } }
     s.inReset = false ∧ s.host.xfer = some { frame := 4, tag := q 1, send := true, done := true }) :=
  ⟨⟨rfl, rfl, rfl, rfl, rfl, by decide +kernel, tableOk_releasing⟩, by decide +kernel, by decide +kernel,
   ⟨rfl, rfl, rfl, tableOk_failing, rfl, rfl, rfl, rfl⟩, by decide +kernel⟩

/-- A job of a command on lane 0. -/
def running (t : Nat) (d : JobDir) : Running :=
  { job := { frame := 4, dir := d, source := .slot 3 1, tweak := { title := 37, seq := 0, unit := 0 },
             owner := .host (q t), cls := .record },
    key := .slot ⟨1⟩ }

theorem witness_JobEnds :
    (let s : State := { titleWriting .inJob with lanes := { lane0 := some (running 2 .encrypt) } }
     s.inReset = false ∧ s.lanes.lane 0 = some (running 2 .encrypt) ∧ s.lanes.lane (otherLane 0) = none ∧
     s.cmd? (q 2) = some titleWriter ∧ s.frame? 4 = some (frame 2 10000 .toDrive .record .inJob) ∧
     titleWriter.state ≠ .mergeRead) ∧
    (let a := running 2 .encrypt
     let b : Running := { running 3 .decrypt with start := 1 }
     let s : State := { up with lanes := { lane0 := some b, lane1 := some a } }
     s.lanes.lane 0 = some b ∧ s.lanes.lane (otherLane 0) = some a ∧ a.start < b.start ∧
     s.lanes.lane 1 = some a ∧ s.lanes.lane (otherLane 1) = some b ∧ a.start ≤ b.start) ∧
    (let s : State := { merging .decrypting .held with lanes := { lane0 := some (running 2 .decrypt) } }
     s.cmd? (q 2) = some (merger .decrypting .held) ∧ (merger .decrypting .held).state = .mergeRead ∧
     ∀ m ∈ (merger .decrypting .held).merges, m.unit ≠ 10000 → m.base = .zero ∨ m.state = .held) ∧
    (let a := running 2 .decrypt
     let j : Job := (running 5 .decrypt).job
     let s : State := { up with lanes := { lane0 := some a, lane1 := some a, jobs := [j, { j with frame := 5 }], starts := 7 } }
     s.lanes.lane 0 = some a ∧ s.lanes.lane 1 = some a ∧ a.job.owner = .host (q 2) ∧
     (dropJobs (.host (q 2)) s).lanes.lane0.map (fun x => (x.job.frame, x.start)) = some (4, 7) ∧
     (dropJobs (.host (q 2)) s).lanes.lane1.map (fun x => (x.job.frame, x.start)) = some (5, 8)) ∧
    (∃ m ∈ (merger .decrypting .reading).merges, m.unit ≠ 10000 ∧ m.base = .read ∧ m.state ≠ .held) ∧
    (let f : Flight := { tag := 0, op := { num := 1, kind := .erase 5, owner := .sweep },
                         content := .formed (sealedRecord 7 5 1 emptyFields) }
     let r : Running := { job := serviceJob 0 .encrypt (catalogueTweak 1 5), key := .root }
     let s : State := { up with lanes := { lane1 := some r }, cat := { flights := [f] } }
     s.lanes.lane 1 = some r ∧ s.lanes.lane (otherLane 1) = none ∧ s.flight? 0 = some f) ∧
    (opening.lanes.lane 0 = some { job := serviceJob 1 .decrypt (catalogueTweak 1 5), key := .root } ∧
      opening.flight? 1 = some { loadFlight with content := .whole (sealedRecord 7 5 1 opened) } ∧
      opening.lanes.lane (otherLane 0) = none) ∧
    (let f : Flight := { tag := 0, op := { num := 0, kind := .headerRead, owner := .header },
                         content := .whole (sealedHeader 7 2097152) }
     let s : State := { readingHeader with cat := { readingHeader.cat with flights := [f] } }
     s.flight? 0 = some f) ∧
    up.lanes.lane 0 = none ∧ up.lanes.jobs = [] ∧
    (let j (c : Machine.Class) (b : Nat) : Job := { (running 2 .encrypt).job with cls := c, bypass := b }
     (8 ≤ (j .bulk 8).bypass ∧ ∀ i ∈ [j .record 7], i.bypass < 8) ∧
     (∀ i ∈ [j .service 7, j .play 0] ++ j .record 0 :: [j .record 1], i.bypass < 8)) ∧
    (((withTitle title37).slot 3).gen = some 1 ∧ ((withTitle title37).slot 3).key = some ⟨1⟩) ∧
    (let t : TitleSlot := { title37 with gen := some 2, retired := some { key := ⟨1⟩, gen := 1, refs := 3 } }
     t.gen ≠ some 1 ∧ t.retired = some { key := ⟨1⟩, gen := 1, refs := 3 }) := by decide +kernel

/-! ### Witnesses: the catalogue -/

theorem witness_RecordsClassified :
    (up.epoch = 7 ∧ ({ marker := true, epoch := 6, index := 5, gen := 1 } : TitleClear).epoch ≠ up.epoch) ∧
    (sealOpens 5 { marker := true, epoch := 7, index := 5, gen := 1 } default = false) ∧
    sealOpens 5 { marker := true, epoch := 7, index := 5, gen := 1 }
      { ours := true, tweak := catalogueTweak 1 5, fields := opened,
        check := { clear := { marker := true, epoch := 7, index := 5, gen := 1 }, fields := opened } } = true ∧
    opened.state ≠ .empty ∧ emptyFields.state = .empty ∧ catalogueTweak 2 5 ≠ catalogueTweak 1 5 ∧
    (up.driveCapacity = 2097152 ∧
      ({ marker := true, epoch := 7, capacity := 2097153 } : HeaderClear).capacity ≠ up.driveCapacity) := by decide

/-- A unit that bears no record. -/
def blank : DiskUnit := .title { marker := false, epoch := 0, index := 0, gen := 0 } default

/-- The part with slot 2 in LOADING and this record waiting for its load. -/
def waitingAtLoad (r : Sector) : State :=
  { loading with win := { executing := some { tag := some (q 0), record := r, stage := .load } } }

/-- A LOAD of an owner whose read has ended, with this command waiting. -/
def ended (o : SvcOwner) : Flight := { tag := 1, op := { num := 3, kind := .load 5, owner := o }, issued := some 4 }

theorem witness_ServiceReadEnds :
    (loading.inReset = false ∧ loading.drive.link = .up ∧ loading.drive.errorRead = false ∧
      loading.flight? 1 = some loadFlight ∧ loading.svcOutstanding 1 = true ∧ loadFlight.op.kind.reads = true ∧
      loading.flightOfOp 3 = some loadFlight ∧ loading.drive.hold = none ∧ loading.drive.xfer = none) ∧
    (let s : State := { loading with drive := { loading.drive with hold := some (.stall (q 1)) } }
     s.drive.hold ≠ none ∧ s.flight? 1 = some loadFlight ∧ s.svcOutstanding 1 = true) ∧
    loading.needsJob loadFlight.op.kind (sealedRecord 7 5 1 opened) = true ∧
    loading.needsJob loadFlight.op.kind blank = false ∧
    readingHeader.needsJob .headerRead (.header { marker := false, epoch := 0, capacity := 0 } default) = false ∧
    ((loading.slot 2).phase = .loading ∧ loading.waiting (some (q 0)) (record 2 2 [(16, 2, 5)]) .load ∧
      recCode (record 2 2 [(16, 2, 5)]) ≠ 1 ∧ recSlot (record 2 2 [(16, 2, 5)]) = (2 : SlotIx).val) ∧
    (expiryDue opened.expiry loading.clock = false ∧ expiryDue opened.expiry (some 4000) = true ∧
      loading.map.length + opened.extents.length ≤ 512 ∧ 512 < 512 + opened.extents.length) ∧
    (∀ e ∈ opened.extents, (∀ m ∈ loading.map, sharesUnit e.start e.len m.start m.len = false) ∧
      e.start + e.len ≤ loading.windowUnit) ∧
    (sharesUnit 14999 2 extent37.start extent37.len = true ∧ loading.windowUnit < 261117 + 2) ∧
    (let r := record 1 2 [(16, 2, 5), (24, 1, 1)]
     let s := waitingAtLoad r
     (s.slot 2).phase = .loading ∧ s.waiting (some (q 0)) r .load ∧ recCode r = 1 ∧ recSlot r = (2 : SlotIx).val ∧
     Sector.field r 24 1 = 1 ∧ Sector.field (record 1 2 [(16, 2, 5)]) 24 1 ≠ 1) ∧
    ((ended .sweep).op.owner = .sweep ∧ (ended (.slot 2)).op.owner = .slot 2) ∧
    (loading.host.held = [] ∧ loading.host.rangeSector = none ∧ ({ up := true, held := [.flush (q 3)] } : HostPort).held = [.flush (q 3)]) :=
  ⟨by decide +kernel, by decide +kernel, by decide, by decide, by decide,
   ⟨by decide, rfl, by decide +kernel, by decide +kernel⟩, by decide, by decide, by decide,
   ⟨by decide, rfl, by decide +kernel, by decide +kernel, by decide +kernel, by decide +kernel⟩, by decide, by decide⟩

/-- A forced write at the drive on service tag 1. -/
def writing (k : SvcKind) (o : SvcOwner) (s : State) : State :=
  { s with
    cat := { s.cat with flights := [{ tag := 1, op := { num := 3, kind := k, owner := o }, issued := some 4 }] }
    drive := { link := .up, outstanding := [{ who := .service 1, op := .forcedWrite }] } }

/-- The part with a command that waits. -/
def waitingAt (st : Stage) (r : Sector) (s : State) : State :=
  { s with win := { s.win with executing := some { tag := some (q 0), record := r, stage := st } } }

theorem witness_ServiceWriteEnds :
    (let s := writing (.store 37) (.slot 3) (waitingAt .store (record 5 3 []) (withTitle { title37 with dirty := true }))
     s.inReset = false ∧ s.drive.link = .up ∧ s.drive.errorRead = false ∧ s.drive.hold = none ∧ s.drive.xfer = none ∧
     (s.flight? 1).isSome = true ∧ s.svcOutstanding 1 = true ∧ (s.flightOfOp 3).isSome = true ∧
     (SvcKind.store 37).reads = false ∧ (s.slot 3).phase = .active ∧ recSlot (record 5 3 []) = (3 : SlotIx).val ∧
     s.win.executing.map (·.stage) = some .store) ∧
    (let s := writing (.store 37) (.slot 3) (withTitle { title37 with phase := .draining, inFlight := 0 })
     (s.slot 3).phase = .draining ∧ (s.slot 3).inFlight = 0) ∧
    (let s := writing (.store 37) (.slot 3) (withTitle { title37 with phase := .loading, expiry := some 50 })
     (s.slot 3).phase = .loading ∧ expiryDue (s.slot 3).expiry s.clock = false ∧ expiryDue (s.slot 3).expiry (some 50) = true) ∧
    (let s := writing (.store 37) (.slot 3) (waitingAt .idle (record 7 3 []) (withTitle { title37 with phase := .storing }))
     (s.slot 3).phase = .storing ∧ s.win.executing.map (·.stage) = some .idle) ∧
    (let s := writing (.erase 37) (.slot 3) (withTitle { title37 with phase := .erasing })
     (s.flight? 1).isSome = true ∧ (s.slot 3).phase = .erasing) ∧
    (let s := writing (.erase 5) (.slot 2) (waitingAt .erase (record 2 2 [(16, 2, 5)]) loading)
     (s.slot 2).phase = .loading ∧ s.win.executing.map (·.stage) = some .erase) ∧
    (let s := writing (.erase 5) .sweep { up with cat := { header := .valid 7, sweeping := true, progress := 5 } }
     (s.flight? 1).isSome = true ∧ s.cat.sweeping = true) ∧
    (let s := writing (.headerWrite 8) .header (waitingAt .header (record 19 0 []) up)
     (s.flight? 1).isSome = true ∧ s.win.executing.map (·.stage) = some .header) ∧
    (let s : State := { writing (.headerWrite 8) .header up with drive := { link := .up, hold := some (.pull (q 2)) } }
     s.drive.hold ≠ none) := by decide +kernel

/-! ### Witnesses: the control window -/

/-- A CONTROL_WRITE that waits for its turn. -/
def waiter : Cmd := { tag := q 0, kind := .controlWrite, lba := 2088944, count := 1, state := .waitControl }

theorem witness_ControlTurnTaken :
    (let s : State := { up with table := [waiter] }
     s.nextControl = some waiter ∧ s.inReset = false ∧ s.win.executing = none ∧
     (∀ d ∈ s.table, d.kind = .controlWrite → d.state ≠ .active) ∧ s.cmd? (q 0) = some waiter ∧
     (∀ r ∈ s.buffer.requests, r.tag ≠ q 0) ∧
     grantable { kind := .intake, cls := .bulk, tag := q 0, unit := 261118 } s = true) ∧
    (let s : State := { up with table := [waiter], buffer := {
       frames := (List.range' 4 15).map fun n => { frame 1 n .toHost .bulk .ready with num := n }, ceiling := 0 } }
     grantable { kind := .intake, cls := .bulk, tag := q 0, unit := 261118 } s = false) ∧
    (inHand up 0#4096).win.executing ≠ none ∧ up.nextControl = none := by decide +kernel

theorem witness_RecordsChecked :
    ((inHand up (record 0 0 [])).handed (some (q 0)) (record 0 0 []) ∧ recCode (record 0 0 []) = 0 ∧
      20 < recCode (record 21 0 [])) ∧
    (inHand up (record 20 0 [])).InHand (some (q 0)) (record 20 0 []) 20 ∧
    recNonce (record 18 0 [(8, 8, 1)]) ≠ up.win.nonce ∧
    (recNonce (record 18 0 []) = up.win.nonce ∧ up.authentic (signed (record 18 0 []))) ∧
    ((inHand (locked up) (record 20 0 [])).InHand (some (q 0)) (record 20 0 []) 20 ∧
      (locked up).mon.state = .lockdown) ∧
    ({ up with phase := .unformatted } : State).phase ≠ .ready ∧ 7 < recSlot (record 4 8 []) ∧
    (let r := record 3 4 [(18, 1, 3)]
     (inHand up r).InHand (some (q 0)) r 3 ∧ 2 < Sector.field r 18 1) ∧
    (let r := record 1 4 [(19, 1, 2), (24, 1, 2)]
     (inHand up (signed r)).InHand (some (q 0)) (signed r) 1 ∧ up.authentic (signed r) ∧
     1 < Sector.field (signed r) 19 1 ∧ 1 < Sector.field (signed r) 24 1) ∧
    (∀ tag r, up.handed tag r → recCode r ≠ 4) ∧
    ((inHand up otherSlot).InHand (some (q 0)) otherSlot 18 ∧
      recAuth otherSlot = Config.authCode (recCovered resumeRecord) ∧ recNonce otherSlot = up.win.nonce ∧
      ChangedIn (· = 5) (recCovered resumeRecord) (recCovered otherSlot)) ∧
    ((inHand up otherNonce).InHand (some (q 0)) otherNonce 18 ∧
      recAuth otherNonce = Config.authCode (recCovered resumeRecord) ∧ recNonce otherNonce ≠ up.win.nonce ∧
      ChangedIn (listedByte · = true) (recCovered resumeRecord) (recCovered otherNonce)) :=
  ⟨⟨rfl, by decide +kernel, by decide +kernel⟩, ⟨rfl, rfl, by decide +kernel⟩, by decide +kernel,
   ⟨by decide +kernel, authentic_signed _ _ (by decide +kernel)⟩, ⟨⟨rfl, rfl, by decide +kernel⟩, rfl⟩, by decide,
   by decide +kernel, ⟨⟨rfl, rfl, by decide +kernel⟩, by decide +kernel⟩,
   ⟨⟨rfl, rfl, (field_signed _ 4 1 (by decide)).trans (by decide +kernel)⟩, authentic_signed _ _ (by decide +kernel),
    by rw [field_signed _ 19 1 (by decide)]; decide +kernel, by rw [field_signed _ 24 1 (by decide)]; decide +kernel⟩,
   fun _ _ h => (by cases h),
   ⟨⟨rfl, rfl, (field_coded _ _ 4 1 (by decide)).trans (by decide +kernel)⟩, auth_coded _ _,
    (nonce_coded _ _).trans (by decide +kernel), slot_changed⟩,
   ⟨⟨rfl, rfl, (field_coded _ _ 4 1 (by decide)).trans (by decide +kernel)⟩, auth_coded _ _,
    fun h => absurd ((nonce_coded _ _).symm.trans h) (by decide +kernel), nonce_changed⟩⟩

/-- RESUME_TITLE on slot 0, 3 and 4; CREATE_RING of a number on slot 3. -/
theorem witness_SlotTestsInOrder :
    (let s := withTitle { title37 with phase := .draining }
     (inHand s (record 11 3 [])).Passes { code := 11 } (some (q 0)) (record 11 3 []) ∧
     ((inHand s (record 11 3 [])).slot 3).phase ≠ .idle ∧ ((inHand s (record 11 3 [])).slot 3).phase ≠ .active) ∧
    ((inHand up (record 4 0 [])).Passes { code := 4 } (some (q 0)) (record 4 0 []) ∧ (up.slot 0).phase = .idle) ∧
    (let r := record 2 4 [(16, 2, 37)]
     (inHand (withTitle title37) r).Passes { code := 2 } (some (q 0)) r ∧ recSlot r = 4 ∧ recNumber r = 37 ∧
     ((withTitle title37).slot 4).phase = .idle ∧ ((withTitle title37).slot 3).phase ≠ .idle ∧
     ((withTitle title37).slot 3).number = some 37) ∧
    (recNumber (record 3 4 [(16, 2, 1023)]) < 1024 ∧ 1031 < recNumber (record 3 4 [(16, 2, 1032)]) ∧
      createRingFields (record 3 4 [(16, 2, 1032)]) up = true) :=
  ⟨⟨passes_plain _ _ _ rfl (by decide +kernel) rfl (by decide) rfl, by decide, by decide⟩,
   ⟨passes_plain _ _ _ rfl (by decide +kernel) rfl (by decide) rfl, by decide⟩,
   ⟨passes_plain _ _ _ rfl (by decide +kernel) rfl (by decide) rfl, by decide +kernel⟩, by decide +kernel⟩

/-- Numbers 1 and 1023, class ONCE; and one claimed by the sweep. -/
theorem witness_LoadingEntered :
    (let r := record 1 4 [(16, 2, 1023), (18, 1, 1)]
     (inHand up (signed r)).Passes { code := 1, authorised := true } (some (q 0)) (signed r) ∧
     createFields (signed r) up = true ∧ recNumber (signed r) = 1023 ∧ recClass (signed r) ≠ .never ∧
     recSlot (signed r) = 4) ∧
    (let r := record 2 4 [(16, 2, 1)]
     (inHand up r).Passes { code := 2 } (some (q 0)) r ∧ recNumber r = 1 ∧ (up.slot 4).phase = .idle ∧
     up.claim? 1 = none ∧ ({ up with cat := { claims := [{ index := 1, owner := .sweep }] } } : State).claim? 1 ≠ none) ∧
    recClass (record 1 4 [(18, 1, 2)]) = .never := by
  refine ⟨⟨passes_signed _ _ _ rfl (by decide +kernel) (by decide +kernel) (by decide) rfl, ?_, ?_, ?_, ?_⟩,
    ⟨passes_plain _ _ _ rfl (by decide +kernel) rfl (by decide) rfl, by decide +kernel⟩, by decide +kernel⟩
  · unfold createFields slotOk recSlot
    rw [field_signed _ 5 1 (by decide), field_signed _ 18 1 (by decide), field_signed _ 19 1 (by decide),
      field_signed _ 24 1 (by decide)]
    decide +kernel
  · exact (field_signed _ 16 2 (by decide)).trans (by decide +kernel)
  · unfold recClass
    rw [field_signed _ 18 1 (by decide)]
    decide +kernel
  · exact (field_signed _ 5 1 (by decide)).trans (by decide +kernel)

/-- A ring of 64 units at sector 80,000, and one for each test of R47 that fails. -/
theorem witness_RingCreated :
    (let r := record 3 4 [(16, 2, 1024), (20, 8, 80000), (28, 4, 64)]
     (inHand up r).Passes { code := 3 } (some (q 0)) r ∧ recSlot r = 4 ∧ createRingFields r up = true ∧
     recNumber r = 1024 ∧ Sector.field r 28 4 = 64 ∧ Sector.field r 20 8 = 80000 ∧ 80000 / 8 + 64 ≤ up.windowUnit ∧
     (meets up.map 10000 64).isSome = false) ∧
    (meets [extent37] 14999 64).isSome = true ∧ up.windowUnit < 261117 + 64 :=
  ⟨⟨passes_plain _ _ _ rfl (by decide +kernel) rfl (by decide) rfl, by decide +kernel⟩, by decide, by decide⟩

/-- Runs at sector 120,000, which follows the title's extent, and at 160,000, which does not. -/
theorem witness_RunAttached :
    (let r := record 4 3 [(16, 8, 120000), (24, 8, 8)]
     (inHand (withTitle title37) r).Passes { code := 4 } (some (q 0)) r ∧ recSlot r = 3 ∧
     ((withTitle title37).slot 3).phase = .active ∧ Sector.field r 16 8 = 120000 ∧ Sector.field r 24 8 = 8 ∧
     (slotExtents [extent37] 3).getLast? = some extent37 ∧ extent37.stop = 120000 / 8 ∧
     (∀ e ∈ [extent37], sharesUnit 15000 1 e.start e.len = false)) ∧
    (let r := record 4 3 [(16, 8, 160000), (24, 8, 24)]
     recSlot r = 3 ∧ Sector.field r 16 8 = 160000 ∧ extent37.stop ≠ 160000 / 8 ∧ title37.extentCount < 120) ∧
    (∃ e ∈ [extent37], sharesUnit 14999 1 e.start e.len = true) ∧ 67108864 < 67108864 + 1 ∧ title37.nextUnit + 3 ≤ 67108864 ∧
    ({ title37 with state := some .sealed } : TitleSlot).state ≠ some .recording :=
  ⟨⟨passes_plain _ _ _ rfl (by decide +kernel) rfl (by decide) rfl, by decide +kernel⟩, by decide +kernel, by decide,
   by decide, by decide, by decide⟩

theorem witness_ChangesStored :
    ((inHand (withTitle title37) (record 5 3 [])).Passes { code := 5 } (some (q 0)) (record 5 3 []) ∧
      title37.state = some .recording) ∧
    ((inHand (withTitle { title37 with state := some .sealed }) (signed (record 12 3 []))).Passes
        { code := 12, authorised := true } (some (q 0)) (signed (record 12 3 [])) ∧
      recSlot (signed (record 12 3 [])) = 3 ∧ title37.cls = some .once) ∧
    (inHand (withTitle { title37 with state := some .moving }) (record 14 3 [])).Passes { code := 14 } (some (q 0))
      (record 14 3 []) ∧
    ((inHand (withTitle { title37 with dirty := true }) (record 6 3 [])).Passes { code := 6 } (some (q 0)) (record 6 3 []) ∧
      recSlot (record 6 3 []) = 3 ∧ title37.storeInFlight = false ∧ title37.dirty = false) ∧
    (title1030 midLap).kind ≠ some .recording :=
  ⟨⟨passes_plain _ _ _ rfl (by decide +kernel) rfl (by decide) rfl, by decide⟩,
   ⟨passes_signed _ _ _ rfl (by decide +kernel) (by decide +kernel) (by decide) rfl,
    (field_signed _ 5 1 (by decide)).trans (by decide +kernel), by decide⟩,
   passes_plain _ _ _ rfl (by decide +kernel) rfl (by decide) rfl,
   ⟨passes_plain _ _ _ rfl (by decide +kernel) rfl (by decide) rfl, by decide +kernel⟩, by decide⟩

theorem witness_DrainStarts :
    ((inHand (withTitle title37) (record 7 3 [])).Passes { code := 7 } (some (q 0)) (record 7 3 []) ∧
      recSlot (record 7 3 []) = 3 ∧ title37.inFlight = 0 ∧ title37.storeInFlight = false ∧ title37.dirty = false) ∧
    ((inHand (withTitle { title37 with inFlight := 1 }) (record 8 3 [])).Passes { code := 8 } (some (q 0)) (record 8 3 []) ∧
      recSlot (record 8 3 []) = 3) ∧
    ((inHand (withTitle { title37 with state := some .moving }) (signed (record 13 3 []))).Passes
        { code := 13, authorised := true } (some (q 0)) (signed (record 13 3 [])) ∧
      recSlot (signed (record 13 3 [])) = 3) ∧
    (inHand (withRing midLap) (record 7 3 [])).Passes { code := 7 } (some (q 0)) (record 7 3 []) :=
  ⟨⟨passes_plain _ _ _ rfl (by decide +kernel) rfl (by decide) rfl, by decide +kernel⟩,
   ⟨passes_plain _ _ _ rfl (by decide +kernel) rfl (by decide) rfl, by decide +kernel⟩,
   ⟨passes_signed _ _ _ rfl (by decide +kernel) (by decide +kernel) (by decide) rfl,
    (field_signed _ 5 1 (by decide)).trans (by decide +kernel)⟩,
   passes_plain _ _ _ rfl (by decide +kernel) rfl (by decide) rfl⟩

/-- An expiry of 50 with the clock at 50, class ONCE. -/
theorem witness_TitlesAdjusted :
    (let r := record 9 3 [(18, 1, 1), (19, 1, 1), (20, 4, 50)]
     (inHand { withTitle title37 with clock := some 50 } (signed r)).Passes { code := 9, authorised := true } (some (q 0))
       (signed r) ∧
     rightsFields (signed r) up = true ∧ recSlot (signed r) = 3 ∧ recClass (signed r) ≠ .never ∧
     expiryDue (recExpiry (signed r)) (some 50) = true ∧ expiryDue (recExpiry (signed r)) (some 49) = false) ∧
    recClass (record 9 3 [(18, 1, 2)]) = .never ∧
    ((inHand (withRing midLap) (record 10 3 [])).Passes { code := 10 } (some (q 0)) (record 10 3 []) ∧
      ((withRing midLap).slot 3).kind ≠ some .recording) ∧
    (inHand (withTitle { title37 with halted := true }) (record 11 3 [])).Passes { code := 11 } (some (q 0))
      (record 11 3 []) := by
  refine ⟨⟨passes_signed _ _ _ rfl (by decide +kernel) (by decide +kernel) (by decide) rfl, ?_, ?_, ?_, ?_, ?_⟩,
    by decide +kernel, ⟨passes_plain _ _ _ rfl (by decide +kernel) rfl (by decide) rfl, by decide⟩,
    passes_plain _ _ _ rfl (by decide +kernel) rfl (by decide) rfl⟩
  · unfold rightsFields slotOk recSlot
    rw [field_signed _ 5 1 (by decide), field_signed _ 18 1 (by decide), field_signed _ 19 1 (by decide)]
    decide +kernel
  · exact (field_signed _ 5 1 (by decide)).trans (by decide +kernel)
  · unfold recClass
    rw [field_signed _ 18 1 (by decide)]
    decide +kernel
  · unfold recExpiry
    rw [field_signed _ 19 1 (by decide), field_signed _ 20 4 (by decide)]
    decide +kernel
  · unfold recExpiry
    rw [field_signed _ 19 1 (by decide), field_signed _ 20 4 (by decide)]
    decide +kernel

theorem witness_ClockSet :
    (inHand up (signed (record 15 0 [(16, 8, 50)]))).Passes
      { code := 15, authorised := true, inUnformatted := true, inLockdown := true } (some (q 0))
      (signed (record 15 0 [(16, 8, 50)])) :=
  passes_signed _ _ _ rfl (by decide +kernel) (by decide +kernel) (by decide) rfl

/-- KEEP in every field but the ceiling, and a ceiling code that is none. -/
theorem witness_PolicySet :
    (let r := record 16 0 [(16, 8, 0x00FFFFFFFF03FFFFFF), (24, 8, 0xFFFFFFFFFFFFFFFF)]
     (inHand up (signed r)).Passes { code := 16, authorised := true, inUnformatted := true } (some (q 0)) (signed r)) ∧
    policyFields (record 16 0 [(19, 1, 4)]) up = false ∧ policyFields (record 16 0 [(19, 1, 3)]) up = true ∧
    policyFields (record 16 0 [(16, 1, 255), (29, 1, 255)]) up = true ∧ policyFields (record 16 0 [(29, 1, 4)]) up = false :=
  ⟨passes_signed _ _ _ rfl (by decide +kernel) (by decide +kernel) (by decide) rfl, by decide +kernel⟩

theorem witness_EventsCleared :
    (let r := record 17 0 [(16, 2, 2), (18, 2, 1)]
     (inHand { up with mon := alarmed } r).Passes { code := 17, inUnformatted := true, inLockdown := true } (some (q 0)) r ∧
     alarmed.state = .alarm ∧ alarmed.alarmed &&& ~~~BitVec.ofNat 10 (Sector.field r 18 2) = 0#10) ∧
    (let r := record 17 0 [(16, 2, 255), (18, 2, 2)]
     alarmed.alarmed &&& ~~~BitVec.ofNat 10 (Sector.field r 18 2) ≠ 0#10) ∧
    ((inHand (locked up) (record 17 0 [])).InHand (some (q 0)) (record 17 0 []) 17 ∧
      BitVec.ofNat 10 (Sector.field (record 17 0 []) 18 2) = 0#10) ∧
    ((inHand up (signed (record 18 0 []))).Passes
      { code := 18, authorised := true, inUnformatted := true, inLockdown := true } (some (q 0)) (signed (record 18 0 [])) ∧
      up.mon.state = .normal ∧ (locked up).mon.state ≠ .normal) :=
  ⟨⟨passes_plain _ _ _ rfl (by decide +kernel) rfl (by decide) rfl, by decide +kernel⟩, by decide +kernel,
   ⟨⟨rfl, rfl, by decide +kernel⟩, by decide +kernel⟩,
   passes_signed _ _ _ rfl (by decide +kernel) (by decide +kernel) (by decide) rfl, by decide⟩

/-- The part with slot 0 claiming these indices. -/
def claiming (ns : List Nat) : State :=
  { up with cat := { header := .valid 7, claims := ns.map fun n => { index := n, owner := .slot 0 } } }

theorem slotClaims_claiming (ns : List Nat) (m : Nat) (h : m ∈ ns) : (claiming ns).slotClaims m = true := by
  have e : (claiming ns).claim? m = some { index := m, owner := .slot 0 } := by
    unfold State.claim? claiming
    rw [List.find?_map]
    have : ∀ l : List Nat, m ∈ l → l.find? (fun n => decide (n = m)) = some m := by
      intro l hl
      induction l with
      | nil => cases hl
      | cons x xs ih =>
        by_cases hx : x = m
        · simp [hx]
        · simp only [List.find?_cons, hx, decide_false]
          exact ih ((List.mem_cons.mp hl).resolve_left (Ne.symm hx))
    show Option.map _ (ns.find? (fun n => decide (n = m))) = _
    rw [this ns h]; rfl
  unfold State.slotClaims; rw [e]

theorem witness_CatalogueCommands :
    ((inHand up (signed (record 19 0 []))).Passes { code := 19, authorised := true, inUnformatted := true } (some (q 0))
        (signed (record 19 0 [])) ∧
      up.cat.sweeping = false ∧ up.cat.header = .valid 7 ∧ (∀ i, (up.slot i).phase = .idle)) ∧
    (((withTitle title37).slot 3).phase ≠ .idle ∧ ((withTitle title37).slot 3).kind = some .recording) ∧
    ({ up with phase := .unformatted, cat := { header := .absent } } : State).cat.header = .absent ∧
    ((inHand { up with clock := some 50 } (record 20 0 [])).Passes { code := 20 } (some (q 0)) (record 20 0 []) ∧
      up.slotClaims 1 = false ∧ up.clock = none) ∧
    ((claiming [1, 2]).slotClaims 3 = false ∧ (claiming [1, 2]).slotClaims 1 = true ∧
      (claiming [1, 2]).slotClaims 2 = true) ∧
    ∀ m, 1 ≤ m → m ≤ 1023 → (claiming (List.range 1024)).slotClaims m = true :=
  ⟨⟨passes_signed _ _ _ rfl (by decide +kernel) (by decide +kernel) (by decide) rfl, rfl, rfl, by decide⟩, by decide, rfl,
   ⟨passes_plain _ _ _ rfl (by decide +kernel) rfl (by decide) rfl, by decide⟩, by decide,
   fun m _ h => slotClaims_claiming _ m (List.mem_range.mpr (by omega))⟩

/-! ### One step of a command, with values from the manual's examples -/

/-- Title 37 with its extents A and B (example of section 2.4). -/
def twoExtents : State :=
  { withTitle { title37 with extentCount := 2, nextUnit := 8000 } with
    map := [extent37, { start := 40000, len := 3000, slot := 3, first := 5000 }] }

/-- Example of section 4.13: tag 0's run is LBA 119,984, 26 sectors. -/
theorem test_hostRead_widened :
    (after (.hostRead (q 0) 119990 20) twoExtents).drive.queue =
      [{ who := .host (q 0), op := .read, lba := 119984, count := 26 }] := by decide +kernel

/-- Example of section 4.13: tag 3 is refused with CONTROL_MISUSE, which is counted. -/
theorem test_hostWrite_misuse :
    (after (.hostWrite (q 3) 2088945 1) twoExtents).mon.refusal =
        some { tag := q 3, lba := 2088945, count := 1, reason := .controlMisuse, number := 1 } ∧
      (after (.hostWrite (q 3) 2088945 1) twoExtents).mon.counters.toList = [0, 1, 0, 0, 0, 0, 0, 0, 0, 0] := by
  decide +kernel

/-- Example of section 4.13: tag 1 enters MERGE_READ; the tweak of unit 42,999 is (37, 0, 7,999). -/
theorem test_hostWrite_merges :
    (after (.hostWrite (q 1) 343996 8) twoExtents).table.map (fun c => (c.state, c.merges.map (·.tweak))) =
      [(.mergeRead, [{ title := 37, seq := 0, unit := 7999 }])] := by decide +kernel

/-- Example of section 10.8: a read beyond P is refused with HIDDEN and starts the alarm. -/
theorem test_hostRead_hidden :
    let t := after (.hostRead (q 2) 2090000 8) up
    t.mon.state = .alarm ∧ t.mon.alarmed = 1#10 ∧ t.mon.deadline = some { length := 2000, since := 0 } ∧ t.win.flags = 2#8 ∧ t.alert = true := by
  decide +kernel

/-- Example of section 10.8: at the deadline LOCKDOWN, with the alarmed set kept. -/
theorem test_windowDeadline :
    let t := after .windowDeadline { up with mon := alarmed, win := { flags := 2#8 } }
    t.mon.state = .lockdown ∧ t.mon.alarmed = 1#10 ∧ t.mon.deadline = none ∧ t.win.flags = 6#8 := by decide +kernel

/-- Example of section 10.8: in LOCKDOWN CLEAR_EVENTS is answered LATE and yet clears the flag. -/
theorem test_clearEvents_late :
    let t := after .clearEvents (inHand { locked up with win := { flags := 6#8 } } (record 17 0 [(16, 2, 2), (18, 2, 1)]))
    t.win.reply.map (·.result) = some .late ∧ t.mon.alarmed = 1#10 ∧ t.win.flags = 4#8 := by decide +kernel

/-- Example of section 3.10: segment 13 starts with lap 3, first-write 50,000 and stamp 5400; the head moves to it. -/
theorem test_ring_boundary :
    let r : Ring :=
      { newRing 100 5400 with
        head := some 12, lapCounter := 3,
        segs := List.replicate 13 { lap := 3, firstWrite := some 49820, stamp := 5400 } ++
          List.replicate 37 { lap := 2, firstWrite := some 44450, stamp := 5400 } }
    let s : State :=
      { withRing r with clock := some 50000, map := [{ start := 250000, len := 100, slot := 3, first := 0 }] }
    let t := after (.hostWrite (q 5) 2000197 12) s
    (t.slot 3).ring.map (fun g => (g.head, g.lapCounter, g.seg 13, g.seg 14)) =
        some (some 13, 3, { lap := 3, firstWrite := some 50000, stamp := 5400 },
          { lap := 2, firstWrite := some 44450, stamp := 5400 }) ∧
      t.table.map (fun c => c.merges.map fun e => (e.unit, e.lo, e.hi, e.base)) =
        [[(250024, 5, 7, .read), (250026, 0, 0, .zero)]] := by decide +kernel

/-- Example of section 3.11: at 6,400 segment 4, written at 1,000 with stamp 5400, is not readable; at 6,399 it is. -/
theorem test_ring_ages :
    let g : Segment := { lap := 6, firstWrite := some 1000, stamp := 5400 }
    g.readable (some 6399) = true ∧ g.readable (some 6400) = false := by decide

/-- Example of section 3.12: the lap wraps by a rekey, and the old key stays for the read in flight. -/
theorem test_ring_rekeys :
    let s := withRing lastLap
    let t := after (.hostWrite (q 7) 80000 8) { s with slots := s.slots.set 3 { title1030 lastLap with inFlight := 1 } }
    (t.slot 3).gen = some 2 ∧ (t.slot 3).retired = some { key := ⟨1⟩, gen := 1, refs := 1 } ∧ (t.slot 3).inFlight = 2 ∧
      (t.slot 3).ring.map (fun g => (g.head, g.lapCounter, (g.seg 0).lap, (g.seg 63).lap)) = some (some 0, 1, 1, 0) ∧
      t.win.flags = 8#8 := by decide +kernel

/-- Example of section 2.4: LBA 344,000 lengthens B. -/
theorem test_attach_lengthens :
    let t := after .attach (inHand twoExtents (record 4 3 [(16, 8, 344000), (24, 8, 8000)]))
    t.map = [extent37, { start := 40000, len := 4000, slot := 3, first := 5000 }] ∧ (t.slot 3).nextUnit = 9000 ∧
      (t.slot 3).extentCount = 2 := by decide +kernel

/-- Example of section 2.4: LBA 120,000 follows A, which is not the last extent, so it is a new one. -/
theorem test_attach_inserts :
    (after .attach (inHand twoExtents (record 4 3 [(16, 8, 120000), (24, 8, 8000)]))).map =
      [extent37, { start := 15000, len := 1000, slot := 3, first := 8000 },
       { start := 40000, len := 3000, slot := 3, first := 5000 }] := by decide +kernel

/-- Example of section 1.10: CLOSE of a clean title with nothing in flight takes it to IDLE and is answered OK. -/
theorem test_close_clean :
    let t := after .close (inHand (withTitle title37) (record 7 3 []))
    t.slot 3 = TitleSlot.empty ∧ t.map = [] ∧ t.win.reply.map (·.result) = some .ok := by decide +kernel

/-- Example of section 1.10: a title sealed during a write stays ACTIVE and stores; a second SEAL is OK at once (R24). -/
theorem test_seal :
    let t := after .sealTitle (inHand (withTitle { title37 with inFlight := 2 }) (record 5 3 []))
    (t.slot 3).state = some .sealed ∧ (t.slot 3).dirty = true ∧ (t.slot 3).storeInFlight = true ∧
      (t.slot 3).lastChanger = 9 ∧ t.win.reply = none := by decide +kernel

/-- R8: OPEN_TITLE loads record i at LBA P + 8i. -/
theorem test_openTitle :
    let t := after .openTitle (inHand up (record 2 4 [(16, 2, 88)]))
    (t.slot 4).phase = .loading ∧ t.drive.queue = [{ who := .service 0, op := .serviceRead, lba := 2089664, count := 8 }] := by
  decide +kernel

/-- R10, R11: DELETE destroys the key and erases the record, here under generation 1 of a part that knows none (R147). -/
theorem test_delete :
    let t := after .delete (inHand (withTitle title37) (record 8 3 []))
    (t.slot 3).phase = .erasing ∧ (t.slot 3).key = none ∧ t.map = [] ∧ t.lanes.lane0.isSome = true := by decide +kernel

/-- Example of section 9.7: at the tick to 1,000,500 title 5 with a read in flight drains. -/
theorem test_tick_expires :
    let t := after .tick { withTitle { title37 with expiry := some 1000500, inFlight := 1 } with clock := some 1000499 }
    t.clock = some 1000500 ∧ (t.slot 3).phase = .draining ∧ (t.slot 3).drain = some .expired ∧ t.win.flags = 1#8 := by
  decide +kernel

/-- R167: the clock stays at its highest value. -/
theorem test_tick_top : (after .tick { up with clock := some 4294967295 }).clock = some 4294967295 := by decide +kernel

/-- R204: after an identity of 2,097,151 sectors NO_DRIVE, with ALERT. -/
theorem test_driveIdentity_small :
    let t := after (.driveIdentity (some { disk with capacity := 2097151 })) starting
    t.phase = .noDrive ∧ t.alert = true ∧ t.host.up = false := by decide +kernel

/-- R204: a HEADER_READ whose marker is absent makes the part UNFORMATTED with no job (R144, R205). -/
theorem test_header_absent :
    let t := after (.serviceReadComplete 0
      (some (.header { marker := false, epoch := 0, capacity := 0 } default))) readingHeader
    t.phase = .unformatted ∧ t.cat.header = .absent ∧ t.lanes.lane0.isSome = false ∧ t.win.flags = 0#8 := by decide +kernel

/-- R70: the head is issued and outstanding. -/
theorem test_driveIssue :
    let t := after .driveIssue { up with drive := { link := .up, queue := [readerRun, loadRun] } }
    t.out = [.issued readerRun] ∧ t.drive.queue = [loadRun] ∧ t.drive.outstanding = [readerRun] := by decide +kernel

/-- R92, R86: the failing LBA is brought within the host's range, 5 … 12; the completion goes once the record is read. -/
theorem test_driveError_clamps :
    let s := after (.driveError (q 1) (some 40)) reading
    s.out = [] ∧
      (after .errorRecordRead s).out = [.completion { tag := q 1, ending := .driveError (some 12) }] := by decide +kernel

/-- R119: a PUSH that cannot be granted stalls the link; here the command already holds 8 frames. -/
theorem test_push_stalls :
    let s : State := { reading with buffer := {
      frames := (List.range' 4 8).map fun n => { frame 1 (900 + n) .toHost .bulk .ready with num := n } } }
    (after (.drivePushUnit (q 1)) s).drive.hold = some (.stall (q 1)) := by decide +kernel

/-- R80: a unit received whole gets its decrypt job, on lane 0 (R135), with the tweak of unit 10,000. -/
theorem test_unitReceived :
    (after (.unitReceived (List.replicate 8 1#4096)) (pushing 8)).lanes.lane0.map (fun r => (r.job.tweak, r.job.dir)) =
      some ({ title := 37, seq := 0, unit := 0 }, .decrypt) := by decide +kernel

/-- R81, R127: the last unit of a read in ENDING goes out, and its completion with it. -/
theorem test_unitDelivered :
    let t := after .unitDelivered (sending 1 .ending)
    t.buffer.frames = [] ∧ t.table = [] ∧
      t.out = [.toHost (q 1) 80008 (List.replicate 5 0#4096), .completion { tag := q 1, ending := .good }] := by
  decide +kernel

/-- R82: of two sectors in one WINDOW_READ the first shows the moment before, the second the reply that stands now. -/
theorem test_unitDelivered_two_moments :
    (after .unitDelivered serving).out.head? = some (.toHost (q 9) 2088944
      [BitVec.allOnes 4096, Reply.sector { request := 5, code := 6, slot := 3, result := .ok, nonce := 0, number := 1,
                                           details := .none }]) := by decide +kernel

/-- R85, R193: the sector of a CONTROL_WRITE is handed over. -/
theorem test_unitTaken_control :
    (after (.unitTaken [record 20 0 []]) controlTaking).win.executing =
      some { tag := some (q 0), record := record 20 0 [], stage := .handed } := by decide +kernel

/-- R195: code 21 is answered BAD_PARAM, and the CONTROL_WRITE completes GOOD. -/
theorem test_unknownCode :
    let t := after .unknownCommandCode (inHand up (record 21 0 []))
    t.win.reply.map (·.result) = some .badParam ∧ t.out = [.completion { tag := q 0, ending := .good }] := by decide +kernel

/-- R195, R196: a stale nonce is answered STALE and counted. -/
theorem test_setClock_stale :
    let t := after .setClock (inHand up (record 15 0 [(8, 8, 5), (16, 8, 50)]))
    t.win.reply.map (·.result) = some .stale ∧ t.clock = none ∧ t.mon.counters.toList[8]? = some 1 := by decide +kernel

/-- R47, R49: a ring of 100 units has g = 2 and m = 50; retention 0 of class NEVER is 5400 (R48). -/
theorem test_createRing :
    let t := after .createRing (inHand up (record 3 2 [(16, 2, 1026), (18, 1, 2), (20, 8, 2000000), (28, 4, 100)]))
    t.win.reply.map (fun r => (r.result, r.details)) = some (.ok, .ring 2 50 5400) ∧ (t.slot 2).phase = .active ∧
      t.map = [{ start := 250000, len := 100, slot := 2, first := 0 }] := by decide +kernel

/-- R64: RING_EMPTY keeps the lap counter. -/
theorem test_ringEmpty :
    ((after .ringEmpty (inHand (withRing midLap) (record 10 3 []))).slot 3).ring.map
      (fun g => (g.head, g.lapCounter, (g.seg 0).lap)) = some (none, 3, 0) := by decide +kernel

/-- R162: SWEEP with the clock unset is answered CLOCK_UNSET; with it set, OK, and the sweep loads index 1. -/
theorem test_sweep :
    (after .sweep (inHand up (record 20 0 []))).win.reply.map (·.result) = some .clockUnset ∧
    (let t := after .sweep (inHand { up with clock := some 5 } (record 20 0 []))
     t.win.reply.map (·.result) = some .ok ∧ t.cat.sweeping = true ∧ t.cat.progress = 1) := by decide +kernel

/-- R89: a range that touches one sector of a protected unit is refused with TRIM_PROTECTED. -/
theorem test_deallocate_trim :
    (after (.deallocateRangeSector [{ lba := 79999, len := 2 }])
      { withTitle title37 with host := { up := true, rangeSector := some (q 3) } }).mon.refusal.map (·.reason) =
      some .trimProtected := by decide +kernel

/-- R88: a range sector of length 0 entries completes GOOD at once; a command of the same tag held off behind it is then
taken. -/
theorem test_deallocate_empty :
    let s : State := { up with host := { up := true, rangeSector := some (q 3), held := [.flush (q 3)] } }
    let t := after (.deallocateRangeSector [{ lba := 9, len := 0 }]) s
    t.out = [.completion { tag := q 3, ending := .good }] ∧ t.table.map (fun c => (c.tag, c.kind)) = [(q 3, .flush)] := by
  decide +kernel

/-- R89: the drive gets the range sector as the host gave it. -/
theorem test_deallocate_unchanged :
    let rs : List Range := [{ lba := 9, len := 0 }, { lba := 16, len := 8 }]
    (after (.deallocateRangeSector rs) { up with host := { up := true, rangeSector := some (q 3) } }).drive.queue =
      [{ who := .host (q 3), op := .deallocate rs }] := by decide +kernel

/-- R87: a FLUSH behind a write waits for it. -/
theorem test_flush_waits :
    (after (.flush (q 4)) { up with table := [titleWriter] }).table.map (fun c => (c.state, c.waitFor)) =
      [(.active, []), (.waitOverlap, [q 2])] := by decide +kernel

/-- Example of section 7.8: RECORD goes first, until two jobs have count 8, of which the older goes. -/
theorem test_selectJob :
    let j (c : Machine.Class) (t : Nat) (b : Nat) : Job :=
      { frame := t, dir := .encrypt, source := .root, tweak := default, owner := .host (q t), cls := c, bypass := b }
    selectJob [j .play 9 0, j .service 8 0, j .record 3 0, j .record 4 0] = some (j .record 3 0) ∧
    selectJob [j .play 9 8, j .service 8 8, j .record 3 1] = some (j .play 9 8) := by decide +kernel

/-- Example of section 6.11: at 58 frames in use BULK intake waits and RECORD intake is granted; at 59 a PUSH alone is. -/
theorem test_grantable :
    let s (n : Nat) : State :=
      { up with buffer := { frames := (List.range' 4 n).map fun i => { frame 30 i .toHost .bulk .ready with num := i } } }
    grantable { kind := .intake, cls := .bulk, tag := q 20, unit := 0 } (s 58) = false ∧
    grantable { kind := .intake, cls := .record, tag := q 3, unit := 0 } (s 58) = true ∧
    grantable { kind := .intake, cls := .record, tag := q 3, unit := 0 } (s 59) = false ∧
    grantable { kind := .push, cls := .play, tag := q 9, unit := 0 } (s 59) = true := by decide +kernel

/-- R94: a host link reset ends every command and resets the drive link. -/
theorem test_hostLinkReset :
    let t := after .hostLinkReset busy
    t.table = [] ∧ t.drive.link = .resetting ∧ (t.slot 3).inFlight = 0 ∧ t.out = [.driveLinkReset] := by decide +kernel

/-- R157: at the first timeout the link is reset and the LOAD waits to be issued again; at the second it fails (R158). -/
theorem test_serviceTimer :
    (after (.serviceTimer 1) loading).drive.reissue = [3] ∧
    (let s : State := { loading with cat := { loading.cat with
       flights := [{ loadFlight with op := { loadFlight.op with timeouts := 1 } }] } }
     (after (.serviceTimer 1) s).win.reply.map (·.result) = some .drive ∧ (after (.serviceTimer 1) s).win.flags = 64#8) := by
  decide +kernel

/-- R192, section 11.9: the part status sector shows the phase, the ceiling code and P. -/
theorem test_partStatus :
    Sector.field up.partStatus 0 1 = 1 ∧ Sector.field up.partStatus 38 1 = 2 ∧
    Sector.field up.partStatus 104 8 = 2088960 ∧ Sector.field up.partStatus 120 2 = 7 := by decide +kernel

end Sys2Proof.Tests
end

section
/-!
SUPPORT. The block invariants over single moves and whole steps: what a move can do to the slots, to the held frames and
to the tags (R4, R6, R13, R71, R73, R114), and that a command keeps what every move keeps.
-/

namespace Sys2Proof.Machine

section ops
variable {L : Prop}

/-! ### What a move can do to each block -/

/-- The ways the slots of s can change (R4, R6, R13). -/
inductive SlotsChange (s : State) (slots : Vector TitleSlot 8) : Prop
  | same (h : slots = s.slots)
  | step (i : SlotIx) (x : TitleSlot) (hx : SlotStep (s.slot i) x) (h : slots = s.slots.set i x)
  | idle (i : SlotIx) (h : slots = s.slots.set i TitleSlot.empty)
  | occupy (i : SlotIx) (x : TitleSlot) (n : Nat) (hp : x.phase ≠ .idle) (hn : x.number = some n)
      (hr : 1 ≤ n ∧ n ≤ 1031) (hf : s.numberHeld i n = false) (h : slots = s.slots.set i x)

/-- The ways the held frames of s can change (R114). -/
inductive FramesChange (s : State) (frames : List Frame) : Prop
  | same (h : frames = s.buffer.frames)
  | hold (f : Frame) (h8 : s.framesHeld f.holder < Config.framesPerCommand) (hn : s.lowestFree = some f.num)
      (h : frames = insertFrame f s.buffer.frames)
  | drop (p : Frame → Bool) (h : frames = s.buffer.frames.filter p)
  | modify (g : Frame → Frame) (hg : ∀ f, (g f).num = f.num ∧ (g f).holder = f.holder)
      (h : frames = s.buffer.frames.map g)

/-- The ways the occupied tags of s can change (R71, R73). -/
inductive TagsChange (s : State) (tags : List HostTag) : Prop
  | fewer (h : tags.Sublist s.occupied)
  | new (a : HostTag) (ha : NewTag s a) (l : List HostTag) (hl : l.Sublist s.occupied) (h : tags.Perm (a :: l))

theorem TMove.slots {s t : State} (h : TMove s t) : SlotsChange s t.slots := by
  cases h with
  | slot i x hx => exact .step i x hx rfl
  | idle i => exact .idle i rfl
  | _ => exact .same rfl

theorem TMove.frames {s t : State} (h : TMove s t) : FramesChange s t.buffer.frames := by
  cases h with
  | hold f h8 hn => exact .hold f h8 hn rfl
  | dropFrames p => exact .drop p rfl
  | modFrames g hg => exact .modify g hg rfl
  | _ => exact .same rfl

theorem TMove.tags {s t : State} (h : TMove s t) : TagsChange s t.occupied := by
  cases h with
  | host x hr => exact .fewer (by simp [State.occupied, hr])
  | dropCmds p => exact .fewer ((List.filter_sublist.map _).append (List.Sublist.refl _))
  | modCmds g ht hp =>
    have e : (s.table.map g).map (·.tag) = s.table.map (·.tag) := by
      rw [List.map_map]; exact List.map_congr_left fun c hc => ht c hc
    exact .fewer (by simp only [State.occupied, e]; exact List.Sublist.refl _)
  | _ => exact .fewer (List.Sublist.refl _)

/-- The monitor's reactions and the deadline touch the monitor and the flags alone. -/
theorem alarmReaction_rest (k : Violation) (s : State) :
    alarmReaction k s = { s with mon := (alarmReaction k s).mon, win := (alarmReaction k s).win } := by
  unfold alarmReaction; split <;> [skip; split; skip] <;> rfl

theorem faultReaction_rest (k : Violation) (s : State) :
    faultReaction k s = { s with mon := (faultReaction k s).mon, win := (faultReaction k s).win } := by
  unfold faultReaction; split <;> rfl

theorem deadlineReached_rest (s : State) :
    deadlineReached s = { s with mon := (deadlineReached s).mon, win := (deadlineReached s).win } := by
  unfold deadlineReached; split <;> rfl

theorem Move.slots {s t : State} (h : Move L s t) : SlotsChange s t.slots := by
  cases h with
  | traffic h => exact h.slots
  | occupy i x n hi hp hn hr hf => exact .occupy i x n hp hn hr hf rfl
  | alarm k => exact .same (by rw [alarmReaction_rest])
  | fault k => exact .same (by rw [faultReaction_rest])
  | deadline => exact .same (by rw [deadlineReached_rest])
  | _ => exact .same rfl

theorem Move.frames {s t : State} (h : Move L s t) : FramesChange s t.buffer.frames := by
  cases h with
  | traffic h => exact h.frames
  | alarm k => exact .same (by rw [alarmReaction_rest])
  | fault k => exact .same (by rw [faultReaction_rest])
  | deadline => exact .same (by rw [deadlineReached_rest])
  | _ => exact .same rfl

theorem Move.tags {s t : State} (h : Move L s t) : TagsChange s t.occupied := by
  cases h with
  | traffic h => exact h.tags
  | alarm k => rw [alarmReaction_rest]; exact .fewer (List.Sublist.refl _)
  | fault k => rw [faultReaction_rest]; exact .fewer (List.Sublist.refl _)
  | deadline => rw [deadlineReached_rest]; exact .fewer (List.Sublist.refl _)
  | rangeOn a ha =>
    refine .new a ha (s.table.map (·.tag)) (List.sublist_append_left _ _) ?_
    exact (List.perm_append_comm (l₂ := [a]))
  | rangeOff => exact .fewer (by simp [State.occupied])
  | admitted c ht hl =>
    refine .new c.tag ht s.occupied (List.Sublist.refl _) ?_
    simp only [State.occupied, List.map_append, List.map_cons, List.map_nil, List.append_assoc]
    exact List.perm_middle
  | admitHeld c ht hp =>
    exact .fewer (by simp [State.occupied, ht])
  | _ => exact .fewer (List.Sublist.refl _)

end ops

/-! ### The invariants over one change -/

theorem slot_eq_of_slots {s t : State} {i k : SlotIx} {x : TitleSlot} (h : t.slots = s.slots.set i x) :
    t.slot k = if k = i then x else s.slot k := by
  have e : t.slot k = (s.setSlot i x).slot k := by simp only [State.slot, State.setSlot, h]
  rw [e]
  by_cases hk : k = i
  · rw [if_pos hk, hk, State.slot_setSlot_same]
  · rw [if_neg hk, State.slot_setSlot_other _ _ _ _ hk]

theorem mem_allSlots (i : SlotIx) : i ∈ allSlots := by revert i; decide

theorem numberHeld_false {s : State} {i : SlotIx} {n : Nat} :
    s.numberHeld i n = false ↔ ∀ k, k ≠ i → (s.slot k).phase = .idle ∨ (s.slot k).number ≠ some n := by
  unfold State.numberHeld
  simp only [List.any_eq_false, Bool.and_eq_true, decide_eq_true_eq, not_and, mem_allSlots, true_implies, and_imp]
  exact forall_congr' fun k => ⟨fun h hk => (em _).imp id (h hk), fun h hk hp => (h hk).resolve_left hp⟩

/-- The IDLE slots of t hold the IDLE values, where one slot of s has changed and an IDLE one is empty. -/
theorem idleOk_set {s t : State} {i : SlotIx} {x : TitleSlot} (hs : s.IdleOk) (h : t.slots = s.slots.set i x)
    (hx : x.phase = .idle → x = TitleSlot.empty) : t.IdleOk := by
  intro k hk
  rw [slot_eq_of_slots h] at hk ⊢
  split at hk
  · rename_i e; rw [if_pos e]; exact hx hk
  · rename_i e; rw [if_neg e]; exact hs k hk

/-- The title numbers of t are each held once, where one slot of s has changed and holds, if it is not IDLE, a number that
no other slot holds. -/
theorem numbersOk_set {s t : State} {i : SlotIx} {x : TitleSlot} (hs : s.NumbersOk) (h : t.slots = s.slots.set i x)
    (hx : x.phase ≠ .idle → ∃ n, x.number = some n ∧ (1 ≤ n ∧ n ≤ 1031) ∧
      ∀ k, k ≠ i → (s.slot k).phase = .idle ∨ (s.slot k).number ≠ some n) : t.NumbersOk := by
  obtain ⟨hnum, huniq⟩ := hs
  have clash : ∀ k, k ≠ i → x.phase ≠ .idle → (s.slot k).phase ≠ .idle → (s.slot k).number ≠ x.number := by
    intro k hk hp hq e
    obtain ⟨n, hn, _, hfree⟩ := hx hp
    exact ((hfree k hk).resolve_left hq) (e.trans hn)
  refine ⟨fun k hk => ?_, fun k m hk hm e => ?_⟩
  · rw [slot_eq_of_slots h] at hk ⊢
    split at hk
    · rename_i e; rw [if_pos e]; obtain ⟨n, hn, hr, _⟩ := hx hk; exact ⟨n, hn, hr⟩
    · rename_i e; rw [if_neg e]; exact hnum k hk
  · rw [slot_eq_of_slots h] at hk hm e
    rw [slot_eq_of_slots (k := m) h] at e
    by_cases hki : k = i <;> by_cases hmi : m = i
    · rw [hki, hmi]
    · rw [if_pos hki] at hk e; rw [if_neg hmi] at hm e
      exact absurd e.symm (clash m hmi hk hm)
    · rw [if_neg hki] at hk e; rw [if_pos hmi] at hm e
      exact absurd e (clash k hki hm hk)
    · rw [if_neg hki] at hk e; rw [if_neg hmi] at hm e
      exact huniq k m hk hm e

theorem SlotsChange.keeps {s t : State} (h : SlotsChange s t.slots) (hs : s.IdleOk ∧ s.NumbersOk) :
    t.IdleOk ∧ t.NumbersOk := by
  obtain ⟨hid, hno⟩ := hs
  cases h with
  | same h =>
    have e : ∀ k, t.slot k = s.slot k := fun k => by simp only [State.slot, h]
    exact ⟨fun k hk => by rw [e k] at hk ⊢; exact hid k hk, by simpa only [State.NumbersOk, e] using hno⟩
  | step i x hx h =>
    refine ⟨idleOk_set hid h fun hp => hx.empty (hid i (hx.phase.mp hp)), numbersOk_set hno h fun hp => ?_⟩
    have hp' : (s.slot i).phase ≠ .idle := fun e => hp (hx.phase.mpr e)
    obtain ⟨n, hn, hr⟩ := hno.1 i hp'
    refine ⟨n, hx.number.trans hn, hr, fun k hk => ?_⟩
    by_cases hq : (s.slot k).phase = .idle
    · exact .inl hq
    · exact .inr fun e => hk (hno.2 k i hq hp' (e.trans hn.symm))
  | idle i h => exact ⟨idleOk_set hid h fun _ => rfl, numbersOk_set hno h fun hp => absurd rfl hp⟩
  | occupy i x n hp hn hr hf h =>
    exact ⟨idleOk_set hid h fun e => absurd e hp, numbersOk_set hno h fun _ => ⟨n, hn, hr, numberHeld_false.mp hf⟩⟩

/-! Frames -/

theorem mem_insertFrame {f x : Frame} {l : List Frame} : x ∈ insertFrame f l ↔ x = f ∨ x ∈ l := by
  induction l with
  | nil => simp [insertFrame]
  | cons y ys ih =>
    simp only [insertFrame]
    split
    · exact List.mem_cons
    · simp only [List.mem_cons, ih]; tauto

theorem insertFrame_perm (f : Frame) (l : List Frame) : (insertFrame f l).Perm (f :: l) := by
  induction l with
  | nil => exact .refl _
  | cons y ys ih =>
    simp only [insertFrame]
    split
    · exact .refl _
    · exact (ih.cons y).trans (.swap f y ys)

theorem insertFrame_sorted {f : Frame} {l : List Frame} (hl : (l.map (·.num)).Pairwise (· < ·))
    (hf : ∀ x ∈ l, x.num ≠ f.num) : ((insertFrame f l).map (·.num)).Pairwise (· < ·) := by
  induction l with
  | nil => simp [insertFrame]
  | cons y ys ih =>
    obtain ⟨hy, hys⟩ := List.pairwise_cons.mp hl
    have hne := hf y List.mem_cons_self
    simp only [insertFrame]
    split
    · rename_i hle
      refine List.pairwise_cons.mpr ⟨fun n hn => ?_, hl⟩
      rcases List.mem_cons.mp hn with e | hn
      · have e : n = y.num := e
        show f.num < n; omega
      · exact lt_of_le_of_lt hle (hy n hn)
    · rename_i hgt
      refine List.pairwise_cons.mpr ⟨fun n hn => ?_, ih hys fun x hx => hf x (List.mem_cons_of_mem _ hx)⟩
      obtain ⟨x, hx, e⟩ := List.mem_map.mp hn
      rcases mem_insertFrame.mp hx with hx | hx
      · rw [← e, hx]; show y.num < f.num; omega
      · exact hy n (List.mem_map.mpr ⟨x, hx, e⟩)

theorem lowestFree_spec {s : State} {n : Nat} (h : s.lowestFree = some n) :
    (4 ≤ n ∧ n ≤ 63) ∧ ∀ f ∈ s.buffer.frames, f.num ≠ n := by
  unfold State.lowestFree sharedNumbers at h
  have hm := List.mem_range'_1.mp (List.mem_of_find?_eq_some h)
  have hf := List.find?_some h
  simp only [List.all_eq_true, decide_eq_true_eq] at hf
  exact ⟨by omega, hf⟩

theorem FramesChange.keeps {s t : State} (h : FramesChange s t.buffer.frames) (hs : s.FramesOk) : t.FramesOk := by
  cases h with
  | same h => exact ⟨h ▸ hs.sorted, h ▸ hs.numbers, fun a => by simpa only [State.framesHeld, h] using hs.holders a⟩
  | hold f h8 hn h =>
    obtain ⟨hr, hfree⟩ := lowestFree_spec hn
    refine ⟨h ▸ insertFrame_sorted hs.sorted hfree, fun x hx => ?_, fun a => ?_⟩
    · rw [h] at hx
      rcases mem_insertFrame.mp hx with e | hx
      · rw [e]; exact hr
      · exact hs.numbers x hx
    · have hp : t.framesHeld a = ((f :: s.buffer.frames).filter fun x => decide (x.holder = a)).length := by
        rw [State.framesHeld, h]; exact ((insertFrame_perm f _).filter _).length_eq
      rw [hp]
      by_cases e : f.holder = a
      · rw [List.filter_cons_of_pos (by simpa using e), List.length_cons]
        rw [e] at h8; exact h8
      · rw [List.filter_cons_of_neg (by simpa using e)]; exact hs.holders a
  | drop p h =>
    refine ⟨?_, fun x hx => ?_, fun a => ?_⟩
    · rw [h]; exact hs.sorted.sublist (List.filter_sublist.map _)
    · rw [h] at hx; exact hs.numbers x (List.mem_of_mem_filter hx)
    · rw [State.framesHeld, h]
      exact ((List.filter_sublist.filter _).length_le).trans (hs.holders a)
  | modify g hg h =>
    refine ⟨?_, fun x hx => ?_, fun a => ?_⟩
    · have e : (s.buffer.frames.map g).map (·.num) = s.buffer.frames.map (·.num) := by
        rw [List.map_map]; exact List.map_congr_left fun f _ => (hg f).1
      rw [h, e]; exact hs.sorted
    · rw [h] at hx
      obtain ⟨y, hy, e⟩ := List.mem_map.mp hx
      rw [← e, (hg y).1]; exact hs.numbers y hy
    · rw [State.framesHeld, h, List.filter_map, List.length_map]
      have : (s.buffer.frames.filter ((fun f => decide (f.holder = a)) ∘ g)) =
          s.buffer.frames.filter fun f => decide (f.holder = a) :=
        List.filter_congr fun f _ => by simp only [Function.comp_apply, (hg f).2]
      rw [this]; exact hs.holders a

/-! Tags -/

theorem TagsChange.keeps {s t : State} (h : TagsChange s t.occupied) (hs : s.TableOk) : t.TableOk := by
  cases h with
  | fewer h =>
    refine ⟨hs.once.sublist h, fun n hn => hs.tags n (h.subset hn), fun hi => ?_⟩
    have e := hs.alone (h.subset hi)
    rw [e] at h
    exact (List.sublist_singleton.mp h).resolve_left (List.ne_nil_of_mem hi)
  | new a ha l hl h =>
    refine ⟨?_, fun n hn => ?_, fun hi => ?_⟩
    · exact h.nodup_iff.mpr (List.nodup_cons.mpr ⟨fun m => ha.free (hl.subset m), hs.once.sublist hl⟩)
    · rcases List.mem_cons.mp (h.subset hn) with e | hn
      · exact (ha.queued n e.symm).1
      · exact hs.tags n (hl.subset hn)
    · have hnil : a = .immediate → l = [] := fun e => by
        have := ha.alone e; rw [this] at hl; exact List.sublist_nil.mp hl
      cases a with
      | immediate => rw [hnil rfl] at h; exact List.perm_singleton.mp h
      | queued n =>
        rcases List.mem_cons.mp (h.subset hi) with e | hi
        · cases e
        · exact absurd (hl.subset hi) (ha.queued n rfl).2

/-! ### From single moves to whole steps -/

/-- Two states have the same slots, held frames and tags. -/
structure SameBlocks (s t : State) : Prop where
  slots : t.slots = s.slots
  frames : t.buffer.frames = s.buffer.frames
  tags : t.occupied = s.occupied

/-- A property of the blocks that holds at a hard reset and is kept by every move. -/
structure KeptByMoves (P : State → Prop) : Prop where
  reset : P State.reset
  same : ∀ {s t : State}, SameBlocks s t → P s → P t
  move : ∀ {L : Prop} {s t : State}, Move L s t → P s → P t

theorem KeptByMoves.moves {P : State → Prop} (hP : KeptByMoves P) {L : Prop} {s t : State} (h : Moves L s t)
    (hs : P s) : P t := by
  induction h with
  | refl => exact hs
  | tail _ m ih => exact hP.move m ih

/-- What every move keeps every command keeps. -/
theorem KeptByMoves.did {P : State → Prop} (hP : KeptByMoves P) {c : Instr} {s t : State} (h : Did c s t) (hs : P s) :
    P t := by
  cases h with
  | hardReset _ ht => subst ht; exact hP.same (s := State.reset) ⟨rfl, rfl, rfl⟩ hP.reset
  | released _ _ ht => subst ht; exact hP.same (s := s) ⟨rfl, rfl, rfl⟩ hs
  | moved h => exact hP.moves h hs
  | accepted _ _ h => exact hP.moves h (hP.same (s := s) ⟨rfl, rfl, rfl⟩ hs)
  | resumed _ _ h =>
    have h' : P { s.quiet.drawNonce with mon := s.mon.resumed } := hP.same (s := s) ⟨rfl, rfl, rfl⟩ hs
    exact hP.moves (h.moves (L := False)) h'

theorem KeptByMoves.step {P : State → Prop} (hP : KeptByMoves P) {s t : State} (hs : P s) (h : step s = .next t) :
    P t := by
  unfold Machine.step at h
  split at h
  · injection h with h; subst h; exact hs
  · rename_i c rest _
    have h' : P { s with pending := rest } := hP.same (s := s) ⟨rfl, rfl, rfl⟩ hs
    exact hP.did (exec_cases h) h'

/-! ### The invariants after reset -/

theorem reset_slot (i : SlotIx) : State.reset.slot i = TitleSlot.empty := by
  simp [State.slot, State.reset]

theorem reset_clockOk : State.reset.ClockOk := fun _ h => by cases h

theorem reset_monOk : State.reset.MonOk where
  counters k := by
    show (Vector.replicate 10 0)[k.val] ≤ _
    rw [Vector.getElem_replicate]; exact Nat.zero_le _
  window := by decide
  deadline := by decide
  normal _ := rfl
  alarm h := by cases h
  flag h := by cases h

theorem reset_idleOk : State.reset.IdleOk := fun i _ => reset_slot i

theorem reset_numbersOk : State.reset.NumbersOk :=
  ⟨fun i h => absurd (by rw [reset_slot i]; rfl) h, fun i _ h => absurd (by rw [reset_slot i]; rfl) h⟩

theorem reset_framesOk : State.reset.FramesOk :=
  ⟨List.Pairwise.nil, fun _ h => absurd h List.not_mem_nil, fun _ => Nat.zero_le _⟩

theorem reset_tableOk : State.reset.TableOk :=
  ⟨List.nodup_nil, fun _ h => absurd h List.not_mem_nil, fun h => absurd h List.not_mem_nil⟩

theorem reset_mapOk : State.reset.MapOk := ⟨List.Pairwise.nil, fun _ h => absurd h List.not_mem_nil⟩

/-! ### The invariants are kept -/

theorem slotsOk_kept : KeptByMoves fun s => s.IdleOk ∧ s.NumbersOk where
  reset := ⟨reset_idleOk, reset_numbersOk⟩
  same h := SlotsChange.keeps (.same h.slots)
  move h := h.slots.keeps

theorem framesOk_kept : KeptByMoves State.FramesOk where
  reset := reset_framesOk
  same h := FramesChange.keeps (.same h.frames)
  move h := h.frames.keeps

theorem tableOk_kept : KeptByMoves State.TableOk where
  reset := reset_tableOk
  same h := TagsChange.keeps (.fewer (by rw [h.tags]))
  move h := h.tags.keeps

/-- Settles O5: every step is moves, a reset, or moves after a nonce is drawn, and each single move keeps each block. -/
theorem blocksKept : Obligations.BlocksKept :=
  ⟨fun _ _ hi hn h => slotsOk_kept.step ⟨hi, hn⟩ h, fun _ _ hs h => framesOk_kept.step hs h,
    fun _ _ hs h => tableOk_kept.step hs h⟩

/-- Settles O10: after reset every block is empty and the monitor has its defaults. -/
theorem resetMeetsTheInvariants : Obligations.ResetMeetsTheInvariants :=
  ⟨reset_clockOk, reset_monOk, reset_idleOk, reset_numbersOk, reset_framesOk, reset_tableOk, reset_mapOk⟩

end Sys2Proof.Machine
end

section
/-!
SUPPORT. The hard reset and its release, and that every other command acts through `act`, which does nothing while
RESET_N is asserted (R95, R204).
-/

namespace Sys2Proof.Machine

/-- Every well-formed command but the two of RESET_N acts through `act`. -/
theorem exec_eq_act {c : Instr} (s : State) (hw : c.WellFormed = true) (h1 : c ≠ .hardReset) (h2 : c ≠ .resetRelease) :
    ∃ f, exec c s = act s f := by
  cases c with
  | hardReset => exact absurd rfl h1
  | resetRelease => exact absurd rfl h2
  | hostRead t l n => exact ⟨_, if_pos (c := countOk n = true) hw⟩
  | hostWrite t l n => exact ⟨_, if_pos (c := countOk n = true) hw⟩
  | deallocateRangeSector rs => exact ⟨_, if_pos (c := rangesOk rs = true) hw⟩
  | pass t w d => exact ⟨_, if_pos (c := passOk d = true) hw⟩
  | unitReceived d => exact ⟨_, if_pos (c := transferOk d = true) hw⟩
  | unitTaken d => exact ⟨_, if_pos (c := transferOk d = true) hw⟩
  | drivePushUnit t => exact ⟨fun s => pump (pushUnit t s), rfl⟩
  | readRunComplete t => exact ⟨fun s => pump (readRunEnds t s), rfl⟩
  | mergeReadComplete t => exact ⟨fun s => pump (mergeReadEnds t s), rfl⟩
  | writeRunComplete t => exact ⟨fun s => pump (writeRunEnds t s), rfl⟩
  | driveFlushComplete t good => exact ⟨fun s => pump (flushEnds t good s), rfl⟩
  | deallocateComplete t good => exact ⟨fun s => pump (deallocateEnds t good s), rfl⟩
  | passComplete t good => exact ⟨fun s => pump (passEnds t good s), rfl⟩
  | unitPulled => exact ⟨fun s => pump (unitGone s), rfl⟩
  | unitDelivered => exact ⟨fun s => pump (deliverUnit s), rfl⟩
  | hostTransferEnd => exact ⟨fun s => pump (transferEnds s), rfl⟩
  | jobEnd l => exact ⟨fun s => pump (laneEnds l s), rfl⟩
  | serviceReadComplete t unit => exact ⟨fun s => pump (serviceReadEnds t unit s), rfl⟩
  | serviceWriteComplete t good => exact ⟨fun s => pump (serviceWriteEnds t good s), rfl⟩
  | unknownCommandCode =>
    exact ⟨fun s => match s.handedRecord (fun c => decide (c = 0) || decide (20 < c)) with
      | some _ => pump (finishControl .badParam .none s)
      | none => s, rfl⟩
  | _ => exact ⟨_, rfl⟩

/-- The counters after a hard reset are zero. -/
theorem reset_counter (k : Fin 10) : State.reset.mon.counters[k] = 0 := by
  show (Vector.replicate 10 0)[k.val] = 0
  rw [Vector.getElem_replicate]

/-- HARD_RESET: every block as `State.reset`. -/
theorem exec_hardReset (s : State) : exec .hardReset s = .next
    { State.reset with draws := s.draws, stamp := s.stamp, freeReads := s.freeReads, pending := s.pending } := rfl

/-- RESET_RELEASE while RESET_N is asserted. -/
theorem exec_resetRelease {s : State} (h : s.inReset = true) : exec .resetRelease s = .next { s with
    inReset := false, phase := .starting, host := { s.host with up := true },
    drive := { s.drive with link := .up, asking := true },
    win := { s.win with nonce := Config.nonce s.draws }, draws := s.draws + 1, out := [.identityRequest] } := by
  change execResetRelease s = _
  unfold execResetRelease
  rw [if_pos h]
  rfl

/-- Settles O12, by the model's hard reset, and because every other command acts through `act`. -/
theorem resetAndRelease : Obligations.ResetAndRelease := by
  refine ⟨fun s => ⟨_, exec_hardReset s, ?_⟩, fun s h => exec_resetRelease h, fun s h => ?_, fun c s hr hw h1 h2 => ?_⟩
  · refine ⟨rfl, rfl, rfl, rfl, rfl, reset_slot, rfl, rfl, rfl, rfl, rfl, rfl, rfl, rfl, rfl, rfl, rfl, rfl, rfl, rfl,
      rfl, rfl, rfl, rfl, rfl, rfl, rfl, rfl, rfl, rfl, rfl, rfl, rfl, rfl, rfl, rfl, rfl, rfl, reset_counter, ?_⟩
    exact ⟨rfl, rfl, rfl, rfl, rfl, rfl, rfl, rfl, rfl, rfl, rfl, rfl, rfl, rfl⟩
  · change execResetRelease s = _
    unfold execResetRelease
    rw [if_neg (by rw [h]; exact Bool.false_ne_true)]
    rfl
  · obtain ⟨f, hf⟩ := exec_eq_act s hw h1 h2
    rw [hf]
    exact act_inReset s f hr

end Sys2Proof.Machine
end

section
/-!
SUPPORT. The control window's commands on a slot: what a command whose record passes checks 1 to 6 runs, its answer, the
requests to the catalogue controller that leave everything but that controller's work alone, and the step into DRAINING
(R5 to R11, R149, R193, R195).
-/

namespace Sys2Proof.Machine

/-! ### Slots written twice -/

theorem State.setSlot_setSlot (s : State) (i : SlotIx) (x y : TitleSlot) :
    (s.setSlot i x).setSlot i y = s.setSlot i y := by
  simp [State.setSlot, Vector.set_set]

theorem State.modSlot_eq (s : State) (i : SlotIx) (f : TitleSlot → TitleSlot) :
    s.modSlot i f = s.setSlot i (f (s.slot i)) := rfl

theorem State.modSlot_setSlot (s : State) (i : SlotIx) (x : TitleSlot) (f : TitleSlot → TitleSlot) :
    (s.setSlot i x).modSlot i f = s.setSlot i (f x) := by
  rw [State.modSlot_eq, State.slot_setSlot_same, State.setSlot_setSlot]

/-! ### The record in hand (R193, R195) -/

theorem slotOfNat_val {n : Nat} {i : SlotIx} (h : n = i.val) : slotOfNat n = some i := by
  subst h; unfold slotOfNat; rw [dif_pos i.isLt]

theorem slotOk_of_recSlot {r : Sector} {i : SlotIx} (h : recSlot r = i.val) : slotOk r = true := by
  unfold slotOk; rw [slotOfNat_val h]; rfl

theorem handedRecord_eq {s : State} {tag : Option HostTag} {r : Sector} {p : Nat → Bool}
    (h : s.handed tag r) (hp : p (recCode r) = true) : s.handedRecord p = some r := by
  unfold State.handed at h
  unfold State.handedRecord
  rw [h]
  exact if_pos ⟨rfl, hp⟩

theorem State.base_of_authorised {s : State} {row : ControlRow} (h : row.authorised = true) :
    s.base row = s.accepted := if_pos h

theorem State.base_of_open {s : State} {row : ControlRow} (h : row.authorised = false) :
    s.base row = s.quiet := if_neg (by rw [h]; exact Bool.false_ne_true)

theorem State.base_rest (s : State) (row : ControlRow) : s.base row =
    { s with out := [], win := { s.win with nonce := (s.base row).win.nonce }, draws := (s.base row).draws } := by
  cases h : row.authorised
  · rw [State.base_of_open h]; rfl
  · rw [State.base_of_authorised h]; rfl

theorem State.base_slots (s : State) (row : ControlRow) : (s.base row).slots = s.slots := by rw [State.base_rest]
theorem State.base_slot (s : State) (row : ControlRow) (i : SlotIx) : (s.base row).slot i = s.slot i := by
  unfold State.slot; rw [State.base_slots]
theorem State.base_mon (s : State) (row : ControlRow) : (s.base row).mon = s.mon := by rw [State.base_rest]
theorem State.base_phase (s : State) (row : ControlRow) : (s.base row).phase = s.phase := by rw [State.base_rest]
theorem State.base_executing (s : State) (row : ControlRow) : (s.base row).win.executing = s.win.executing := by
  rw [State.base_rest]

theorem State.base_numberHeld (s : State) (row : ControlRow) (i : SlotIx) (n : Nat) :
    (s.base row).numberHeld i n = s.numberHeld i n := by
  unfold State.numberHeld; simp only [State.base_slot]

/-- A record that passes checks 1 to 6 has its command's body executed, on the state that check 3 leaves (R195, R196). -/
theorem act_runControl {row : ControlRow} {ok : Sector → State → Bool} {body : Sector → State → State} {s : State}
    {tag : Option HostTag} {r : Sector} (h : s.Passes row tag r) (hok : ok r (s.base row) = true) :
    act s (runControl row ok body) = .next (pump (body r (s.base row))) := by
  have hin : s.quiet.handedRecord (fun c => decide (c = row.code)) = some r :=
    handedRecord_eq h.handed (decide_eq_true h.code)
  have hauth : authorise row (checkRecord row ok body) r s.quiet = checkRecord row ok body r (s.base row) := by
    unfold authorise
    cases ha : row.authorised
    · rw [if_neg Bool.false_ne_true, State.base_of_open ha]
    · obtain ⟨hn, hc⟩ := h.authentic ha
      rw [if_pos rfl, if_neg (fun e => e hn), if_neg (fun e => e hc), State.base_of_authorised ha]
      rfl
  have hlock : ¬ ((s.base row).mon.state = .lockdown ∧ row.inLockdown = false) := by
    rw [State.base_mon]; exact fun e => h.monitor e.2 e.1
  have hphase : ¬ ((s.base row).phase ≠ .ready ∧ row.inUnformatted = false) := by
    rw [State.base_phase]; exact fun e => e.1 (h.phase e.2)
  rw [act_running s _ h.running]
  unfold runControl
  rw [hin]
  show Host.Outcome.next (pump (authorise row (checkRecord row ok body) r s.quiet)) = _
  rw [hauth]
  unfold checkRecord
  rw [if_neg hlock, if_neg hphase, if_neg (by rw [hok]; exact Bool.true_eq_false.mp)]

/-- The body of a command on slot i (R195, check 6). -/
theorem withSlot_eq {f : SlotIx → Sector → State → State} {r : Sector} {i : SlotIx} (s : State)
    (h : recSlot r = i.val) : withSlot f r s = f i r s := by
  unfold withSlot; rw [slotOfNat_val h]

/-- The body of a command on an ACTIVE slot (R5). -/
theorem needActive_active {f : SlotIx → Sector → State → State} {r : Sector} {i : SlotIx} {s : State}
    (hp : (s.slot i).phase = .active) : needActive f i r s = f i r s := by
  unfold needActive; rw [hp]

/-- The answer to a command on a slot that is not ACTIVE (R5). -/
theorem needActive_busy {f : SlotIx → Sector → State → State} {r : Sector} {i : SlotIx} {s : State}
    (h1 : (s.slot i).phase ≠ .idle) (h2 : (s.slot i).phase ≠ .active) : needActive f i r s = fail .slotBusy s := by
  unfold needActive
  cases hp : (s.slot i).phase with
  | idle => exact absurd hp h1
  | active => exact absurd hp h2
  | _ => rfl

theorem needActive_idle {f : SlotIx → Sector → State → State} {r : Sector} {i : SlotIx} {s : State}
    (h : (s.slot i).phase = .idle) : needActive f i r s = fail .state s := by
  unfold needActive; rw [h]

/-- An active slot's command runs f on the state that the checks leave. -/
theorem act_activeCommand {row : ControlRow} {ok : Sector → State → Bool} {f : SlotIx → Sector → State → State}
    {s : State} {tag : Option HostTag} {r : Sector} {i : SlotIx} (h : s.Passes row tag r)
    (hok : ok r (s.base row) = true) (hi : recSlot r = i.val) (hp : (s.slot i).phase = .active) :
    act s (runControl row ok (withSlot (needActive f))) = .next (pump (f i r (s.base row))) := by
  rw [act_runControl h hok, withSlot_eq _ hi, needActive_active (by rw [State.base_slot]; exact hp)]

/-- The three tests of a command that opens a slot, passed (R5, R6). -/
theorem needIdle_passes {lo hi n : Nat} {f : SlotIx → Sector → State → State} {i : SlotIx} {r : Sector} {s : State}
    (hp : (s.slot i).phase = .idle) (h1 : lo ≤ n) (h2 : n ≤ hi)
    (hf : ∀ k, k ≠ i → (s.slot k).phase = .idle ∨ (s.slot k).number ≠ some n) :
    needIdle lo hi n f i r s = f i r s := by
  unfold needIdle
  rw [if_neg (fun e => e hp), if_neg (by omega), numberHeld_false.mpr hf, if_neg Bool.false_ne_true]

/-! ### The answer (R193, R198) -/

/-- A finished command is answered, whatever stage it was at. -/
theorem answered_finishControl {s : State} {tag : Option HostTag} {r : Sector} {st : Stage} (x : Result) (d : Details)
    (h : s.waiting tag r st) : s.Answered (finishControl x d s) tag r x d := by
  unfold State.waiting at h
  unfold finishControl
  rw [h]
  cases tag with
  | none => exact ⟨rfl, by simp, by simp, rfl⟩
  | some t =>
    refine ⟨rfl, rfl, ?_, rfl⟩
    show s.table.map _ = _
    refine List.map_congr_left fun c _ => ?_
    by_cases e : c.tag = t
    · rw [if_pos e, if_pos (congrArg some e.symm)]
    · rw [if_neg e, if_neg fun e' => e (Option.some.inj e').symm]

/-- The command waits where the window says so, whatever else of the state has changed. -/
theorem State.waiting_of_executing {s u : State} {tag : Option HostTag} {r : Sector} {st : Stage}
    (h : s.waiting tag r st) (e : u.win.executing = s.win.executing) : u.waiting tag r st := e.trans h

theorem State.Passes.waiting_base {s : State} {row : ControlRow} {tag : Option HostTag} {r : Sector}
    (h : s.Passes row tag r) : (s.base row).waiting tag r .handed := (State.base_executing s row).trans h.handed

/-- The command in hand goes on to wait at a stage. -/
theorem setStage_eq_staged {s : State} {tag : Option HostTag} {r : Sector} {st0 : Stage} (st : Stage)
    (h : s.waiting tag r st0) : setStage st s = s.staged tag r st := by
  unfold setStage; rw [show s.win.executing = some ⟨tag, r, st0⟩ from h]; rfl

theorem State.staged_waiting (s : State) (tag : Option HostTag) (r : Sector) (st : Stage) :
    (s.staged tag r st).waiting tag r st := rfl

/-! ### The catalogue controller's work up to the drive (R149 to R151) -/

namespace State.ServiceWork

theorem refl (s : State) : s.ServiceWork s := ⟨rfl, rfl, rfl⟩

theorem trans {s t u : State} (h : s.ServiceWork t) (k : t.ServiceWork u) : s.ServiceWork u := by
  obtain ⟨h1, h2, h3⟩ := h
  obtain ⟨k1, k2, k3⟩ := k
  refine ⟨?_, ?_, ?_⟩
  · rw [k1, h1]
  · rw [k2, h2]
  · rw [k3, h3]

theorem slots {s u : State} (h : s.ServiceWork u) : u.slots = s.slots := by rw [h.rest]
theorem map {s u : State} (h : s.ServiceWork u) : u.map = s.map := by rw [h.rest]
theorem win {s u : State} (h : s.ServiceWork u) : u.win = s.win := by rw [h.rest]
theorem host {s u : State} (h : s.ServiceWork u) : u.host = s.host := by rw [h.rest]
theorem table {s u : State} (h : s.ServiceWork u) : u.table = s.table := by rw [h.rest]
theorem mon {s u : State} (h : s.ServiceWork u) : u.mon = s.mon := by rw [h.rest]
theorem clock {s u : State} (h : s.ServiceWork u) : u.clock = s.clock := by rw [h.rest]
theorem phase {s u : State} (h : s.ServiceWork u) : u.phase = s.phase := by rw [h.rest]
theorem draws {s u : State} (h : s.ServiceWork u) : u.draws = s.draws := by rw [h.rest]
theorem out {s u : State} (h : s.ServiceWork u) : u.out = s.out := by rw [h.rest]
theorem buffer {s u : State} (h : s.ServiceWork u) : u.buffer = s.buffer := by rw [h.rest]
theorem header {s u : State} (h : s.ServiceWork u) : u.cat.header = s.cat.header := by rw [h.cat]
theorem progress {s u : State} (h : s.ServiceWork u) : u.cat.progress = s.cat.progress := by rw [h.cat]
theorem sweeping {s u : State} (h : s.ServiceWork u) : u.cat.sweeping = s.cat.sweeping := by rw [h.cat]
theorem erased {s u : State} (h : s.ServiceWork u) : u.cat.erased = s.cat.erased := by rw [h.cat]

theorem slot {s u : State} (h : s.ServiceWork u) (i : SlotIx) : u.slot i = s.slot i := by
  unfold State.slot; rw [h.slots]

end State.ServiceWork

theorem serviceWork_joinQueue (e : DriveCmd) (s : State) : s.ServiceWork (joinQueue e s) := ⟨rfl, rfl, rfl⟩

theorem serviceWork_modFlight (t : SvcTag) (f : Flight → Flight) (s : State) : s.ServiceWork (s.modFlight t f) :=
  ⟨rfl, rfl, rfl⟩

theorem serviceWork_setKnownGen (i : Nat) (g : Option Nat) (s : State) : s.ServiceWork (setKnownGen i g s) :=
  ⟨rfl, rfl, rfl⟩

theorem serviceWork_takeClaim (i : Nat) (o : SvcOwner) (s : State) : s.ServiceWork (takeClaim i o s) := ⟨rfl, rfl, rfl⟩

theorem serviceWork_dropClaims (o : SvcOwner) (s : State) : s.ServiceWork (dropClaims o s) := ⟨rfl, rfl, rfl⟩

theorem submitJob_rest (j : Job) (s : State) : submitJob j s = { s with lanes := (submitJob j s).lanes } := by
  unfold submitJob; split <;> rfl

theorem serviceWork_submitJob (j : Job) (s : State) : s.ServiceWork (submitJob j s) := by
  rw [submitJob_rest]; exact ⟨rfl, rfl, rfl⟩

theorem serviceWork_formRecord (t : SvcTag) (x : DiskUnit) (tw : Tweak) (s : State) :
    s.ServiceWork (formRecord t x tw s) := (serviceWork_modFlight _ _ _).trans (serviceWork_submitJob _ _)

theorem serviceWork_formTitle (t : SvcTag) (i : Nat) (x : TitleFields) (s : State) :
    s.ServiceWork (formTitle t i x s) := (serviceWork_setKnownGen _ _ _).trans (serviceWork_formRecord _ _ _ _)

theorem serviceWork_beginFlight (f : Flight) (s : State) : s.ServiceWork (beginFlight f s) := by
  unfold beginFlight
  split
  · exact serviceWork_joinQueue _ _
  · exact serviceWork_joinQueue _ _
  · exact serviceWork_formTitle _ _ _ _
  · exact serviceWork_formTitle _ _ _ _
  · exact serviceWork_formRecord _ _ _ _

theorem serviceWork_takeTags : ∀ (n : Nat) (s : State), s.ServiceWork (takeTags n s)
  | 0, s => .refl s
  | n + 1, s => by
    unfold takeTags
    split
    · refine State.ServiceWork.trans ?_ (serviceWork_takeTags n _)
      refine State.ServiceWork.trans ?_ (serviceWork_beginFlight _ _)
      exact ⟨rfl, rfl, rfl⟩
    · exact .refl s

theorem serviceWork_requestOp (k : SvcKind) (o : SvcOwner) (ext : Option (List RecExtent)) (s : State) :
    s.ServiceWork (requestOp k o ext s) := by
  refine State.ServiceWork.trans ?_ (serviceWork_takeTags 4 _)
  exact ⟨rfl, rfl, rfl⟩

theorem serviceWork_endFlight (t : SvcTag) (s : State) : s.ServiceWork (endFlight t s) := by
  refine State.ServiceWork.trans ?_ (serviceWork_takeTags 4 _)
  exact ⟨rfl, rfl, rfl⟩

theorem serviceWork_claimAndLoad (k : SlotIx) (i : Nat) (s : State) : s.ServiceWork (claimAndLoad k i s) := by
  unfold claimAndLoad
  split
  · exact .refl s
  · exact (serviceWork_takeClaim _ _ _).trans (serviceWork_requestOp _ _ _ _)

/-- The catalogue controller's work goes on below a change of the window's stage. -/
theorem State.ServiceWork.staged {s u : State} {tag : Option HostTag} {r : Sector} {st0 : Stage} (st : Stage)
    (h : s.ServiceWork u) (hw : s.waiting tag r st0) : (s.staged tag r st).ServiceWork (setStage st u) := by
  have hu : u.waiting tag r st0 := State.waiting_of_executing hw (by rw [h.win])
  rw [setStage_eq_staged st hu]
  obtain ⟨h1, h2, h3⟩ := h
  refine ⟨?_, h2, h3⟩
  conv_lhs => rw [h1]
  rfl

/-! ### Operations asked for -/

/-- The operations that wait or are in flight (R149). -/
def State.ops (s : State) : List SvcOp := s.cat.queue ++ s.cat.flights.map (·.op)

theorem State.asks_iff {s : State} {k : SvcKind} {o : SvcOwner} :
    s.asks k o ↔ ∃ op ∈ s.ops, op.kind = k ∧ op.owner = o := by
  unfold State.asks State.ops
  constructor
  · rintro (⟨op, hop, h⟩ | ⟨f, hf, h⟩)
    · exact ⟨op, List.mem_append_left _ hop, h⟩
    · exact ⟨f.op, List.mem_append_right _ (List.mem_map.mpr ⟨f, hf, rfl⟩), h⟩
  · rintro ⟨op, hop, h⟩
    rcases List.mem_append.mp hop with hop | hop
    · exact .inl ⟨op, hop, h⟩
    · obtain ⟨f, hf, e⟩ := List.mem_map.mp hop
      exact .inr ⟨f, hf, by rw [e]; exact h⟩

theorem modFlight_ops_map (s : State) (t : SvcTag) (f : Flight → Flight) (hf : ∀ x, (f x).op = x.op) :
    (s.modFlight t f).cat.flights.map (·.op) = s.cat.flights.map (·.op) := by
  simp only [State.modFlight, List.map_map]
  refine List.map_congr_left fun x _ => ?_
  simp only [Function.comp_apply]
  split <;> [exact hf x; rfl]

/-- The forming of a record and a drive command leave queue and flights as they are. -/
theorem beginFlight_ops (f : Flight) (s : State) : (beginFlight f s).cat.queue = s.cat.queue ∧
    (beginFlight f s).cat.flights.map (·.op) = s.cat.flights.map (·.op) := by
  have form : ∀ (t : SvcTag) (x : DiskUnit) (tw : Tweak) (s : State), (formRecord t x tw s).cat.queue = s.cat.queue ∧
      (formRecord t x tw s).cat.flights.map (·.op) = s.cat.flights.map (·.op) := by
    intro t x tw s
    unfold formRecord
    rw [submitJob_rest]
    exact ⟨rfl, modFlight_ops_map s t _ fun _ => rfl⟩
  unfold beginFlight
  split
  · exact ⟨rfl, rfl⟩
  · exact ⟨rfl, rfl⟩
  · exact form _ _ _ _
  · exact form _ _ _ _
  · exact form _ _ _ _

/-- Operations that take their tags stay asked for. -/
theorem takeTags_ops : ∀ (n : Nat) (s : State), (takeTags n s).ops.Perm s.ops
  | 0, _ => .refl _
  | n + 1, s => by
    unfold takeTags
    split
    · rename_i op rest t hq _
      refine (takeTags_ops n _).trans ?_
      obtain ⟨h1, h2⟩ := beginFlight_ops { tag := t, op := op }
        { s with cat := { s.cat with queue := rest, flights := s.cat.flights ++ [{ tag := t, op := op }] } }
      unfold State.ops
      rw [h1, h2, hq]
      simp only [List.map_append, List.map_cons, List.map_nil, List.cons_append]
      rw [← List.append_assoc]
      exact (List.perm_append_comm (l₂ := [op]))
    · exact .refl _

/-- A requested operation waits or is in flight. -/
theorem asks_requestOp (k : SvcKind) (o : SvcOwner) (ext : Option (List RecExtent)) (s : State) :
    (requestOp k o ext s).asks k o := by
  rw [State.asks_iff]
  refine ⟨{ num := s.stamp, kind := k, owner := o, extents := ext }, ?_, rfl, rfl⟩
  unfold requestOp
  refine (takeTags_ops 4 _).mem_iff.mpr ?_
  simp [State.ops]

/-! ### Claims (R152) -/

/-- The claims by index and owner, the known generations apart. -/
def State.claimed (s : State) : List (Nat × SvcOwner) := s.cat.claims.map fun c => (c.index, c.owner)

theorem State.mem_claimed {s : State} {i : Nat} {o : SvcOwner} :
    (i, o) ∈ s.claimed ↔ ∃ c ∈ s.cat.claims, c.index = i ∧ c.owner = o := by
  simp [State.claimed]

theorem setKnownGen_claimed (i : Nat) (g : Option Nat) (s : State) : (setKnownGen i g s).claimed = s.claimed := by
  simp only [State.claimed, setKnownGen, List.map_map]
  refine List.map_congr_left fun c _ => ?_
  simp only [Function.comp_apply]
  split <;> rfl

theorem submitJob_cat (j : Job) (s : State) : (submitJob j s).cat = s.cat := by rw [submitJob_rest]

theorem formRecord_claimed (t : SvcTag) (x : DiskUnit) (tw : Tweak) (s : State) :
    (formRecord t x tw s).claimed = s.claimed := by
  unfold formRecord State.claimed; rw [submitJob_cat]; rfl

theorem beginFlight_claimed (f : Flight) (s : State) : (beginFlight f s).claimed = s.claimed := by
  unfold beginFlight
  split
  · rfl
  · rfl
  · exact (formRecord_claimed _ _ _ _).trans (setKnownGen_claimed _ _ _)
  · exact (formRecord_claimed _ _ _ _).trans (setKnownGen_claimed _ _ _)
  · exact formRecord_claimed _ _ _ _

theorem takeTags_claimed : ∀ (n : Nat) (s : State), (takeTags n s).claimed = s.claimed
  | 0, _ => rfl
  | n + 1, s => by
    unfold takeTags
    split
    · exact (takeTags_claimed n _).trans (beginFlight_claimed _ _)
    · rfl

theorem requestOp_claimed (k : SvcKind) (o : SvcOwner) (ext : Option (List RecExtent)) (s : State) :
    (requestOp k o ext s).claimed = s.claimed := takeTags_claimed 4 _

theorem endFlight_claimed (t : SvcTag) (s : State) : (endFlight t s).claimed = s.claimed := takeTags_claimed 4 _

theorem takeClaim_claimed (i : Nat) (o : SvcOwner) (s : State) : (takeClaim i o s).claimed = s.claimed ++ [(i, o)] := by
  simp [State.claimed, takeClaim]

theorem dropClaims_claimed (o : SvcOwner) (s : State) :
    (dropClaims o s).claimed = s.claimed.filter fun c => decide (c.2 ≠ o) := by
  simp only [State.claimed, dropClaims, List.filter_map]; rfl

/-- A slot in LOADING claims its index and asks for its LOAD where nobody claims the index (R152). -/
theorem claimAndLoad_asks {k : SlotIx} {i : Nat} {s : State} (h : s.claim? i = none) :
    (claimAndLoad k i s).asks (.load i) (.slot k) ∧
    ∃ x ∈ (claimAndLoad k i s).cat.claims, x.index = i ∧ x.owner = .slot k := by
  unfold claimAndLoad
  rw [h]
  refine ⟨asks_requestOp _ _ _ _, State.mem_claimed.mp ?_⟩
  show (i, SvcOwner.slot k) ∈ (requestOp (.load i) (.slot k) none (takeClaim i (.slot k) s)).claimed
  rw [requestOp_claimed, takeClaim_claimed]
  exact List.mem_append_right _ (List.mem_singleton_self _)

/-- It waits for an index that another owner claims (R152). -/
theorem claimAndLoad_waits {k : SlotIx} {i : Nat} {s : State} (h : s.claim? i ≠ none) : claimAndLoad k i s = s := by
  unfold claimAndLoad
  split
  · rfl
  · contradiction

theorem State.asks_setStage {s : State} {k : SvcKind} {o : SvcOwner} (st : Stage) (h : s.asks k o) :
    (setStage st s).asks k o := by
  unfold setStage
  split
  · exact h
  · exact h

/-! ### Title slots: stores and drains (R10, R11, R21) -/

/-- A change of a slot that is stored: the request for the store, of the slot with its change. -/
theorem changeAndStore_eq (i : SlotIx) (n : Nat) (f : TitleSlot → TitleSlot) (s : State) :
    changeAndStore i n f s = requestOp (.store ((f (s.slot i)).number.getD 0)) (.slot i) none
      (s.setSlot i { f (s.slot i) with lastChanger := n, dirty := true, storeInFlight := true }) := by
  unfold changeAndStore requestStore
  rw [State.modSlot_eq s, State.modSlot_setSlot, State.slot_setSlot_same]

theorem requestStore_eq (i : SlotIx) (s : State) : requestStore i s =
    requestOp (.store ((s.slot i).number.getD 0)) (.slot i) none
      (s.setSlot i { s.slot i with storeInFlight := true }) := rfl

/-- A slot with a piece or a store in flight stays in DRAINING (R11). -/
theorem drainTest_stays {i : SlotIx} {s : State} (h : (s.slot i).inFlight ≠ 0 ∨ (s.slot i).storeInFlight = true) :
    drainTest i s = s := by
  unfold drainTest
  refine if_neg fun ⟨_, h1, h2⟩ => ?_
  rcases h with h | h
  · exact h h1
  · rw [h2] at h; cases h

/-- A slot that is not in DRAINING makes no test (R11). -/
theorem drainTest_of_phase {i : SlotIx} {s : State} (h : (s.slot i).phase ≠ .draining) : drainTest i s = s :=
  if_neg fun e => h e.1

/-- A slot in DRAINING with nothing in flight leaves it (R11). -/
theorem drainTest_leaves {i : SlotIx} {s : State} (h : (s.slot i).phase = .draining) (h1 : (s.slot i).inFlight = 0)
    (h2 : (s.slot i).storeInFlight = false) : drainTest i s = leaveDraining i s := if_pos ⟨h, h1, h2⟩

/-- The step into DRAINING of a slot with a piece or a store in flight (R10). -/
theorem startDrain_stays {i : SlotIx} {why : DrainReason} {s : State}
    (h : (s.slot i).inFlight ≠ 0 ∨ (s.slot i).storeInFlight = true) :
    startDrain i why s = s.setSlot i { s.slot i with phase := .draining, drain := some why } := by
  unfold startDrain
  rw [State.modSlot_eq]
  exact drainTest_stays (by rw [State.slot_setSlot_same]; exact h)

/-- The step into DRAINING of a slot with nothing in flight: it leaves at once (R10, R11). -/
theorem startDrain_leaves {i : SlotIx} {why : DrainReason} {s : State} (h1 : (s.slot i).inFlight = 0)
    (h2 : (s.slot i).storeInFlight = false) :
    startDrain i why s = leaveDraining i (s.setSlot i { s.slot i with phase := .draining, drain := some why }) := by
  unfold startDrain
  rw [State.modSlot_eq]
  exact drainTest_leaves (by rw [State.slot_setSlot_same]) (by rw [State.slot_setSlot_same]; exact h1)
    (by rw [State.slot_setSlot_same]; exact h2)

/-- The three ways out of DRAINING: straight to IDLE. -/
theorem leaveDraining_idle {i : SlotIx} {s : State} (h : (s.slot i).kind ≠ some .recording ∨
    ((s.slot i).drain = some .closed ∧ (s.slot i).dirty = false)) :
    leaveDraining i s =
      answer .idle i .ok (enterIdle i { s with map := s.map.filter fun e => decide (e.slot ≠ i) }) := by
  unfold leaveDraining
  rcases hk : (s.slot i).kind with _ | _ | _
  · simp only [hk]
  · rcases h with h | ⟨hd, hdirty⟩
    · exact absurd hk h
    · simp only [hk, hd, hdirty, Bool.false_eq_true, if_false]
  · simp only [hk]

/-- By a last store (R11, R153). -/
theorem leaveDraining_store {i : SlotIx} {s : State} (hk : (s.slot i).kind = some .recording)
    (hd : (s.slot i).drain = some .closed) (h : (s.slot i).dirty = true) :
    leaveDraining i s = requestOp (.store ((s.slot i).number.getD 0)) (.slot i) (some (recordExtents s.map i))
      (({ s with map := s.map.filter fun e => decide (e.slot ≠ i) } : State).setSlot i
        { s.slot i with phase := .storing }) := by
  unfold leaveDraining
  dsimp only
  split
  · rw [if_pos h]; rfl
  · rename_i hne; exact (hne hd).elim
  · rename_i hne; exact (hne hk hd).elim

/-- By the erase of the record (R11). -/
theorem leaveDraining_erase {i : SlotIx} {s : State} (hk : (s.slot i).kind = some .recording)
    (hd : (s.slot i).drain ≠ some .closed) :
    leaveDraining i s = requestOp (.erase ((s.slot i).number.getD 0)) (.slot i) none
      (({ s with map := s.map.filter fun e => decide (e.slot ≠ i) } : State).setSlot i
        { s.slot i with phase := .erasing, key := none, retired := none }) := by
  unfold leaveDraining
  dsimp only
  split
  · rename_i hc; exact absurd hc hd
  · rfl
  · rename_i hne _; exact (hne hk).elim

theorem waitsAt_of_waiting {s : State} {tag : Option HostTag} {r : Sector} {st : Stage} {i : SlotIx}
    (h : s.waiting tag r st) (hi : recSlot r = i.val) : s.waitsAt st i = true := by
  unfold State.waitsAt; rw [show s.win.executing = some ⟨tag, r, st⟩ from h]; simp [hi]

theorem answer_of_waiting {s : State} {tag : Option HostTag} {r : Sector} {st : Stage} {i : SlotIx} (x : Result)
    (h : s.waiting tag r st) (hi : recSlot r = i.val) : answer st i x s = finishControl x .none s :=
  if_pos (waitsAt_of_waiting h hi)

end Sys2Proof.Machine
end

section
/-!
The control commands on titles: which test or body each runs, and the statements about them.
-/

namespace Sys2Proof.Machine

/-! ### The tests of R5 and R6 -/

/-- The commands on an open title run their body behind the test of R5. -/
theorem exec_activeCommand {j : Instr} {row : ControlRow} (hm : (j, row) ∈ controlRows) (h4 : 4 ≤ row.code)
    (h14 : row.code ≤ 14) :
    ∃ ok f, (∀ s, exec j s = act s (runControl row ok (withSlot (needActive f)))) ∧
      ∀ r u, slotOk r = true → (row.code = 9 → rightsFields r u = true) → ok r u = true := by
  simp only [controlRows, List.mem_cons, Prod.mk.injEq, List.not_mem_nil, or_false] at hm
  rcases hm with ⟨rfl, rfl⟩ | ⟨rfl, rfl⟩ | ⟨rfl, rfl⟩ | ⟨rfl, rfl⟩ | ⟨rfl, rfl⟩ | ⟨rfl, rfl⟩ | ⟨rfl, rfl⟩ | ⟨rfl, rfl⟩ |
    ⟨rfl, rfl⟩ | ⟨rfl, rfl⟩ | ⟨rfl, rfl⟩ | ⟨rfl, rfl⟩ | ⟨rfl, rfl⟩ | ⟨rfl, rfl⟩ | ⟨rfl, rfl⟩ | ⟨rfl, rfl⟩ | ⟨rfl, rfl⟩ |
    ⟨rfl, rfl⟩ | ⟨rfl, rfl⟩ | ⟨rfl, rfl⟩
  · exact absurd h4 (by decide)
  · exact absurd h4 (by decide)
  · exact absurd h4 (by decide)
  · exact ⟨slotField, attachTests, fun _ => rfl, fun _ _ h _ => h⟩
  · exact ⟨slotField, sealSlot, fun _ => rfl, fun _ _ h _ => h⟩
  · exact ⟨slotField, syncSlot, fun _ => rfl, fun _ _ h _ => h⟩
  · exact ⟨slotField, closeSlot, fun _ => rfl, fun _ _ h _ => h⟩
  · exact ⟨slotField, deleteSlot, fun _ => rfl, fun _ _ h _ => h⟩
  · exact ⟨rightsFields, rightsSlot, fun _ => rfl, fun _ _ _ h => h rfl⟩
  · exact ⟨slotField, ringEmptySlot, fun _ => rfl, fun _ _ h _ => h⟩
  · exact ⟨slotField, resumeSlot, fun _ => rfl, fun _ _ h _ => h⟩
  · exact ⟨slotField, moveBeginSlot, fun _ => rfl, fun _ _ h _ => h⟩
  · exact ⟨slotField, moveCommitSlot, fun _ => rfl, fun _ _ h _ => h⟩
  · exact ⟨slotField, moveCancelSlot, fun _ => rfl, fun _ _ h _ => h⟩
  all_goals exact absurd h14 (by decide)

/-- The commands that open a slot run their body behind the tests of R5 and R6. -/
theorem exec_openingCommand {j : Instr} {row : ControlRow} (hm : (j, row) ∈ controlRows) (h3 : row.code ≤ 3) :
    ∃ ok f, (∀ s, exec j s = act s (runControl row ok (withSlot fun i r s =>
        needIdle (if row.code = 3 then 1024 else 1) (if row.code = 3 then 1031 else 1023) (recNumber r) f i r s))) ∧
      ∀ r u, slotOk r = true → (row.code = 1 → createFields r u = true) →
        (row.code = 3 → createRingFields r u = true) → ok r u = true := by
  simp only [controlRows, List.mem_cons, Prod.mk.injEq, List.not_mem_nil, or_false] at hm
  rcases hm with ⟨rfl, rfl⟩ | ⟨rfl, rfl⟩ | ⟨rfl, rfl⟩ | hm
  · exact ⟨createFields, fun i r s => if recClass r = .never then fail .badParam s else enterLoading i (recNumber r) s,
      fun _ => rfl, fun _ _ _ h _ => h rfl⟩
  · exact ⟨slotField, fun i r s => enterLoading i (recNumber r) s, fun _ => rfl, fun _ _ h _ _ => h⟩
  · exact ⟨createRingFields, createRingTests, fun _ => rfl, fun _ _ _ _ h => h rfl⟩
  · rcases hm with ⟨_, rfl⟩ | ⟨_, rfl⟩ | ⟨_, rfl⟩ | ⟨_, rfl⟩ | ⟨_, rfl⟩ | ⟨_, rfl⟩ | ⟨_, rfl⟩ | ⟨_, rfl⟩ | ⟨_, rfl⟩ |
      ⟨_, rfl⟩ | ⟨_, rfl⟩ | ⟨_, rfl⟩ | ⟨_, rfl⟩ | ⟨_, rfl⟩ | ⟨_, rfl⟩ | ⟨_, rfl⟩ | ⟨_, rfl⟩ <;>
    exact absurd h3 (by decide)

/-- Settles O50, by the tests of R5 and R6 that the commands' bodies stand behind. -/
theorem slotTestsInOrder : Obligations.SlotTestsInOrder := by
  refine ⟨fun j row hm h4 h14 s tag r i hp hi h9 => ?_, fun j row hm h3 s tag r i hp hi h1 h3' => ?_⟩
  · obtain ⟨ok, f, hex, hok⟩ := exec_activeCommand hm h4 h14
    have run : exec j s = .next (pump (needActive f i r (s.base row))) := by
      rw [hex, act_runControl hp (hok r _ (slotOk_of_recSlot hi) h9), withSlot_eq _ hi]
    refine ⟨fun h => ⟨_, ?_, answered_finishControl .state .none hp.waiting_base⟩,
      fun ha hb => ⟨_, ?_, answered_finishControl .slotBusy .none hp.waiting_base⟩⟩
    · rw [run, needActive_idle (by rw [State.base_slot]; exact h)]; rfl
    · rw [run, needActive_busy (by rw [State.base_slot]; exact ha) (by rw [State.base_slot]; exact hb)]; rfl
  · obtain ⟨ok, f, hex, hok⟩ := exec_openingCommand hm h3
    intro lo hi' answered
    have run : exec j s = .next (pump (needIdle lo hi' (recNumber r) f i r (s.base row))) := by
      rw [hex, act_runControl hp (hok r _ (slotOk_of_recSlot hi) h1 h3'), withSlot_eq _ hi]
    have done : ∀ x, needIdle lo hi' (recNumber r) f i r (s.base row) = fail x (s.base row) → answered x :=
      fun x e => ⟨_, by rw [run, e]; rfl, answered_finishControl x .none hp.waiting_base⟩
    refine ⟨fun h => done _ ?_, fun h hn => done _ ?_, fun h hl hh hk => done _ ?_⟩
    · unfold needIdle; rw [if_pos (by rw [State.base_slot]; exact h)]
    · unfold needIdle; rw [if_neg (by rw [State.base_slot]; exact fun e => e h), if_pos hn]
    · have held : (s.base row).numberHeld i (recNumber r) = true := by
        rw [State.base_numberHeld]
        by_contra hf
        obtain ⟨k, hki, hkp, hkn⟩ := hk
        exact (numberHeld_false.mp (Bool.eq_false_iff.mpr hf) k hki).elim hkp fun e => e hkn
      unfold needIdle
      rw [if_neg (by rw [State.base_slot]; exact fun e => e h), if_neg (by omega), if_pos held]

/-! ### CREATE_TITLE and OPEN_TITLE -/

/-- Settles O51: behind the tests of R5 and R6 the bodies enter LOADING and claim the index. -/
theorem loadingEntered : Obligations.LoadingEntered := by
  intro s tag r i hi hidle hn1 hn2 hfree n loading loads
  have go : ∀ (c : Instr) (row : ControlRow) (ok : Sector → State → Bool) (body : Sector → State → State),
      exec c s = act s (runControl row ok body) → s.Passes row tag r → ok r (s.base row) = true →
      body r (s.base row) = enterLoading i n (s.base row) → loads c (s.base row) := by
    intro c row ok body hex hp hok hb
    have hu : enterLoading i n (s.base row) = claimAndLoad i n (loading (s.base row)) := by
      unfold enterLoading
      have hw : ∀ x, ((s.base row).setSlot i x).waiting tag r .handed := fun _ => hp.waiting_base
      rw [setStage_eq_staged .load (hw _)]
      simp only [loading, State.setSlot, State.base_slots, State.staged]
    have hc : (loading (s.base row)).claim? n = s.claim? n := by
      show (s.base row).claim? n = _
      rw [State.base_rest]; rfl
    refine ⟨_, by rw [hex, act_runControl hp hok, hb, hu], serviceWork_claimAndLoad _ _ _, fun h => ?_, fun h => ?_⟩
    · exact claimAndLoad_asks (hc.trans h)
    · exact claimAndLoad_waits (by rw [hc]; exact h)
  have idle : ∀ row f, needIdle 1 1023 n f i r (s.base row) = f i r (s.base row) := fun row f =>
    needIdle_passes (by rw [State.base_slot]; exact hidle) hn1 hn2 (by simpa only [State.base_slot] using hfree)
  refine ⟨fun hp hf => ⟨fun hc => ?_, fun hc => ?_⟩, fun hp => ?_⟩
  · refine go .createTitle { code := 1, authorised := true } createFields createBody rfl hp hf ?_
    unfold createBody
    rw [withSlot_eq _ hi, idle, if_neg hc]
  · refine ⟨_, ?_, answered_finishControl .badParam .none hp.waiting_base⟩
    refine (act_runControl (ok := createFields) (body := createBody) hp hf).trans ?_
    unfold createBody
    rw [withSlot_eq _ hi, idle, if_pos hc]
    rfl
  · refine go .openTitle { code := 2 } slotField openBody rfl hp (slotOk_of_recSlot hi) ?_
    unfold openBody
    rw [withSlot_eq _ hi, idle]

/-! ### CREATE_RING -/

/-- The result of the first test of R47 that fails, check 6 apart. -/
def ringRefusal (r : Sector) (s : State) : Option Result :=
  if ringSize r < 64 ∨ 4194304 < ringSize r then some .badParam
  else if ringLba r % 8 ≠ 0 then some .align
  else if s.windowUnit < ringLba r / 8 + ringSize r then some .badParam
  else if (meets s.map (ringLba r / 8) (ringSize r)).isSome then some .overlap
  else if Config.mapLimit ≤ s.map.length then some .mapFull
  else none

theorem createRingTests_some {i : SlotIx} {r : Sector} {s : State} {x : Result} (h : ringRefusal r s = some x) :
    createRingTests i r s = fail x s := by
  unfold ringRefusal at h
  unfold createRingTests
  split_ifs at h ⊢ <;> (injection h with h; rw [h])

theorem createRingTests_none {i : SlotIx} {r : Sector} {s : State} (h : ringRefusal r s = none) :
    createRingTests i r s = makeRing i r s := by
  unfold ringRefusal at h
  unfold createRingTests
  split_ifs at h ⊢
  rfl

theorem normRetention_eq (cls : CopyClass) (x : Nat) : normRetention cls x =
    if x = 0 then (if cls = .never then 5400 else 0) else max 60 (min x 10800) := by
  unfold normRetention
  by_cases h0 : x = 0
  · rw [if_pos h0, if_pos h0]
  · rw [if_neg h0, if_neg h0]
    split_ifs <;> omega

/-- Settles O52, by the tests of R47 in their order. -/
theorem ringCreated : Obligations.RingCreated := by
  refine ⟨normRetention_eq, fun s tag r i hp hi hf hidle hn1 hn2 hfree => ?_⟩
  intro size lba g m retention fails
  have hg : ringG (ringSize r) = g := by show (size + 64 - 1) / 64 = _; rw [Nat.add_sub_assoc (by decide)]
  have hm : ringM (ringSize r) = m := by unfold ringM ceilDiv; rw [hg]; rfl
  have run : exec .createRing s = .next (pump (createRingTests i r { s with out := [] })) := by
    refine (act_runControl (ok := createRingFields) (body := createRingBody) hp hf).trans ?_
    unfold createRingBody
    rw [withSlot_eq _ hi, needIdle_passes (by rw [State.base_slot]; exact hidle) hn1 hn2
      (by simpa only [State.base_slot] using hfree)]
    rfl
  refine ⟨fun x hx => ⟨fail x { s with out := [] }, ?_, answered_finishControl x .none hp.waiting_base⟩,
    fun hx => ⟨makeRing i r { s with out := [] }, ?_, ?_⟩⟩
  · rw [run, createRingTests_some (s := { s with out := [] }) hx]
  · rw [run, createRingTests_none (s := { s with out := [] }) hx]
  · unfold makeRing ringSlot newRing
    rw [hg, hm]
    exact answered_finishControl (st := .handed) _ _ hp.waiting_base

end Sys2Proof.Machine
end

section
/-!
The control commands that change, store, drain or adjust an open title (R9 to R11, R20 to R26, R38, R63, R64).
-/

namespace Sys2Proof.Machine

/-! ### A change that is stored (R21) -/

/-- A slot written, its store asked for, and the command waiting for the store. -/
theorem storeAsked {b : State} {tag : Option HostTag} {r : Sector} {st : Stage} (hw : b.waiting tag r st) (i : SlotIx)
    (x : TitleSlot) (k : SvcKind) :
    (setStage .store (requestOp k (.slot i) none (b.setSlot i x))).asks k (.slot i) ∧
    ((b.setSlot i x).staged tag r .store).ServiceWork (setStage .store (requestOp k (.slot i) none (b.setSlot i x))) :=
  ⟨State.asks_setStage _ (asks_requestOp _ _ _ _), (serviceWork_requestOp _ _ _ _).staged _ (st0 := st) hw⟩

theorem storeState_eq (i : SlotIx) (r : Sector) (st : TitleState) (s : State) : storeState i r st s =
    setStage .store (requestOp (.store ((s.slot i).number.getD 0)) (.slot i) none (s.setSlot i
      { s.slot i with state := some st, lastChanger := recRequest r, dirty := true, storeInFlight := true })) := by
  unfold storeState; rw [changeAndStore_eq]

theorem TitleSlot.isRecording_iff {t : TitleSlot} : t.isRecording = true ↔ t.kind = some .recording := by
  simp [TitleSlot.isRecording]

/-- The outcomes of SEAL (R24). -/
theorem sealSlot_stores {i : SlotIx} {r : Sector} {s : State} (hk : (s.slot i).kind = some .recording)
    (hs : (s.slot i).state = some .recording) : sealSlot i r s = storeState i r .sealed s := by
  unfold sealSlot
  rw [if_neg (by simp [TitleSlot.isRecording, hk]), if_pos hs]

theorem sealSlot_sealed {i : SlotIx} {r : Sector} {s : State} (hk : (s.slot i).kind = some .recording)
    (hs : (s.slot i).state = some .sealed) : sealSlot i r s = succeed s := by
  unfold sealSlot
  rw [if_neg (by simp [TitleSlot.isRecording, hk]), if_neg (by rw [hs]; decide), if_pos hs]

theorem sealSlot_fails {i : SlotIx} {r : Sector} {s : State} (h : (s.slot i).kind ≠ some .recording ∨
    ((s.slot i).state ≠ some .recording ∧ (s.slot i).state ≠ some .sealed)) : sealSlot i r s = fail .state s := by
  unfold sealSlot
  dsimp only
  by_cases hk : (s.slot i).kind = some .recording
  · obtain ⟨h1, h2⟩ := h.resolve_left fun e => e hk
    rw [if_neg (by simp [TitleSlot.isRecording, hk]), if_neg h1, if_neg h2]
  · rw [if_pos (by simp [TitleSlot.isRecording, hk])]

/-- The outcomes of SYNC (R23). -/
theorem syncSlot_stores {i : SlotIx} {r : Sector} {s : State} (hk : (s.slot i).kind = some .recording)
    (h1 : (s.slot i).storeInFlight = false) (h2 : (s.slot i).dirty = true) :
    syncSlot i r s = setStage .store (requestStore i s) := by
  unfold syncSlot
  rw [if_neg (by simp [TitleSlot.isRecording, hk]), if_neg (by simp [h1]), if_pos h2]

theorem syncSlot_clean {i : SlotIx} {r : Sector} {s : State} (h : (s.slot i).kind ≠ some .recording ∨
    ((s.slot i).storeInFlight = false ∧ (s.slot i).dirty = false)) : syncSlot i r s = succeed s := by
  unfold syncSlot
  dsimp only
  by_cases hk : (s.slot i).kind = some .recording
  · obtain ⟨h1, h2⟩ := h.resolve_left fun e => e hk
    rw [if_neg (by simp [TitleSlot.isRecording, hk]), if_neg (by simp [h1]), if_neg (by simp [h2])]
  · rw [if_pos (by simp [TitleSlot.isRecording, hk])]

/-- Settles O54: each body stores its change, or answers at once. -/
theorem changesStored : Obligations.ChangesStored := by
  intro s tag r i hi hact t answered stores changed
  have run : ∀ (c : Instr) (row : ControlRow) (f : SlotIx → Sector → State → State),
      exec c s = act s (runControl row slotField (withSlot (needActive f))) → s.Passes row tag r →
      exec c s = .next (pump (f i r (s.base row))) := fun c row f hex hp => by
    rw [hex, act_activeCommand hp (slotOk_of_recSlot hi) hi hact]
  have ans : ∀ (c : Instr) (row : ControlRow) (f : SlotIx → Sector → State → State) (x : Result),
      exec c s = act s (runControl row slotField (withSlot (needActive f))) → s.Passes row tag r →
      f i r (s.base row) = finishControl x .none (s.base row) → answered c (s.base row) x :=
    fun c row f x hex hp hf => ⟨_, by rw [run c row f hex hp, hf], answered_finishControl x .none hp.waiting_base⟩
  have sto : ∀ (c : Instr) (row : ControlRow) (f : SlotIx → Sector → State → State) (x : TitleSlot),
      exec c s = act s (runControl row slotField (withSlot (needActive f))) → s.Passes row tag r →
      f i r (s.base row) = setStage .store (requestOp (.store (t.number.getD 0)) (.slot i) none
        ((s.base row).setSlot i { x with storeInFlight := true })) → stores c (s.base row) x := by
    intro c row f x hex hp hf
    obtain ⟨h1, h2⟩ := storeAsked hp.waiting_base i { x with storeInFlight := true } (.store (t.number.getD 0))
    refine ⟨_, by rw [run c row f hex hp, hf], h1, ?_⟩
    simpa only [State.setSlot, State.base_slots] using h2
  have state : ∀ row st, storeState i r st (s.base row) = setStage .store (requestOp (.store (t.number.getD 0)) (.slot i)
      none ((s.base row).setSlot i { changed st with storeInFlight := true })) := fun row st => by
    rw [storeState_eq, State.base_slot]
  have slot : ∀ row, (s.base row).slot i = t := fun row => State.base_slot s row i
  refine ⟨fun hp => ⟨fun hk hs => ?_, fun hk hs => ?_, fun h => ?_⟩, fun hp => ⟨fun hk hs hc => ?_, fun h => ?_⟩,
    fun hp => ⟨fun hk hs => ?_, fun h => ?_⟩, fun hp => ⟨fun hk h1 h2 => ?_, fun h => ?_⟩⟩
  · exact sto .sealTitle _ sealSlot _ rfl hp
      ((sealSlot_stores (by rw [slot]; exact hk) (by rw [slot]; exact hs)).trans (state _ _))
  · exact ans .sealTitle _ sealSlot .ok rfl hp (sealSlot_sealed (by rw [slot]; exact hk) (by rw [slot]; exact hs))
  · exact ans .sealTitle _ sealSlot .state rfl hp (sealSlot_fails (by rw [slot]; exact h))
  · refine sto .moveBegin _ moveBeginSlot _ rfl hp (Eq.trans ?_ (state _ _))
    unfold moveBeginSlot
    rw [if_pos (by rw [slot]; exact ⟨TitleSlot.isRecording_iff.mpr hk, hs, hc⟩)]
  · refine ans .moveBegin _ moveBeginSlot .state rfl hp ?_
    unfold moveBeginSlot
    rw [if_neg (by rw [slot, TitleSlot.isRecording_iff]; exact h)]
    rfl
  · refine sto .moveCancel _ moveCancelSlot _ rfl hp (Eq.trans ?_ (state _ _))
    unfold moveCancelSlot
    rw [if_pos (by rw [slot]; exact ⟨TitleSlot.isRecording_iff.mpr hk, hs⟩)]
  · refine ans .moveCancel _ moveCancelSlot .state rfl hp ?_
    unfold moveCancelSlot
    rw [if_neg (by rw [slot, TitleSlot.isRecording_iff]; exact h)]
    rfl
  · refine sto .sync _ syncSlot t rfl hp ?_
    rw [syncSlot_stores (by rw [slot]; exact hk) (by rw [slot]; exact h1) (by rw [slot]; exact h2), requestStore_eq, slot]
  · exact ans .sync _ syncSlot .ok rfl hp (syncSlot_clean (by rw [slot]; exact h))

/-! ### CLOSE, DELETE and MOVE_COMMIT (R10, R11, R26) -/

/-- An answer does not depend on the stage at which its command waited. -/
theorem State.Answered.of_staged {s u : State} {tag tag' : Option HostTag} {r r' : Sector} {st : Stage} {x : Result}
    {d : Details} (h : (s.staged tag' r' st).Answered u tag r x d) : s.Answered u tag r x d :=
  ⟨h.window, h.due, h.ending, h.rest⟩

/-- The three draining commands, behind the test of R5. -/
theorem exec_drainingCommand {c : Instr} {row : ControlRow} {why : DrainReason}
    (hm : (c, row, why) ∈ [(Instr.close, ({ code := 7 } : ControlRow), DrainReason.closed), (.delete, { code := 8 }, .deleted),
      (.moveCommit, { code := 13, authorised := true }, .moved)]) :
    ∃ f, (∀ s, exec c s = act s (runControl row slotField (withSlot (needActive f)))) ∧
      (∀ i r s, (why = .moved → (s.slot i).kind = some .recording ∧ (s.slot i).state = some .moving) →
        f i r s = drainFor why i s) ∧
      ∀ i r s, why = .moved → ¬ ((s.slot i).kind = some .recording ∧ (s.slot i).state = some .moving) →
        f i r s = fail .state s := by
  simp only [List.mem_cons, Prod.mk.injEq, List.not_mem_nil, or_false] at hm
  rcases hm with ⟨rfl, rfl, rfl⟩ | ⟨rfl, rfl, rfl⟩ | ⟨rfl, rfl, rfl⟩
  · exact ⟨closeSlot, fun _ => rfl, fun _ _ _ _ => rfl, fun _ _ _ h => by cases h⟩
  · exact ⟨deleteSlot, fun _ => rfl, fun _ _ _ _ => rfl, fun _ _ _ h => by cases h⟩
  · refine ⟨moveCommitSlot, fun _ => rfl, fun i r s h => ?_, fun i r s _ h => ?_⟩
    · exact if_pos ⟨TitleSlot.isRecording_iff.mpr (h rfl).1, (h rfl).2⟩
    · exact if_neg (by rw [TitleSlot.isRecording_iff]; exact h)

/-- Settles O55, by the step into DRAINING and the ways out of it. -/
theorem drainStarts : Obligations.DrainStarts := by
  intro s tag r i c row why hm hp hi hact t b idle left
  obtain ⟨f, hex, hdrain, hfail⟩ := exec_drainingCommand hm
  have slot : b.slot i = t := State.base_slot s row i
  have run : exec c s = .next (pump (f i r b)) := by
    rw [hex, act_activeCommand hp (slotOk_of_recSlot hi) hi hact]
  refine ⟨fun hw hne => ⟨_, ?_, answered_finishControl .state .none hp.waiting_base⟩, fun hmv => ?_⟩
  · rw [run, hfail i r b hw (by rw [slot]; exact hne)]; rfl
  generalize hd : ({ t with phase := .draining, drain := some why } : TitleSlot) = d
  -- The state in DRAINING, and how the command goes on from there.
  have enter : f i r b = drainTest i (((b.staged tag r .idle).setSlot i d)) := by
    rw [hdrain i r b (by rw [slot]; exact hmv)]
    unfold drainFor startDrain
    rw [setStage_eq_staged .idle hp.waiting_base, State.modSlot_eq, ← hd]
    show drainTest i ((b.staged tag r .idle).setSlot i { b.slot i with phase := .draining, drain := some why }) = _
    rw [slot]
  have slotd : ((b.staged tag r .idle).setSlot i d).slot i = d := State.slot_setSlot_same _ _ _
  have slots : b.slots = s.slots := State.base_slots s row
  have map : b.map = s.map := by show (s.base row).map = _; rw [State.base_rest]
  have cat : b.cat = s.cat := by show (s.base row).cat = _; rw [State.base_rest]
  refine ⟨fun h => ?_, fun h1 h2 => ?_⟩
  · rw [run, enter, drainTest_stays (by rw [slotd, ← hd]; exact h)]
    simp only [State.setSlot, State.staged, slots]
  have leaves : f i r b = leaveDraining i ((b.staged tag r .idle).setSlot i d) := by
    rw [enter, drainTest_leaves (by rw [slotd, ← hd]) (by rw [slotd, ← hd]; exact h1) (by rw [slotd, ← hd]; exact h2)]
  -- The state without the slot's extents, and with another content of the slot.
  have drained : ∀ x, ({ (b.staged tag r .idle).setSlot i d with
        map := ((b.staged tag r .idle).setSlot i d).map.filter fun e => decide (e.slot ≠ i) } : State).setSlot i x =
      ({ b with map := s.map.filter fun e => decide (e.slot ≠ i), slots := s.slots.set i x } : State).staged tag r
        .idle := fun x => by
    simp only [State.setSlot, State.staged, slots, map, Vector.set_set]
  have toIdle : (t.kind ≠ some .recording ∨ (why = .closed ∧ t.dirty = false)) → idle := by
    intro h
    have hi' : enterIdle i { (b.staged tag r .idle).setSlot i d with
        map := ((b.staged tag r .idle).setSlot i d).map.filter fun e => decide (e.slot ≠ i) } =
      ({ b with
        map := s.map.filter fun e => decide (e.slot ≠ i), slots := s.slots.set i TitleSlot.empty,
        cat := { s.cat with claims := s.cat.claims.filter fun x => decide (x.owner ≠ .slot i) } } : State).staged tag r
          .idle := by
      rw [← cat]
      exact congrArg (dropClaims (.slot i)) (drained TitleSlot.empty)
    refine ⟨_, ?_, (answered_finishControl (s := State.staged _ tag r .idle) .ok .none rfl).of_staged⟩
    rw [run, leaves, leaveDraining_idle (by rw [slotd, ← hd]; exact h.imp_right fun ⟨h1, h2⟩ => ⟨congrArg some h1, h2⟩),
      hi', answer_of_waiting .ok (State.staged_waiting _ tag r .idle) hi]
  have toLeft : ∀ (x : TitleSlot) (k : SvcKind) (ext : Option (List RecExtent)),
      leaveDraining i ((b.staged tag r .idle).setSlot i d) = requestOp k (.slot i) ext
        (({ (b.staged tag r .idle).setSlot i d with
          map := ((b.staged tag r .idle).setSlot i d).map.filter fun e => decide (e.slot ≠ i) } : State).setSlot i x) →
      left x k := by
    intro x k ext he
    refine ⟨_, by rw [run, leaves, he, drained], asks_requestOp _ _ _ _, serviceWork_requestOp _ _ _ _⟩
  refine ⟨fun hk => toIdle (.inl (by rw [hk]; decide)), fun _ hw hdirty => toIdle (.inr ⟨hw, hdirty⟩),
    fun hk hw hdirty => ?_, fun hk hw => ?_⟩
  · refine toLeft _ _ (some (recordExtents ((b.staged tag r .idle).setSlot i d).map i)) ?_
    rw [leaveDraining_store (by rw [slotd, ← hd]; exact hk) (by rw [slotd, ← hd, hw]) (by rw [slotd, ← hd]; exact hdirty),
      slotd, ← hd]
  · refine toLeft _ _ none ?_
    rw [leaveDraining_erase (by rw [slotd, ← hd]; exact hk)
      (by rw [slotd, ← hd]; exact fun e => hw (Option.some.inj e)), slotd, ← hd]

/-! ### SET_RIGHTS, RING_EMPTY and RESUME_TITLE (R9, R20, R25, R63, R64) -/

theorem hasFlag_setFlag (s : State) (f : EventFlag) : (s.setFlag f).hasFlag f = true := by
  have h : ∀ x : BitVec 8, (x ||| f.bit) &&& f.bit = f.bit := fun x => by
    ext i hi; simp only [BitVec.getElem_and, BitVec.getElem_or]
    cases x[i] <;> simp
  show decide ((s.win.flags ||| f.bit) &&& f.bit ≠ 0#8) = true
  rw [h]
  cases f <;> rfl

/-- The expiry of a slot that is not due (R9). -/
theorem expireSlot_of_not {i : SlotIx} {s : State} (h : expiryDue (s.slot i).expiry s.clock = false) :
    expireSlot i s = s := by
  unfold expireSlot TitleSlot.expires; rw [h, Bool.and_false]; rfl

/-- The expiry of an ACTIVE recording that is due (R9). -/
theorem expireSlot_of_due {i : SlotIx} {s : State} (hp : (s.slot i).phase = .active)
    (hk : (s.slot i).kind = some .recording) (h : expiryDue (s.slot i).expiry s.clock = true) :
    expireSlot i s = startDrain i .expired (s.setFlag .titleExpired) := by
  unfold expireSlot TitleSlot.expires; rw [h, hp, hk]; rfl

theorem recordingRights_moving {i : SlotIx} {r : Sector} {s : State} (hc : recClass r ≠ .never)
    (hm : (s.slot i).state = some .moving) : recordingRights i r s = fail .state s := by
  unfold recordingRights; rw [if_neg hc, if_pos hm]

theorem recordingRights_stores {i : SlotIx} {r : Sector} {s : State} (hc : recClass r ≠ .never)
    (hm : (s.slot i).state ≠ some .moving) : recordingRights i r s =
    expireSlot i (setStage .store (requestOp (.store ((s.slot i).number.getD 0)) (.slot i) none (s.setSlot i
      { s.slot i with
        cls := some (recClass r), expiry := recExpiry r, lastChanger := recRequest r, dirty := true,
        storeInFlight := true }))) := by
  unfold recordingRights; rw [if_neg hc, if_neg hm, changeAndStore_eq]

/-- RING_EMPTY (R64). -/
theorem ringEmptySlot_recording {i : SlotIx} {r : Sector} {s : State} (hk : (s.slot i).kind = some .recording) :
    ringEmptySlot i r s = fail .state s := if_pos (TitleSlot.isRecording_iff.mpr hk)

theorem ringEmptySlot_ring {i : SlotIx} {r : Sector} {s : State} (hk : (s.slot i).kind ≠ some .recording) :
    ringEmptySlot i r s = succeed (s.modSlot i fun t =>
      { t with ring := t.ring.map Ring.emptied, lastChanger := recRequest r }) :=
  if_neg (by rw [TitleSlot.isRecording_iff]; exact hk)

/-- Settles O56: SET_RIGHTS of a recording is a stored change with its expiry test; the others answer at once. -/
theorem titlesAdjusted : Obligations.TitlesAdjusted := by
  intro s tag r i hi hact t answered withSlot' rights x
  have slot : ∀ row, (s.base row).slot i = t := fun row => State.base_slot s row i
  refine ⟨fun hp hf => ?_, fun hp => ⟨fun hk => ?_, fun hk => ?_⟩, fun hp => ?_⟩
  · have run : exec .setRights s = .next (pump (rightsSlot i r s.accepted)) :=
      act_activeCommand (ok := rightsFields) (f := rightsSlot) hp hf hi hact
    have hw : s.accepted.waiting tag r .handed := hp.waiting_base
    have slot : s.accepted.slot i = t := rfl
    have ofRec : t.kind = some .recording → rightsSlot i r s.accepted = recordingRights i r s.accepted := fun hk =>
      if_pos (by rw [slot]; exact TitleSlot.isRecording_iff.mpr hk)
    have ofRing : t.kind ≠ some .recording → rightsSlot i r s.accepted = ringRights i r s.accepted := fun hk =>
      if_neg (by rw [slot, TitleSlot.isRecording_iff]; exact hk)
    refine ⟨fun hk hc => ⟨_, ?_, answered_finishControl .badParam .none hw⟩,
      fun hk hc hm => ⟨_, ?_, answered_finishControl .state .none hw⟩, fun hk hc hm => ?_,
      fun hk hz => ⟨_, ?_, answered_finishControl .badParam .none hw⟩, fun hk hz => ⟨_, ?_,
        answered_finishControl (s := withSlot' s.accepted _) .ok (.retention x) hw⟩⟩
    · rw [run, ofRec hk]; unfold recordingRights; rw [if_pos hc]; rfl
    · rw [run, ofRec hk]; rw [recordingRights_moving hc (by rw [slot]; exact hm)]; rfl
    · obtain ⟨hasks, hwork⟩ := storeAsked hw i rights (.store (t.number.getD 0))
      generalize hu : setStage .store (requestOp (.store (t.number.getD 0)) (.slot i) none
        (s.accepted.setSlot i rights)) = w at hasks hwork
      have hslot : ∀ k, w.slot k = (s.accepted.setSlot i rights).slot k := hwork.slot
      have hi' : w.slot i = rights := (hslot i).trans (State.slot_setSlot_same _ _ _)
      have hclock : w.clock = s.clock := hwork.clock
      have run' : exec .setRights s = .next (pump (expireSlot i w)) := by
        rw [run, ofRec hk, recordingRights_stores hc (by rw [slot]; exact hm), ← hu]; rfl
      by_cases hdue : expiryDue (recExpiry r) s.clock = true
      · have hexp : expireSlot i w = (w.setFlag .titleExpired).setSlot i
            { rights with phase := .draining, drain := some .expired } := by
          have hs : (w.setFlag .titleExpired).slot i = rights := hi'
          rw [expireSlot_of_due (by rw [hi']; exact hact) (by rw [hi']; exact hk) (by rw [hi', hclock]; exact hdue),
            startDrain_stays (.inr (by rw [hs]))]
          exact congrArg (fun x : TitleSlot => (w.setFlag .titleExpired).setSlot i
            { x with phase := .draining, drain := some .expired }) hs
        refine ⟨expireSlot i w, run', ?_⟩
        rw [hexp]
        refine ⟨hasks, fun e => absurd hdue (by rw [e]; decide), fun _ => ⟨?_, ?_, ?_, ?_, ?_⟩⟩
        · exact hasFlag_setFlag w .titleExpired
        · exact State.waiting_of_executing (State.staged_waiting (s.accepted.setSlot i rights) tag r .store)
            (congrArg (·.executing) hwork.win)
        · exact State.slot_setSlot_same _ _ _
        · intro k hki
          rw [State.slot_setSlot_other _ _ _ _ hki]
          exact (hslot k).trans (State.slot_setSlot_other _ _ _ _ hki)
        · exact hwork.map
      · have hdue : expiryDue (recExpiry r) s.clock = false := Bool.eq_false_iff.mpr hdue
        refine ⟨w, ?_, hasks, fun _ => hwork, fun e => absurd e (by rw [hdue]; decide)⟩
        rw [run', expireSlot_of_not (by rw [hi', hclock]; exact hdue)]
    · rw [run, ofRing hk]; unfold ringRights; rw [if_pos hz]; rfl
    · rw [run, ofRing hk]; unfold ringRights; rw [if_neg (by simpa using hz)]; rfl
  · refine ⟨_, ?_, answered_finishControl .state .none hp.waiting_base⟩
    refine (act_activeCommand (ok := slotField) (f := ringEmptySlot) hp (slotOk_of_recSlot hi) hi hact).trans ?_
    rw [ringEmptySlot_recording (by rw [slot]; exact hk)]
    rfl
  · refine ⟨_, ?_, answered_finishControl (s := withSlot' { s with out := [] } _) (st := .handed) .ok .none
      hp.waiting_base⟩
    refine (act_activeCommand (ok := slotField) (f := ringEmptySlot) hp (slotOk_of_recSlot hi) hi hact).trans ?_
    rw [ringEmptySlot_ring (by rw [slot]; exact hk)]
    rfl
  · refine ⟨_, ?_, answered_finishControl (st := .handed) .ok .none hp.waiting_base⟩
    exact act_activeCommand (ok := slotField) (f := resumeSlot) hp (slotOk_of_recSlot hi) hi hact

end Sys2Proof.Machine
end

section
/-!
SUPPORT. What the ends of host commands leave of the other commands: `Fades ts s u` says that between s and u the work of
commands with tags in ts has ended, each with its arbitrations (R92, R123, R126, R139). A command that is not at work is
left alone by arbitration, so what has ended stays ended.
-/

namespace Sys2Proof.Machine

/-- A job of this owner waits or runs (R134, R135). -/
def State.owns (s : State) (o : Owner) : Prop :=
  (∃ j ∈ s.lanes.jobs, j.owner = o) ∨ ∃ l x, s.lanes.lane l = some x ∧ x.job.owner = o

/-- Between s and u the work of commands with tags in ts may have ended, and nothing but arbitrations has happened to
others: see the fields. -/
structure Fades (ts : List HostTag) (s u : State) : Prop where
  rest : u = { s with
    table := u.table, buffer := u.buffer, lanes := u.lanes, drive := u.drive, host := u.host, stamp := u.stamp }
  table : ∃ g : Cmd → Cmd, u.table = s.table.map g ∧ ∀ c, (g c).tag = c.tag ∧ (g c).pieces = c.pieces ∧
    ((g c).state = c.state ∨ (c.tag ∈ ts ∧ (g c).state = .failed)) ∧ (s.cmd? c.tag = none → g c = c)
  frames : ∀ f ∈ u.buffer.frames, (∃ e ∈ s.buffer.frames, e.holder = f.holder ∧ e.num = f.num) ∨
    (s.cmd? f.holder).isSome = true
  requests : ∀ q ∈ u.buffer.requests, (∃ p ∈ s.buffer.requests, p.tag = q.tag ∧ p.kind = q.kind) ∨
    ((s.cmd? q.tag).isSome = true ∧ q.kind ≠ .push)
  jobs : ∀ o, u.owns o → s.owns o
  drive : u.drive = { s.drive with
    queue := u.drive.queue, outstanding := u.drive.outstanding, hold := u.drive.hold, xfer := u.drive.xfer }
  queues : ∃ p : DriveCmd → Bool, (∀ d, (∀ t ∈ ts, d.who ≠ .host t) → p d = true) ∧
    u.drive.queue = s.drive.queue.filter p ∧ u.drive.outstanding = s.drive.outstanding.filter p
  link : (∀ q ∈ s.buffer.requests, q.kind ≠ .push) →
    (s.drive.hold = none → u.drive.hold = none) ∧ (s.drive.xfer = none → u.drive.xfer = none)
  host : u.host = { s.host with due := u.host.due, xfer := u.host.xfer } ∧ ∃ l, u.host.due = s.host.due ++ l

/-! ### Commands at work -/

theorem cmd?_eq_none {s : State} {t : HostTag} : s.cmd? t = none ↔ ∀ c ∈ s.table, c.tag = t → c.state = .failed := by
  simp [State.cmd?]

/-- The command of a tag after a change that keeps tags, and states of this tag. -/
theorem cmd?_map {s u : State} {t : HostTag} {g : Cmd → Cmd} (hu : u.table = s.table.map g)
    (hg : ∀ c, (g c).tag = c.tag) (hs : ∀ c, c.tag = t → (g c).state = c.state) : u.cmd? t = (s.cmd? t).map g := by
  unfold State.cmd?
  rw [hu, List.find?_map]
  congr 2
  funext c
  simp only [Function.comp_apply, hg]
  by_cases h : c.tag = t
  · rw [hs c h]
  · simp [h]

namespace Fades

variable {s t u : State} {ts : List HostTag}

/-- A command that is not at work does not come to work. -/
theorem dead (h : Fades ts s u) {a : HostTag} (ha : s.cmd? a = none) : u.cmd? a = none := by
  obtain ⟨g, hu, hg⟩ := h.table
  rw [cmd?_eq_none] at ha ⊢
  intro c hc e
  rw [hu] at hc
  obtain ⟨d, hd, rfl⟩ := List.mem_map.mp hc
  obtain ⟨htag, _, hst, _⟩ := hg d
  have hf := ha d hd (htag ▸ e)
  rcases hst with hst | hst
  · rw [hst, hf]
  · exact hst.2

theorem alive (h : Fades ts s u) {a : HostTag} (ha : (u.cmd? a).isSome = true) : (s.cmd? a).isSome = true := by
  cases hs : s.cmd? a with
  | some c => rfl
  | none => rw [h.dead hs] at ha; cases ha

/-- A command with a tag outside ts stays at work, with its pieces. -/
theorem kept (h : Fades ts s u) {a : HostTag} {c : Cmd} (ha : a ∉ ts) (hc : s.cmd? a = some c) :
    ∃ d, u.cmd? a = some d ∧ d.pieces = c.pieces := by
  obtain ⟨g, hu, hg⟩ := h.table
  refine ⟨g c, ?_, (hg c).2.1⟩
  rw [cmd?_map hu (fun c => (hg c).1) fun d hd => ?_, hc]
  · rfl
  · exact (hg d).2.2.1.resolve_right fun e => ha (hd ▸ e.1)

theorem refl (s : State) : Fades ts s s where
  rest := rfl
  table := ⟨id, by simp, fun _ => ⟨rfl, rfl, .inl rfl, fun _ => rfl⟩⟩
  frames f hf := .inl ⟨f, hf, rfl, rfl⟩
  requests q hq := .inl ⟨q, hq, rfl, rfl⟩
  jobs _ h := h
  drive := rfl
  queues := ⟨fun _ => true, fun _ _ => rfl, by simp, by simp⟩
  link _ := ⟨id, id⟩
  host := ⟨rfl, [], by simp⟩

theorem trans (h : Fades ts s t) (k : Fades ts t u) : Fades ts s u where
  rest := by rw [k.rest, h.rest]
  table := by
    obtain ⟨g, ht, hg⟩ := h.table
    obtain ⟨g', hu, hg'⟩ := k.table
    refine ⟨g' ∘ g, by rw [hu, ht, List.map_map], fun c => ?_⟩
    obtain ⟨a1, a2, a3, a4⟩ := hg c
    obtain ⟨b1, b2, b3, b4⟩ := hg' (g c)
    refine ⟨b1.trans a1, b2.trans a2, ?_, fun hc => ?_⟩
    · rw [a1] at b3
      rcases b3 with b3 | b3
      · exact a3.imp b3.trans fun e => ⟨e.1, b3.trans e.2⟩
      · exact .inr b3
    · rw [Function.comp_apply, b4 (by rw [a1]; exact h.dead hc), a4 hc]
  frames f hf := by
    rcases k.frames f hf with ⟨e, he, e1, e2⟩ | hl
    · exact e1 ▸ e2 ▸ h.frames e he
    · exact .inr (h.alive hl)
  requests q hq := by
    rcases k.requests q hq with ⟨p, hp, e1, e2⟩ | ⟨hl, hk⟩
    · exact e1 ▸ e2 ▸ h.requests p hp
    · exact .inr ⟨h.alive hl, hk⟩
  jobs o ho := h.jobs o (k.jobs o ho)
  drive := by rw [k.drive, h.drive]
  queues := by
    obtain ⟨p, hp, h1, h2⟩ := h.queues
    obtain ⟨p', hp', k1, k2⟩ := k.queues
    exact ⟨fun d => p' d && p d, fun d hd => by simp [hp d hd, hp' d hd], by rw [k1, h1, List.filter_filter],
      by rw [k2, h2, List.filter_filter]⟩
  link hq := by
    have hq' : ∀ q ∈ t.buffer.requests, q.kind ≠ .push := fun q hm => by
      rcases h.requests q hm with ⟨p, hp, _, e⟩ | ⟨_, hk⟩
      · exact e ▸ hq p hp
      · exact hk
    exact ⟨fun e => (k.link hq').1 ((h.link hq).1 e), fun e => (k.link hq').2 ((h.link hq).2 e)⟩
  host := by
    obtain ⟨h1, l, h2⟩ := h.host
    obtain ⟨k1, l', k2⟩ := k.host
    exact ⟨by rw [k1, h1], l ++ l', by rw [k2, h2, List.append_assoc]⟩

theorem mono {ts' : List HostTag} (h : Fades ts s u) (hs : ts ⊆ ts') : Fades ts' s u where
  rest := h.rest
  table := by
    obtain ⟨g, hu, hg⟩ := h.table
    refine ⟨g, hu, fun c => ?_⟩
    obtain ⟨a1, a2, a3, a4⟩ := hg c
    exact ⟨a1, a2, a3.imp_right fun e => ⟨hs e.1, e.2⟩, a4⟩
  frames := h.frames
  requests := h.requests
  jobs := h.jobs
  drive := h.drive
  queues := by
    obtain ⟨p, hp, h1⟩ := h.queues
    exact ⟨p, fun d hd => hp d fun t ht => hd t (hs ht), h1⟩
  link := h.link
  host := h.host

/-- Folds of operations that fade. -/
theorem foldl {α : Type} {f : State → α → State} (hf : ∀ s a, Fades ts s (f s a)) :
    ∀ (l : List α) (s : State), Fades ts s (l.foldl f s)
  | [], s => .refl s
  | a :: l, s => (hf s a).trans (foldl hf l (f s a))

/-- Where no tag of ts is given the queue and the outstanding commands are as they were. -/
theorem queue_eq (h : Fades [] s u) : u.drive.queue = s.drive.queue ∧ u.drive.outstanding = s.drive.outstanding := by
  obtain ⟨p, hp, h1, h2⟩ := h.queues
  have : p = fun _ => true := funext fun d => hp d fun _ ht => absurd ht List.not_mem_nil
  rw [h1, h2, this]; simp

/-- A command that is not at work stands as it is. -/
theorem stands (h : Fades ts s u) {c : Cmd} (hc : c ∈ s.table) (hd : s.cmd? c.tag = none) : c ∈ u.table := by
  obtain ⟨g, hu, hg⟩ := h.table
  rw [hu]
  exact List.mem_map.mpr ⟨c, hc, (hg c).2.2.2 hd⟩

/-- A command that is not at work is granted no frame. -/
theorem noFrame (h : Fades ts s u) {a : HostTag} (ha : s.cmd? a = none) {f : Frame} (hf : f ∈ u.buffer.frames)
    (e : f.holder = a) : ∃ x ∈ s.buffer.frames, x.holder = a ∧ x.num = f.num := by
  rcases h.frames f hf with ⟨x, hx, e1, e2⟩ | hl
  · exact ⟨x, hx, e1.trans e, e2⟩
  · rw [e, ha] at hl; cases hl

/-- It makes no request. -/
theorem noRequest (h : Fades ts s u) {a : HostTag} (ha : s.cmd? a = none)
    (hr : ∀ q ∈ s.buffer.requests, q.tag ≠ a) : ∀ q ∈ u.buffer.requests, q.tag ≠ a := by
  intro q hq e
  rcases h.requests q hq with ⟨p, hp, e', _⟩ | ⟨hl, _⟩
  · exact hr p hp (e'.trans e)
  · rw [e, ha] at hl; cases hl

end Fades

theorem framesHeld_eq_zero {s : State} {a : HostTag} : s.framesHeld a = 0 ↔ ∀ f ∈ s.buffer.frames, f.holder ≠ a := by
  simp [State.framesHeld, List.filter_eq_nil_iff]

theorem workOver_jobs {s : State} {a : HostTag} : ((∀ j ∈ s.lanes.jobs, j.owner ≠ .host a) ∧
    ∀ l x, s.lanes.lane l = some x → x.job.owner ≠ .host a) ↔ ¬ s.owns (.host a) := by
  constructor
  · rintro ⟨h1, h2⟩ (⟨j, hj, e⟩ | ⟨l, x, hx, e⟩)
    · exact h1 j hj e
    · exact h2 l x hx e
  · exact fun h => ⟨fun j hj e => h (.inl ⟨j, hj, e⟩), fun l x hx e => h (.inr ⟨l, x, hx, e⟩)⟩

/-- Work that is over stays over. -/
theorem Fades.workOver {s u : State} {ts : List HostTag} (h : Fades ts s u) {a : HostTag} (ha : s.cmd? a = none)
    (hw : s.WorkOver a) : u.WorkOver a where
  frames := framesHeld_eq_zero.mpr fun _ hf e => by
    obtain ⟨x, hx, e', _⟩ := h.noFrame ha hf e
    exact framesHeld_eq_zero.mp hw.frames x hx e'
  requests := h.noRequest ha hw.requests
  drive := by
    obtain ⟨p, _, h1, h2⟩ := h.queues
    rw [h1, h2]
    exact ⟨fun d hd => hw.drive.1 d (List.mem_of_mem_filter hd), fun d hd => hw.drive.2 d (List.mem_of_mem_filter hd)⟩
  jobs := workOver_jobs.mpr fun ho => workOver_jobs.mp hw.jobs (h.jobs _ ho)

/-! ### Grants and arbitrations -/

section arbitration

variable {ts : List HostTag}

theorem fades_modCmd {s : State} {t : HostTag} (f : Cmd → Cmd) (ht : (s.cmd? t).isSome = true)
    (hf : ∀ c, (f c).tag = c.tag ∧ (f c).pieces = c.pieces ∧ (f c).state = c.state) : Fades ts s (s.modCmd t f) where
  rest := rfl
  table := by
    refine ⟨_, rfl, fun c => ?_⟩
    obtain ⟨h1, h2, h3⟩ := hf c
    by_cases e : c.tag = t
    · rw [if_pos e]
      exact ⟨h1, h2, .inl h3, fun hn => by rw [e] at hn; rw [hn] at ht; cases ht⟩
    · rw [if_neg e]
      exact ⟨rfl, rfl, .inl rfl, fun _ => rfl⟩
  frames f hf := .inl ⟨f, hf, rfl, rfl⟩
  requests q hq := .inl ⟨q, hq, rfl, rfl⟩
  jobs _ h := h
  drive := rfl
  queues := ⟨fun _ => true, fun _ _ => rfl, by simp, by simp⟩
  link _ := ⟨id, id⟩
  host := ⟨rfl, [], by simp⟩

/-- A change of the frame buffer that brings frames and requests of commands at work alone, and no PUSH request. -/
theorem fades_buffer {s : State} (b : FrameBuffer) (n : Nat)
    (hf : ∀ f ∈ b.frames, (∃ e ∈ s.buffer.frames, e.holder = f.holder ∧ e.num = f.num) ∨
      (s.cmd? f.holder).isSome = true)
    (hr : ∀ q ∈ b.requests, (∃ p ∈ s.buffer.requests, p.tag = q.tag ∧ p.kind = q.kind) ∨
      ((s.cmd? q.tag).isSome = true ∧ q.kind ≠ .push)) : Fades ts s { s with buffer := b, stamp := n } where
  rest := rfl
  table := ⟨id, by simp, fun _ => ⟨rfl, rfl, .inl rfl, fun _ => rfl⟩⟩
  frames := hf
  requests := hr
  jobs _ h := h
  drive := rfl
  queues := ⟨fun _ => true, fun _ _ => rfl, by simp, by simp⟩
  link _ := ⟨id, id⟩
  host := ⟨rfl, [], by simp⟩

theorem startDriveXfer_rest (p : Bool) (t : HostTag) (n : Nat) (s : State) : startDriveXfer p t n s =
    { s with drive := { s.drive with
      hold := (startDriveXfer p t n s).drive.hold, xfer := (startDriveXfer p t n s).drive.xfer } } := by
  unfold startDriveXfer; split <;> rfl

/-- A transfer on the drive link starts for a PUSH request. -/
theorem fades_startDriveXfer {s r : State} (p : Bool) (t : HostTag) (n : Nat) (h : Fades ts r s)
    (hr : ∃ q ∈ r.buffer.requests, q.kind = .push) : Fades ts r (startDriveXfer p t n s) := by
  rw [startDriveXfer_rest]
  obtain ⟨h1, h2, h3, h4, h5, h6, h7, h8, h9⟩ := h
  refine ⟨?_, h2, h3, h4, h5, ?_, h7, fun hq => ?_, h9⟩
  · exact congrArg (fun z : State => { z with drive := { s.drive with
      hold := (startDriveXfer p t n s).drive.hold, xfer := (startDriveXfer p t n s).drive.xfer } }) h1
  · exact congrArg (fun z : DrivePort => { z with
      hold := (startDriveXfer p t n s).drive.hold, xfer := (startDriveXfer p t n s).drive.xfer }) h6
  · obtain ⟨q, hm, e⟩ := hr
    exact absurd e (hq q hm)

theorem grantedFrame_holder (r : Req) (c : Cmd) (n : Nat) (s : State) : (grantedFrame r c n s).holder = r.tag := by
  unfold grantedFrame; split <;> rfl

/-- The frame of a grant, held by a command at work. -/
theorem fades_holdFrame {s : State} {r : Req} {c : Cmd} (n : Nat) (hc : s.cmd? r.tag = some c) :
    Fades ts s (s.holdFrame (grantedFrame r c n s)).tickStamp := by
  refine fades_buffer { s.buffer with frames := insertFrame (grantedFrame r c n s) s.buffer.frames } (s.stamp + 1)
    (fun f hf => ?_) fun q hq => .inl ⟨q, hq, rfl, rfl⟩
  rcases mem_insertFrame.mp hf with e | hf
  · right; rw [e, grantedFrame_holder, hc]; rfl
  · exact .inl ⟨f, hf, rfl, rfl⟩

theorem fades_setRequests {s : State} (rs : List Req)
    (hr : ∀ q ∈ rs, (∃ p ∈ s.buffer.requests, p.tag = q.tag ∧ p.kind = q.kind) ∨
      ((s.cmd? q.tag).isSome = true ∧ q.kind ≠ .push)) : Fades ts s (s.setRequests rs) :=
  fades_buffer { s.buffer with requests := rs } s.stamp (fun f hf => .inl ⟨f, hf, rfl, rfl⟩) hr

/-- A grant: of a request that is no PUSH, or of one that waited in r. -/
theorem fades_grant {s r0 : State} {r : Req} (h : Fades ts r0 s)
    (hr : r.kind = .push → ∃ q ∈ r0.buffer.requests, q.kind = .push) : Fades ts r0 (grant r s) := by
  unfold grant
  split
  · rename_i c n hc _
    have hh : Fades ts r0 (s.holdFrame (grantedFrame r c n s)).tickStamp := h.trans (fades_holdFrame n hc)
    have hc' : ((s.holdFrame (grantedFrame r c n s)).tickStamp.cmd? r.tag).isSome = true := by
      show (s.cmd? r.tag).isSome = true
      rw [hc]; rfl
    dsimp only
    split
    · rename_i e; exact fades_startDriveXfer _ _ _ hh (hr e)
    · exact hh.trans (fades_modCmd _ hc' fun _ => ⟨rfl, rfl, rfl⟩)
    · exact hh.trans (fades_modCmd _ hc' fun _ => ⟨rfl, rfl, rfl⟩)
  · exact h

/-- Intake reaches the base of a merge unit of a command at work. -/
theorem fades_takeBase {s : State} {t : HostTag} (n : Nat) (ht : (s.cmd? t).isSome = true) :
    Fades ts s (takeBase t n s) := by
  unfold takeBase
  have h1 : Fades ts s (s.modFrame n fun f => { f with cond := .filling, fromHost := true, order := s.stamp }) := by
    refine fades_buffer { s.buffer with frames := _ } s.stamp (fun f hf => ?_) fun q hq => .inl ⟨q, hq, rfl, rfl⟩
    obtain ⟨e, he, rfl⟩ := List.mem_map.mp hf
    refine .inl ⟨e, he, ?_⟩
    split <;> exact ⟨rfl, rfl⟩
  have h2 := h1.trans (fades_modCmd (ts := ts) (t := t) (fun c => { c with granted := c.granted + 1 }) ht
    fun _ => ⟨rfl, rfl, rfl⟩)
  refine h2.trans (fades_buffer _ _ (fun f hf => .inl ⟨f, hf, rfl, rfl⟩) fun q hq => .inl ⟨q, hq, rfl, rfl⟩)

theorem wanted_kind {c : Cmd} {s : State} {r : Req} (h : wanted c s = .ask r) : r.kind ≠ .push := by
  unfold wanted wantedFill wantedIntake at h
  simp only at h
  repeat' split at h
  all_goals first
    | contradiction
    | (injection h with h; subst h; exact nofun)

theorem fades_followUp : ∀ (fuel : Nat) (t : HostTag) (s : State), Fades ts s (followUp fuel t s)
  | 0, _, s => .refl s
  | fuel + 1, t, s => by
    unfold followUp
    split
    · exact .refl s
    · rename_i c hc
      have ht : c.tag = t := (cmd?_mem hc).2
      have hl : (s.cmd? t).isSome = true := by rw [hc]; rfl
      split
      · exact .refl s
      · exact (fades_takeBase _ hl).trans (fades_followUp fuel t _)
      · rename_i r hw
        have hk := wanted_kind hw
        split
        · exact (fades_grant (.refl s) fun e => absurd e hk).trans (fades_followUp fuel t _)
        · refine fades_setRequests _ fun q hq => ?_
          rcases List.mem_append.mp hq with hq | hq
          · exact .inl ⟨q, hq, rfl, rfl⟩
          · rw [List.mem_singleton.mp hq, wanted_tag hw, ht]
            exact .inr ⟨hl, hk⟩

theorem fades_makeRequests (t : HostTag) (s : State) : Fades ts s (makeRequests t s) := fades_followUp 16 t s

theorem passOver_tag (gs : List Req) (r q : Req) : (passOver gs r q).tag = q.tag ∧ (passOver gs r q).kind = q.kind := by
  unfold passOver; split <;> exact ⟨rfl, rfl⟩

theorem fades_arbitrateN : ∀ (fuel : Nat) (s : State), Fades ts s (arbitrateN fuel s)
  | 0, s => .refl s
  | fuel + 1, s => by
    unfold arbitrateN
    split
    · exact .refl s
    · rename_i r hr
      refine Fades.trans ?_ (fades_arbitrateN fuel _)
      refine Fades.trans ?_ (fades_makeRequests _ _)
      have hm : r ∈ s.buffer.requests := List.mem_of_mem_filter (pickRequest_mem hr)
      refine fades_grant (fades_setRequests _ fun q hq => ?_) fun e => ⟨r, hm, e⟩
      obtain ⟨p, hp, rfl⟩ := List.mem_map.mp hq
      obtain ⟨e1, e2⟩ := passOver_tag s.grantables r p
      exact .inl ⟨p, List.mem_of_mem_erase hp, e1.symm, e2.symm⟩

theorem fades_freeFrame (n : Nat) (s : State) : Fades ts s (freeFrame n s) := by
  refine Fades.trans ?_ (fades_arbitrateN 61 _)
  exact fades_buffer { s.buffer with frames := s.buffer.frames.filter fun f => decide (f.num ≠ n) } s.stamp
    (fun f hf => .inl ⟨f, List.mem_of_mem_filter hf, rfl, rfl⟩) fun q hq => .inl ⟨q, hq, rfl, rfl⟩

end arbitration

end Sys2Proof.Machine
end

section
/-!
SUPPORT, and O19. The end of a host command's work (R92, R126, R139): what it takes away, and what it leaves of the others.
-/

namespace Sys2Proof.Machine

/-! ### Jobs -/

theorem selectJob_mem {jobs : List Job} {j : Job} (h : selectJob jobs = some j) : j ∈ jobs := by
  unfold selectJob oldestOf at h
  repeat' split at h
  case h_2 => exact List.mem_of_head? h
  all_goals
    rename_i e
    exact Option.some.inj h ▸ List.mem_of_find?_eq_some e

theorem startJob_jobs (l : Fin 2) (j : Job) (s : State) : (startJob l j s).lanes.jobs = s.lanes.jobs := by
  unfold startJob Transform.setLane; dsimp only; split <;> rfl

theorem setLane_lane (x : Transform) (l m : Fin 2) (r : Option Running) :
    (x.setLane l r).lane m = if m = l then r else x.lane m := by
  unfold Transform.setLane Transform.lane; fin_cases l <;> fin_cases m <;> rfl

theorem setLane_jobs (x : Transform) (l : Fin 2) (r : Option Running) : (x.setLane l r).jobs = x.jobs := by
  unfold Transform.setLane; split <;> rfl

/-- A lane's selection: the lane has a job that waited or is idle, the other lane is as it was. -/
theorem refillLane_lanes (l : Fin 2) (s : State) :
    (∀ j ∈ (refillLane l s).lanes.jobs, ∃ i ∈ s.lanes.jobs, i.owner = j.owner) ∧
    (∀ x, (refillLane l s).lanes.lane l = some x → x.job ∈ s.lanes.jobs) ∧
    ∀ m, m ≠ l → (refillLane l s).lanes.lane m = s.lanes.lane m := by
  have hl : ∀ m, (refillLane l s).lanes.lane m = (selectLane l s).lanes.lane m := fun _ => rfl
  simp only [hl]
  show (∀ j ∈ (selectLane l s).lanes.jobs, _) ∧ _
  unfold selectLane
  split
  · refine ⟨fun j hj => ⟨j, ?_, rfl⟩, fun x hx => ?_, fun m hm => ?_⟩
    · simpa [setLane_jobs] using hj
    · simp [setLane_lane] at hx
    · simp [setLane_lane, hm]
  · rename_i j hj
    refine ⟨fun i hi => ?_, fun x hx => ?_, fun m hm => ?_⟩
    · rw [startJob_jobs] at hi
      obtain ⟨k, hk, rfl⟩ := List.mem_map.mp hi
      exact ⟨k, List.mem_of_mem_erase hk, rfl⟩
    · simp only [startJob, setLane_lane, ↓reduceIte, Option.some.injEq] at hx
      exact hx ▸ selectJob_mem hj
    · simp only [startJob, setLane_lane, if_neg hm]
      rfl

theorem owns_refillLane {l : Fin 2} {s : State} {o : Owner} (h : (refillLane l s).owns o) : s.owns o := by
  obtain ⟨h1, h2, h3⟩ := refillLane_lanes l s
  rcases h with ⟨j, hj, e⟩ | ⟨m, x, hx, e⟩
  · obtain ⟨i, hi, e'⟩ := h1 j hj
    exact .inl ⟨i, hi, e'.trans e⟩
  · by_cases hm : m = l
    · subst hm; exact .inl ⟨_, h2 x hx, e⟩
    · rw [h3 m hm] at hx; exact .inr ⟨m, x, hx, e⟩

/-- No waiting job is of this owner. -/
def State.noJob (s : State) (o : Owner) : Prop := ∀ j ∈ s.lanes.jobs, j.owner ≠ o

theorem noJob_refillLane {l : Fin 2} {s : State} {o : Owner} (h : s.noJob o) : (refillLane l s).noJob o ∧
    ∀ x, (refillLane l s).lanes.lane l = some x → x.job.owner ≠ o := by
  obtain ⟨h1, h2, _⟩ := refillLane_lanes l s
  refine ⟨fun j hj e => ?_, fun x hx => h _ (h2 x hx)⟩
  obtain ⟨i, hi, e'⟩ := h1 j hj
  exact h i hi (e'.trans e)

/-- A lane that runs a job of an owner is refilled. -/
def clearLane (o : Owner) (l : Fin 2) (s : State) : State :=
  if runsFor o (s.lanes.lane l) then refillLane l s else s

theorem dropJobs_eq (o : Owner) (s : State) : dropJobs o s =
    clearLane o 1 (clearLane o 0
      { s with lanes := { s.lanes with jobs := s.lanes.jobs.filter fun j => decide (j.owner ≠ o) } }) := rfl

theorem owns_clearLane {l : Fin 2} {s : State} {o o' : Owner} (h : (clearLane o l s).owns o') : s.owns o' := by
  unfold clearLane at h; split at h
  · exact owns_refillLane h
  · exact h

theorem noJob_clearLane {l : Fin 2} {s : State} {o : Owner} (h : s.noJob o) : (clearLane o l s).noJob o ∧
    (∀ x, (clearLane o l s).lanes.lane l = some x → x.job.owner ≠ o) ∧
    ∀ m, m ≠ l → (clearLane o l s).lanes.lane m = s.lanes.lane m := by
  unfold clearLane
  split
  · exact ⟨(noJob_refillLane h).1, (noJob_refillLane h).2, (refillLane_lanes l s).2.2⟩
  · rename_i hr
    refine ⟨h, fun x hx e => hr ?_, fun _ _ => rfl⟩
    rw [hx]; simpa [runsFor] using e

theorem owns_dropJobs {s : State} {o o' : Owner} (h : (dropJobs o s).owns o') : s.owns o' := by
  rw [dropJobs_eq] at h
  rcases owns_clearLane (owns_clearLane h) with ⟨j, hj, e⟩ | h
  · exact .inl ⟨j, List.mem_of_mem_filter hj, e⟩
  · exact .inr h

theorem not_owns_dropJobs (o : Owner) (s : State) : ¬ (dropJobs o s).owns o := by
  rw [dropJobs_eq]
  set s1 : State := { s with lanes := { s.lanes with jobs := s.lanes.jobs.filter fun j => decide (j.owner ≠ o) } }
  have h1 : s1.noJob o := fun j hj => by simpa using (List.mem_filter.mp hj).2
  obtain ⟨h2, h0, _⟩ := noJob_clearLane (l := 0) h1
  obtain ⟨h3, h4, h5⟩ := noJob_clearLane (l := 1) h2
  rintro (⟨j, hj, e⟩ | ⟨l, x, hx, e⟩)
  · exact h3 j hj e
  · by_cases hl : l = 1
    · subst hl; exact h4 x hx e
    · rw [h5 l hl] at hx
      obtain rfl : l = 0 := by omega
      exact h0 x hx e

theorem refillLane_rest (l : Fin 2) (s : State) : refillLane l s = { s with lanes := (refillLane l s).lanes } := by
  unfold refillLane selectLane startsDone startJob; split <;> rfl

theorem clearLane_rest (o : Owner) (l : Fin 2) (s : State) :
    clearLane o l s = { s with lanes := (clearLane o l s).lanes } := by
  unfold clearLane; split
  · exact refillLane_rest l s
  · rfl

theorem dropJobs_rest (o : Owner) (s : State) : dropJobs o s = { s with lanes := (dropJobs o s).lanes } := by
  rw [dropJobs_eq]
  set s1 : State := { s with lanes := { s.lanes with jobs := s.lanes.jobs.filter fun j => decide (j.owner ≠ o) } }
  rw [clearLane_rest o 1 (clearLane o 0 s1)]
  exact congrArg (fun z : State => { z with lanes := (clearLane o 1 (clearLane o 0 s1)).lanes }) (clearLane_rest o 0 s1)

/-! ### The end of a command's work -/

section ends

variable {ts : List HostTag}

theorem fades_dropJobs (o : Owner) (s : State) : Fades ts s (dropJobs o s) := by
  rw [dropJobs_rest]
  exact { Fades.refl s with rest := rfl, jobs := fun _ h => owns_dropJobs h }

theorem fades_dropRequests (t : HostTag) (s : State) : Fades ts s (dropRequests t s) :=
  { Fades.refl s with
    rest := rfl
    requests := fun q hq => .inl ⟨q, List.mem_of_mem_filter hq, rfl, rfl⟩
    link := fun _ => ⟨fun h => by simp only [dropRequests]; rw [h], id⟩
    drive := rfl }

theorem fades_leaveLinks (t : HostTag) (s : State) : Fades [t] s (leaveLinks t s) :=
  { Fades.refl s with
    rest := rfl
    drive := rfl
    queues := ⟨fun d => decide (d.who ≠ .host t), fun d hd => by simpa using hd t (by simp), rfl, rfl⟩
    link := fun _ => ⟨id, fun h => by simp only [leaveLinks]; rw [h]⟩
    host := ⟨rfl, [], by simp [leaveLinks]⟩ }

theorem fades_freeFramesOf (t : HostTag) (s : State) : Fades ts s (freeFramesOf t s) :=
  Fades.foldl (fun s n => fades_freeFrame n s) _ s

theorem fades_completionDue (c : Completion) (s : State) : Fades ts s (completionDue c s) :=
  { Fades.refl s with rest := rfl, host := ⟨rfl, [c], rfl⟩ }

theorem fades_failed {s : State} {t : HostTag} (h : (s.cmd? t).isSome = true) : Fades [t] s (s.setCmdState t .failed) :=
  { Fades.refl s with
    rest := rfl
    table := by
      refine ⟨_, rfl, fun c => ?_⟩
      by_cases e : c.tag = t
      · rw [if_pos e]
        refine ⟨rfl, rfl, .inr ⟨by simp [e], rfl⟩, fun hn => ?_⟩
        rw [e] at hn; rw [hn] at h; cases h
      · rw [if_neg e]; exact ⟨rfl, rfl, .inl rfl, fun _ => rfl⟩ }

theorem cmd?_failed (t : HostTag) (s : State) : (s.setCmdState t .failed).cmd? t = none := by
  rw [cmd?_eq_none]
  intro c hc e
  obtain ⟨d, hd, rfl⟩ := List.mem_map.mp hc
  dsimp only at e ⊢
  split at e
  · rw [if_pos ‹_›]
  · exact absurd e ‹_›

theorem freeFrame_noFrame {s : State} {t : HostTag} (ht : s.cmd? t = none) (n : Nat) {f : Frame}
    (hf : f ∈ (freeFrame n s).buffer.frames) (e : f.holder = t) :
    f.num ≠ n ∧ ∃ x ∈ s.buffer.frames, x.holder = t ∧ x.num = f.num := by
  obtain ⟨x, hx, e1, e2⟩ := Fades.noFrame (fades_arbitrateN (ts := []) 61
    { s with buffer := { s.buffer with frames := s.buffer.frames.filter fun f => decide (f.num ≠ n) } }) ht hf e
  obtain ⟨hx, hn⟩ := List.mem_filter.mp hx
  exact ⟨e2 ▸ by simpa using hn, x, hx, e1, e2⟩

theorem freeFrames_noFrame {t : HostTag} : ∀ (l : List Nat) (s : State), s.cmd? t = none →
    ∀ f ∈ (l.foldl (fun s n => freeFrame n s) s).buffer.frames, f.holder = t →
      f.num ∉ l ∧ ∃ x ∈ s.buffer.frames, x.holder = t ∧ x.num = f.num
  | [], _, _, f, hf, e => ⟨List.not_mem_nil, f, hf, e, rfl⟩
  | n :: l, s, ht, f, hf, e => by
    obtain ⟨hl, x, hx, e1, e2⟩ :=
      freeFrames_noFrame l (freeFrame n s) ((fades_freeFrame (ts := []) n s).dead ht) f hf e
    obtain ⟨hn, y, hy, e3, e4⟩ := freeFrame_noFrame ht n hx e1
    refine ⟨?_, y, hy, e3, e4.trans e2⟩
    rw [List.mem_cons, not_or]
    exact ⟨e2 ▸ hn, hl⟩

/-- A command that is not at work holds no frame after its frames have been freed. -/
theorem framesHeld_freeFramesOf {s : State} {t : HostTag} (ht : s.cmd? t = none) : (freeFramesOf t s).framesHeld t = 0 := by
  rw [framesHeld_eq_zero]
  intro f hf e
  obtain ⟨hn, x, hx, e1, e2⟩ := freeFrames_noFrame _ s ht f hf e
  exact hn (List.mem_map.mpr ⟨x, List.mem_filter.mpr ⟨hx, by simpa using e1⟩, e2⟩)

theorem fades_endWork (t : HostTag) (s : State) : Fades [t] s (endWork t s) :=
  (((fades_dropJobs _ s).trans (fades_dropRequests _ _)).trans (fades_leaveLinks _ _)).trans (fades_freeFramesOf _ _)

/-- The end of the work of a command that is not at work any more: nothing of it is left, and the drive commands of the
others are (R92, R126, R139). -/
theorem workOver_endWork {s : State} {t : HostTag} (ht : s.cmd? t = none) : (endWork t s).WorkOver t ∧
    (endWork t s).drive.outstanding = s.drive.outstanding.filter fun d => decide (d.who ≠ .host t) := by
  have h1 : Fades [t] s (leaveLinks t (dropRequests t (dropJobs (.host t) s))) :=
    ((fades_dropJobs _ s).trans (fades_dropRequests _ _)).trans (fades_leaveLinks _ _)
  have h2 : Fades [] (leaveLinks t (dropRequests t (dropJobs (.host t) s))) (endWork t s) := fades_freeFramesOf _ _
  obtain ⟨hq, ho⟩ := h2.queue_eq
  refine ⟨⟨framesHeld_freeFramesOf (h1.dead ht), h2.noRequest (h1.dead ht) ?_, ?_, ?_⟩, ?_⟩
  · intro q hq; simpa [leaveLinks] using (List.mem_filter.mp hq).2
  · rw [hq, ho]
    exact ⟨fun d hd => by simpa using (List.mem_filter.mp hd).2, fun d hd => by simpa using (List.mem_filter.mp hd).2⟩
  · rw [workOver_jobs]
    exact fun h => not_owns_dropJobs (.host t) s (h2.jobs _ h)
  · rw [ho]
    show ((dropJobs (.host t) s).drive.outstanding.filter _) = _
    rw [dropJobs_rest]

/-- A command whose work has failed: it stands in FAILED, and nothing of its work is left (R92, R19). -/
structure Failed (s u : State) (t : HostTag) : Prop where
  gone : u.cmd? t = none
  work : u.WorkOver t
  stands : ∀ c, s.cmd? t = some c → ∃ d ∈ u.table, d.tag = t ∧ d.state = .failed ∧ d.pieces = c.pieces

theorem Failed.fades {s v u : State} {t : HostTag} (h : Failed s v t) (k : Fades ts v u) : Failed s u t where
  gone := k.dead h.gone
  work := k.workOver h.gone h.work
  stands c hc := by
    obtain ⟨d, hd, rfl, h2, h3⟩ := h.stands c hc
    exact ⟨d, k.stands hd h.gone, rfl, h2, h3⟩

theorem fades_failWork (t : HostTag) (s : State) : Fades [t] s (failWork t s) := by
  unfold failWork
  split
  · rename_i c hc; exact (fades_failed (by rw [hc]; rfl)).trans (fades_endWork _ _)
  · exact .refl s

theorem failWork_of_cmd {s : State} {t : HostTag} {c : Cmd} (hc : s.cmd? t = some c) :
    failWork t s = endWork t (s.setCmdState t .failed) := by
  unfold failWork; rw [hc]

theorem mem_failWork {s : State} {t : HostTag} {c : Cmd} (hc : s.cmd? t = some c) :
    { c with state := .failed } ∈ (failWork t s).table := by
  rw [failWork_of_cmd hc]
  obtain ⟨hm, ht⟩ := cmd?_mem hc
  refine (fades_endWork t _).stands (List.mem_map.mpr ⟨c, hm, ?_⟩) ?_
  · rw [if_pos ht]
  · show State.cmd? _ c.tag = none
    rw [ht]; exact cmd?_failed t s

theorem failed_failWork {s : State} {t : HostTag} {c : Cmd} (hc : s.cmd? t = some c) : Failed s (failWork t s) t where
  gone := by
    rw [failWork_of_cmd hc]; exact (fades_endWork t _).dead (cmd?_failed t s)
  work := by
    rw [failWork_of_cmd hc]; exact (workOver_endWork (cmd?_failed t s)).1
  stands d hd := by
    obtain rfl : c = d := Option.some.inj (hc.symm.trans hd)
    exact ⟨_, mem_failWork hc, (cmd?_mem hc).2, rfl, rfl⟩

theorem outstanding_failWork {s : State} {t : HostTag} {c : Cmd} (hc : s.cmd? t = some c) :
    (failWork t s).drive.outstanding = s.drive.outstanding.filter fun d => decide (d.who ≠ .host t) := by
  rw [failWork_of_cmd hc]; exact (workOver_endWork (cmd?_failed t s)).2

theorem failCommand_of_cmd {s : State} {t : HostTag} {c : Cmd} (e : Ending) (hc : s.cmd? t = some c) :
    failCommand t e s = failWork t (completionDue { tag := t, ending := e } s) := by
  unfold failCommand; rw [hc]

theorem fades_failCommand (t : HostTag) (e : Ending) (s : State) : Fades [t] s (failCommand t e s) := by
  unfold failCommand
  split
  · exact (fades_completionDue _ s).trans (fades_failWork t _)
  · exact .refl s

/-- A completion that is due stays due. -/
theorem Fades.due {s u : State} (h : Fades ts s u) {k : Completion} (hk : k ∈ s.host.due) : k ∈ u.host.due := by
  obtain ⟨_, l, e⟩ := h.host
  rw [e]; exact List.mem_append_left l hk

theorem failed_failCommand {s : State} {t : HostTag} {c : Cmd} (e : Ending) (hc : s.cmd? t = some c) :
    Failed s (failCommand t e s) t ∧ ({ tag := t, ending := e } : Completion) ∈ (failCommand t e s).host.due := by
  rw [failCommand_of_cmd e hc]
  have h := failed_failWork (s := completionDue { tag := t, ending := e } s) hc
  exact ⟨⟨h.gone, h.work, h.stands⟩, (fades_failWork t _).due (by simp [completionDue])⟩

/-! ### The end of several commands -/

theorem fades_failAll (e : Ending) : ∀ (l : List HostTag) (s : State),
    Fades l s (l.foldl (fun s t => failCommand t e s) s)
  | [], s => .refl s
  | t :: l, s => ((fades_failCommand t e s).mono (by simp)).trans ((fades_failAll e l _).mono (by simp))

/-- Every command of the list that is at work fails, with its completion due. -/
theorem failed_failAll (e : Ending) {t : HostTag} {c : Cmd} : ∀ (l : List HostTag) (s : State), t ∈ l →
    s.cmd? t = some c → let u := l.foldl (fun s t => failCommand t e s) s
      Failed s u t ∧ ({ tag := t, ending := e } : Completion) ∈ u.host.due
  | [], _, hm, _ => absurd hm List.not_mem_nil
  | a :: l, s, hm, hc => by
    have hrest := fades_failAll e l (failCommand a e s)
    by_cases ha : a = t
    · subst ha
      obtain ⟨h1, h2⟩ := failed_failCommand e hc
      exact ⟨h1.fades hrest, hrest.due h2⟩
    · have hl : t ∈ l := (List.mem_cons.mp hm).resolve_left (Ne.symm ha)
      obtain ⟨d, hd, hp⟩ := (fades_failCommand a e s).kept (by simpa using Ne.symm ha) hc
      obtain ⟨h1, h2⟩ := failed_failAll e l _ hl hd
      refine ⟨⟨h1.gone, h1.work, fun c' hc' => ?_⟩, h2⟩
      obtain rfl : c = c' := Option.some.inj (hc.symm.trans hc')
      obtain ⟨x, hx, h3, h4, h5⟩ := h1.stands d hd
      exact ⟨x, hx, h3, h4, h5.trans hp⟩

end ends

theorem mem_abandonedTags {s : State} {t : HostTag} :
    t ∈ s.abandonedTags ↔ (∃ c ∈ s.table, c.tag = t) ∧ (s.driveCmdOf t).isSome = true := by
  simp only [State.abandonedTags, List.mem_map, List.mem_filter]
  constructor
  · rintro ⟨c, ⟨hc, hd⟩, rfl⟩; exact ⟨⟨c, hc, rfl⟩, hd⟩
  · rintro ⟨⟨c, hc, rfl⟩, hd⟩; exact ⟨c, ⟨hc, hd⟩, rfl⟩

/-! ### Errors at the drive (R92) -/

theorem queuedWho_host {t : HostTag} : queuedWho (.host t) = true ↔ t ≠ .immediate := by
  cases t <;> simp [queuedWho, tagQueued]

/-- The state in which the drive port has taken note of the error of a queued command. -/
def State.errorNoted (s : State) (k : Completion) : State :=
  { stopLink s with drive := { (stopLink s).drive with errorRead := true, failing := some k } }

theorem State.errorNoted_noPush (s : State) (k : Completion) :
    ∀ q ∈ (s.errorNoted k).buffer.requests, q.kind ≠ .push := fun q hq => by
  simpa using (List.mem_filter.mp hq).2

theorem failAtDrive_queued {s : State} {t : HostTag} {lba : Option Nat} {c : Cmd} (hc : s.cmd? t = some c)
    (ht : t ≠ .immediate) :
    failAtDrive t lba s = failWork t (s.errorNoted { tag := t, ending := .driveError (lba.map c.clampLba) }) := by
  have hq : queuedWho (.host t) = true := queuedWho_host.mpr ht
  unfold failAtDrive driveReportsError
  rw [hc]
  simp only [hq, if_true]
  rfl

theorem failAtDrive_immediate {s : State} {lba : Option Nat} {c : Cmd} (hc : s.cmd? .immediate = some c) :
    failAtDrive .immediate lba s =
      failWork .immediate (completionDue { tag := .immediate, ending := .driveError (lba.map c.clampLba) } s) := by
  unfold failAtDrive
  rw [hc]
  exact failCommand_of_cmd _ hc

/-- What a drive error that has been reported leaves: v is the state with the report, u the one in which the command's
work is over. -/
theorem driveError_spec {s v : State} {t : HostTag} {c : Cmd} (hc : v.cmd? t = some c) (hslots : v.slots = s.slots)
    (hout : v.drive.outstanding = s.drive.outstanding) (hmon : v.mon = s.mon ∧ v.clock = s.clock ∧ v.phase = s.phase) :
    let u := failWork t v
    { c with state := .failed } ∈ u.table ∧ u.cmd? t = none ∧ u.WorkOver t ∧ u.slots = s.slots ∧
      u.drive.outstanding = s.drive.outstanding.filter (fun d => decide (d.who ≠ .host t)) ∧
      u.mon = s.mon ∧ u.clock = s.clock ∧ u.phase = s.phase := by
  obtain ⟨h1, h2, _⟩ := failed_failWork hc
  have hf := (fades_failWork t v).rest
  refine ⟨mem_failWork hc, h1, h2, ?_, ?_, ?_, ?_, ?_⟩
  · rw [hf]; exact hslots
  · rw [outstanding_failWork hc, hout]
  · rw [hf]; exact hmon.1
  · rw [hf]; exact hmon.2.1
  · rw [hf]; exact hmon.2.2

theorem exec_driveError {s : State} {t : HostTag} {lba : Option Nat} (hr : s.inReset = false)
    (hl : s.drive.link = .up) (he : s.drive.errorRead = false) (hd : (s.driveCmdOf t).isSome = true) :
    exec (.driveError t lba) s = .next (pump (failAtDrive t lba s.quiet)) := by
  refine (act_running s (driveFails t lba) hr).trans (congrArg _ ?_)
  refine if_pos ⟨?_, hd⟩
  show (decide (s.drive.link = .up) && !s.drive.errorRead) = true
  rw [hl, he]; rfl

theorem exec_driveError_idle {s : State} {t : HostTag} {lba : Option Nat} (hr : s.inReset = false)
    (h : s.drive.link ≠ .up ∨ s.drive.errorRead = true ∨ s.driveCmdOf t = none) :
    exec (.driveError t lba) s = .next { s with out := [] } := by
  refine (act_running s (driveFails t lba) hr).trans (congrArg _ ?_)
  refine if_neg fun hn => ?_
  obtain ⟨hw, hd⟩ := hn
  have hw' : (decide (s.drive.link = .up) && !s.drive.errorRead) = true := hw
  have hd' : (s.driveCmdOf t).isSome = true := hd
  rcases h with h | h | h <;> simp [h] at hw' hd'

/-! ### The error record (R92, R156) -/

theorem failingKnown_rest (f : Completion → Completion) (s : State) : failingKnown f s = { s with
    drive := { s.drive with failing := none },
    host := { s.host with due := s.host.due ++ (s.drive.failing.map f).toList } } := by
  unfold failingKnown
  split
  · rename_i k hk; rw [hk]; rfl
  · rename_i hk
    rw [hk, Option.map_none, Option.toList_none, List.append_nil]
    show s = { s with drive := { s.drive with failing := none } }
    rw [← hk]

theorem reissueCmd_service {s : State} {n : Nat} {d : DriveCmd} (h : s.reissueCmd n = some d) (t : HostTag) :
    d.who ≠ .host t := by
  unfold State.reissueCmd at h
  split at h
  · cases h
  · split at h <;> (injection h with h; subst h; exact nofun)

/-- The state in which the error record has been read, and no command has ended yet. -/
def State.recordRead (s : State) : State :=
  failingKnown id (reissueOps s.abandonedOps { s with drive := { s.drive with outstanding := [], errorRead := false } })

theorem State.recordRead_eq (s : State) : s.recordRead = { s with
    drive := { s.drive with outstanding := [], errorRead := false, failing := none,
                            queue := s.abandonedOps.filterMap s.reissueCmd ++ s.drive.queue },
    host := { s.host with due := s.host.due ++ s.drive.failing.toList } } := by
  unfold State.recordRead
  rw [failingKnown_rest, Option.map_id]
  rfl

theorem exec_errorRecordRead {s : State} (hr : s.inReset = false) (he : s.drive.errorRead = true) :
    exec .errorRecordRead s =
      .next (pump (s.abandonedTags.foldl (fun s t => failCommand t .deviceError s) s.quiet.recordRead)) :=
  (act_running s errorRecordArrives hr).trans (congrArg _ (if_pos he))

/-- Service commands in front of the queue stay in front. -/
theorem Fades.queue_prefix {s u : State} {ts : List HostTag} (h : Fades ts s u) {l r : List DriveCmd}
    (hq : s.drive.queue = l ++ r) (hl : ∀ d ∈ l, ∀ t, d.who ≠ .host t) : ∃ rest, u.drive.queue = l ++ rest := by
  obtain ⟨p, hp, hu, _⟩ := h.queues
  refine ⟨r.filter p, ?_⟩
  rw [hu, hq, List.filter_append, List.filter_eq_self.mpr fun d hd => hp d fun t _ => hl d hd t]

/-- Settles O19: the end of the failing command's work, and of the abandoned commands one by one. -/
theorem driveErrorsEnd : Obligations.DriveErrorsEnd := by
  refine ⟨⟨fun s t lba c hr hl he hc hd => ⟨_, exec_driveError hr hl he hd, ?_⟩,
    fun s t lba hr h => exec_driveError_idle hr h⟩, fun s hr he => ?_, fun s hr he => ?_⟩
  · have hc' : s.quiet.cmd? t = some c := hc
    by_cases ht : t = .immediate
    · subst ht
      rw [failAtDrive_immediate hc']
      set v := completionDue { tag := .immediate, ending := .driveError (lba.map c.clampLba) } s.quiet
      have hf := fades_failWork .immediate v
      obtain ⟨h1, h2, h3, h4, h5, h6⟩ := driveError_spec (s := s) (v := v) hc rfl rfl ⟨rfl, rfl, rfl⟩
      refine ⟨fun _ => ⟨hf.due (by simp [v, completionDue]), ?_⟩, absurd rfl, h1, h2, h3, h4, h5, ?_, nofun, h6⟩
      · rw [hf.drive]; rfl
      · rw [hf.drive]; exact he
    · rw [failAtDrive_queued hc' ht]
      set v := s.quiet.errorNoted { tag := t, ending := .driveError (lba.map c.clampLba) }
      have hf := fades_failWork t v
      obtain ⟨h1, h2, h3, h4, h5, h6⟩ := driveError_spec (s := s) (v := v) hc rfl rfl ⟨rfl, rfl, rfl⟩
      obtain ⟨hhold, hxfer⟩ := hf.link (State.errorNoted_noPush _ _)
      refine ⟨fun e => absurd e ht, fun _ => ?_, h1, h2, h3, h4, h5, ?_, fun _ => ⟨hhold rfl, hxfer rfl⟩, h6⟩
      · rw [hf.drive]; rfl
      · rw [hf.drive, queuedWho_host.mpr ht]; rfl
  · have hv := State.recordRead_eq s.quiet
    set v := s.quiet.recordRead
    have hf := fades_failAll .deviceError s.abandonedTags v
    obtain ⟨rest, hq⟩ := hf.queue_prefix (congrArg (fun z : State => z.drive.queue) hv) fun d hd t => by
      obtain ⟨n, _, hn⟩ := List.mem_filterMap.mp hd
      exact reissueCmd_service hn t
    have hcmd : ∀ t, v.cmd? t = s.cmd? t := fun t => by rw [hv]; rfl
    refine ⟨_, rest, exec_errorRecordRead hr he, ?_, ?_, ?_, ?_, hq, fun k hk => hf.due ?_, fun t c hc hd => ?_, ?_,
      fun t c hc hd => ?_, ?_, ?_⟩
    · rw [hf.drive, hv]
    · rw [hf.drive, hv]
    · obtain ⟨p, _, _, h⟩ := hf.queues; rw [h, hv]; rfl
    · rw [hf.drive, hv]; rfl
    · rw [hv]; exact List.mem_append_right _ (by rw [show s.quiet.drive.failing = some k from hk]; simp)
    · have hm : t ∈ s.abandonedTags := mem_abandonedTags.mpr ⟨⟨c, cmd?_mem hc⟩, hd⟩
      obtain ⟨⟨h1, h2, h3⟩, h4⟩ := failed_failAll .deviceError _ v hm ((hcmd t).trans hc)
      exact ⟨h1, h2, h4, h3 c ((hcmd t).trans hc)⟩
    · rw [hf.rest, hv]; rfl
    · have hm : t ∉ s.abandonedTags := fun hm => by
        have := (mem_abandonedTags.mp hm).2
        rw [hd] at this; cases this
      obtain ⟨d, h, _⟩ := hf.kept hm ((hcmd t).trans hc)
      rw [h]; rfl
    · rw [hf.rest, hv]; rfl
    · rw [hf.rest, hv]; rfl
  · refine (act_running s errorRecordArrives hr).trans (congrArg _ (if_neg ?_))
    show ¬ (s.drive.errorRead = true)
    rw [he]; exact Bool.false_ne_true

end Sys2Proof.Machine
end

section
/-!
SUPPORT. What follows the end of a service operation: the commands that begin, the control command that is answered, the
slot's next step, the sweep's next index (R7 to R13, R22, R87, R152, R163, R193).
-/

namespace Sys2Proof.Machine

/-! ### Commands that begin (R72, R78) -/

/-- Commands have begun between s and u: each may have joined the drive issue queue and made requests. -/
def Begun (s u : State) : Prop :=
  u = { s with table := u.table, buffer := u.buffer, stamp := u.stamp, drive := { s.drive with queue := u.drive.queue } }

namespace Begun

theorem refl (s : State) : Begun s s := rfl

theorem trans {s t u : State} (h : Begun s t) (k : Begun t u) : Begun s u := by
  unfold Begun at *; rw [k, h]

theorem foldl {α : Type} {f : State → α → State} (hf : ∀ s a, Begun s (f s a)) :
    ∀ (l : List α) (s : State), Begun s (l.foldl f s)
  | [], s => .refl s
  | a :: l, s => (hf s a).trans (foldl hf l (f s a))

end Begun

theorem begun_modCmd (s : State) (t : HostTag) (f : Cmd → Cmd) : Begun s (s.modCmd t f) := rfl

theorem begun_grant {r : Req} (s : State) (hk : r.kind ≠ .push) : Begun s (grant r s) := by
  unfold grant
  split
  · dsimp only
    split
    · contradiction
    · rfl
    · rfl
  · rfl

theorem begun_followUp : ∀ (fuel : Nat) (t : HostTag) (s : State), Begun s (followUp fuel t s)
  | 0, _, s => .refl s
  | fuel + 1, t, s => by
    unfold followUp
    split
    · exact .refl s
    · split
      · exact .refl s
      · exact Begun.trans (t := takeBase t _ s) rfl (begun_followUp fuel t _)
      · rename_i hw
        split
        · exact (begun_grant s (wanted_kind hw)).trans (begun_followUp fuel t _)
        · rfl

theorem begun_makeRequests (t : HostTag) (s : State) : Begun s (makeRequests t s) := begun_followUp 16 t s

theorem begun_joinRun (c : Cmd) (op : DriveOp) (k : Nat) (s : State) : Begun s (joinRun c op k s) := by
  unfold joinRun; split <;> rfl

theorem begun_joinMergeRead (c : Cmd) (s : State) : Begun s (joinMergeRead c s) := by
  unfold joinMergeRead; split <;> rfl

theorem begun_enterCmdActive (t : HostTag) (s : State) : Begun s (enterCmdActive t s) := by
  unfold enterCmdActive
  split
  · exact .refl s
  · refine Begun.trans ?_ (begun_makeRequests t _)
    split
    · split
      · rfl
      · exact (begun_modCmd s t _).trans (begun_joinRun _ _ _ _)
    · exact (begun_modCmd s t _).trans (begun_joinRun _ _ _ _)
    all_goals rfl

theorem begun_beginCmd (t : HostTag) (s : State) : Begun s (beginCmd t s) := by
  unfold beginCmd
  split
  · exact .refl s
  · split
    · exact (begun_modCmd s t _).trans (begun_joinMergeRead _ _)
    · exact begun_enterCmdActive t s

theorem begun_beginReleased (s : State) : Begun s (beginReleased s) :=
  Begun.foldl (fun s t => begun_beginCmd t s) _ s

theorem begun_storeEnded (n : Nat) (s : State) : Begun s (storeEnded n s) :=
  Begun.trans (t := { s with table := _ }) rfl (begun_beginReleased _)

theorem begun_enterTable (c : Cmd) (s : State) : Begun s (enterTable c s) := by
  unfold enterTable
  split
  · exact Begun.trans (t := { s with table := s.table ++ [c] }) rfl (begun_beginCmd _ _)
  · rfl

/-! ### What a service operation's end can do -/

/-- What lies between s and u when an operation has ended and its owner has acted, apart from the flags: see the field. -/
structure Settles (s u : State) : Prop where
  rest : u = { s with
    table := u.table, buffer := u.buffer, stamp := u.stamp, lanes := u.lanes, cat := u.cat, slots := u.slots,
    map := u.map, phase := u.phase, draws := u.draws, drive := { s.drive with queue := u.drive.queue },
    host := { s.host with due := u.host.due },
    win := { s.win with executing := u.win.executing, reply := u.win.reply, flags := u.win.flags } }
  flags : ∀ f, s.hasFlag f = true → u.hasFlag f = true
  due : s.host.due ⊆ u.host.due

namespace Settles

theorem refl (s : State) : Settles s s := ⟨rfl, fun _ => id, fun _ => id⟩

theorem trans {s t u : State} (h : Settles s t) (k : Settles t u) : Settles s u where
  rest := by rw [k.rest, h.rest]
  flags f hf := k.flags f (h.flags f hf)
  due := fun _ hc => k.due (h.due hc)

theorem out {s u : State} (h : Settles s u) : u.out = s.out := by rw [h.rest]
theorem mon {s u : State} (h : Settles s u) : u.mon = s.mon := by rw [h.rest]
theorem clock {s u : State} (h : Settles s u) : u.clock = s.clock := by rw [h.rest]
theorem nonce {s u : State} (h : Settles s u) : u.win.nonce = s.win.nonce := by rw [h.rest]
theorem drive {s u : State} (h : Settles s u) : u.drive = { s.drive with queue := u.drive.queue } := by rw [h.rest]

end Settles

theorem State.ServiceWork.settles {s u : State} (h : s.ServiceWork u) : Settles s u where
  rest := by conv_lhs => rw [h.rest, h.drive]
             rw [h.rest]
  flags f hf := by unfold State.hasFlag at *; rw [h.win]; exact hf
  due := by rw [h.host]; exact fun _ => id

theorem Begun.settles {s u : State} (h : Begun s u) : Settles s u where
  rest := by rw [h]
  flags f hf := by unfold State.hasFlag at *; rw [h]; exact hf
  due := by rw [h]; exact fun _ => id

theorem settles_setSlot (s : State) (i : SlotIx) (t : TitleSlot) : Settles s (s.setSlot i t) :=
  ⟨rfl, fun _ => id, fun _ => id⟩

theorem settles_modSlot (s : State) (i : SlotIx) (f : TitleSlot → TitleSlot) : Settles s (s.modSlot i f) :=
  settles_setSlot s i _

theorem settles_cat (s : State) (c : Catalogue) : Settles s { s with cat := c } := ⟨rfl, fun _ => id, fun _ => id⟩

theorem settles_map (s : State) (m : List Extent) : Settles s { s with map := m } := ⟨rfl, fun _ => id, fun _ => id⟩

theorem hasFlag_setFlag_of (s : State) (f g : EventFlag) (h : s.hasFlag g = true) : (s.setFlag f).hasFlag g = true := by
  have hb : ∀ x y : BitVec 8, x &&& y ≠ 0#8 → (x ||| f.bit) &&& y ≠ 0#8 := fun x y hx e => hx <| by
    have : (x ||| f.bit) &&& y = (x &&& y) ||| (f.bit &&& y) := by
      ext i hi; simp only [BitVec.getElem_and, BitVec.getElem_or]; cases x[i] <;> cases y[i] <;> simp
    rw [this] at e
    exact (BitVec.or_eq_zero_iff.mp e).1
  exact decide_eq_true (hb _ _ (of_decide_eq_true h))

theorem settles_setFlag (s : State) (f : EventFlag) : Settles s (s.setFlag f) :=
  ⟨rfl, fun g => hasFlag_setFlag_of s f g, fun _ => id⟩

theorem settles_enterIdle (i : SlotIx) (s : State) : Settles s (enterIdle i s) :=
  (serviceWork_dropClaims _ s).settles.trans (settles_setSlot _ _ _)

theorem settles_setStage (st : Stage) (s : State) : Settles s (setStage st s) := by
  unfold setStage; split <;> exact ⟨rfl, fun _ => id, fun _ => id⟩

theorem settles_finishControl (x : Result) (d : Details) (s : State) : Settles s (finishControl x d s) := by
  unfold finishControl
  split
  · exact .refl s
  · dsimp only
    split
    · exact ⟨rfl, fun _ => id, List.subset_append_left _ _⟩
    · exact ⟨rfl, fun _ => id, fun _ => id⟩

theorem settles_answerWith (st : Stage) (i : SlotIx) (x : Result) (d : Details) (s : State) :
    Settles s (answerWith st i x d s) := by
  unfold answerWith; split
  · exact settles_finishControl _ _ _
  · exact .refl s

theorem settles_answer (st : Stage) (i : SlotIx) (x : Result) (s : State) : Settles s (answer st i x s) :=
  settles_answerWith st i x .none s

theorem settles_leaveDraining (i : SlotIx) (s : State) : Settles s (leaveDraining i s) := by
  have h0 : Settles s { s with map := s.map.filter fun e => decide (e.slot ≠ i) } := settles_map s _
  unfold leaveDraining
  dsimp only
  split
  · split
    · exact (h0.trans (settles_modSlot _ _ _)).trans (serviceWork_requestOp _ _ _ _).settles
    · exact (h0.trans (settles_enterIdle _ _)).trans (settles_answer _ _ _ _)
  · exact (h0.trans (settles_modSlot _ _ _)).trans (serviceWork_requestOp _ _ _ _).settles
  · exact (h0.trans (settles_enterIdle _ _)).trans (settles_answer _ _ _ _)

theorem settles_drainTest (i : SlotIx) (s : State) : Settles s (drainTest i s) := by
  unfold drainTest; dsimp only; split
  · exact settles_leaveDraining i s
  · exact .refl s

theorem settles_expireSlot (i : SlotIx) (s : State) : Settles s (expireSlot i s) := by
  unfold expireSlot startDrain; split
  · exact ((settles_setFlag s _).trans (settles_modSlot _ _ _)).trans (settles_drainTest _ _)
  · exact .refl s

theorem settles_enterActive (i : SlotIx) (s : State) : Settles s (enterActive i s) :=
  (settles_modSlot s _ _).trans (settles_expireSlot _ _)

theorem settles_sweepTo : ∀ (n j : Nat) (s : State), Settles s (sweepTo n j s)
  | 0, _, s => (settles_cat s _).trans (settles_setFlag _ _)
  | n + 1, j, s => by
    unfold sweepTo; split
    · exact settles_sweepTo n _ s
    · exact ((settles_cat s _).trans (serviceWork_takeClaim _ _ _).settles).trans (serviceWork_requestOp _ _ _ _).settles

theorem settles_sweepOn (j : Nat) (s : State) : Settles s (sweepOn j s) := by
  unfold sweepOn
  refine Settles.trans ?_ (settles_sweepTo _ _ _)
  refine (serviceWork_dropClaims .sweep s).settles.trans ?_
  split
  · exact (serviceWork_claimAndLoad _ _ _).settles
  · exact .refl _

/-! ### Answers -/

/-- A command that waits in s for the stage and the slot is answered in u, where u goes on from an answer and s has come
to it without a change of the window. -/
theorem answers_answerWith {s v u : State} {st : Stage} {k : SlotIx} {x : Result} {d : Details}
    (hv : v.win.executing = s.win.executing) (he : u.win.executing = (answerWith st k x d v).win.executing)
    (hu : Settles (answerWith st k x d v) u) (hr : u.win.reply = (answerWith st k x d v).win.reply) :
    s.Answers u st k x d := by
  intro tag r hw hk
  have hv' : v.waiting tag r st := State.waiting_of_executing hw hv
  have ha : answerWith st k x d v = finishControl x d v := if_pos (waitsAt_of_waiting hv' hk)
  obtain ⟨h1, h2, _, _⟩ := answered_finishControl x d hv'
  rw [ha] at he hu hr
  have hn : u.win.nonce = v.win.nonce := by rw [hu.nonce, h1]
  refine ⟨by rw [he, h1], ?_, fun t ht => ?_⟩
  · unfold State.replied
    rw [hr, hn, h1]
    exact ⟨_, rfl, rfl, rfl, rfl, rfl, rfl, rfl⟩
  · refine hu.due ?_
    rw [h2, ht]
    exact List.mem_append_right _ (List.mem_singleton_self _)

/-- The rest of an answer: the window's command, its completion and its slot of the table. -/
theorem answerWith_rest (st : Stage) (i : SlotIx) (x : Result) (d : Details) (s : State) :
    answerWith st i x d s = { s with
      table := (answerWith st i x d s).table, host := (answerWith st i x d s).host,
      win := (answerWith st i x d s).win } := by
  unfold answerWith finishControl
  split
  · split
    · rfl
    · dsimp only; split <;> rfl
  · rfl

theorem answer_slots (st : Stage) (i : SlotIx) (x : Result) (s : State) :
    (answer st i x s).slots = s.slots ∧ (answer st i x s).map = s.map := by
  have h : answer st i x s = _ := answerWith_rest st i x .none s
  rw [h]; exact ⟨rfl, rfl⟩

theorem enterIdle_slot (i : SlotIx) (s : State) : (enterIdle i s).slot i = TitleSlot.empty := by
  unfold enterIdle; exact State.slot_setSlot_same _ _ _

/-- A slot that goes to IDLE with an answer to the command that waits for it. -/
theorem idle_answerWith {s v : State} {st : Stage} {k : SlotIx} (x : Result) (d : Details)
    (hv : v.win.executing = s.win.executing) :
    let u := answerWith st k x d (enterIdle k v)
    u.slot k = TitleSlot.empty ∧ u.map = v.map ∧ s.Answers u st k x d := by
  refine ⟨?_, ?_, answers_answerWith (v := enterIdle k v) hv rfl (.refl _) rfl⟩
  · unfold State.slot
    rw [answerWith_rest]
    exact enterIdle_slot k v
  · rw [answerWith_rest]; rfl

end Sys2Proof.Machine
end

section
/-!
SUPPORT. The sweep goes on from an index (R152, R163).
-/

namespace Sys2Proof.Machine

/-! ### Operations stay asked for -/

theorem requestOp_ops (k : SvcKind) (o : SvcOwner) (ext : Option (List RecExtent)) (s : State) :
    (requestOp k o ext s).ops.Perm (s.ops ++ [{ num := s.stamp, kind := k, owner := o, extents := ext }]) := by
  unfold requestOp
  refine (takeTags_ops 4 _).trans ?_
  unfold State.ops
  rw [List.append_assoc, List.append_assoc]
  exact List.perm_append_comm.append_left _

theorem asks_requestOp_of {k : SvcKind} {o : SvcOwner} {s : State} (h : s.asks k o) (k' : SvcKind) (o' : SvcOwner)
    (ext : Option (List RecExtent)) : (requestOp k' o' ext s).asks k o := by
  rw [State.asks_iff] at h ⊢
  obtain ⟨op, hop, h⟩ := h
  exact ⟨op, (requestOp_ops k' o' ext s).mem_iff.mpr (List.mem_append_left _ hop), h⟩

/-! ### Claims by index and owner (R152) -/

theorem State.claim?_claimed (s : State) (i : Nat) :
    (s.claim? i).map (fun c => (c.index, c.owner)) = s.claimed.find? fun c => decide (c.1 = i) := by
  unfold State.claim? State.claimed
  rw [List.find?_map]; rfl

/-- Claims, by index and owner, of which the first at an index is a slot's. -/
def slotFirst (l : List (Nat × SvcOwner)) (i : Nat) : Bool :=
  match l.find? fun c => decide (c.1 = i) with
  | some (_, .slot _) => true
  | _ => false

theorem State.slotClaims_eq (s : State) (i : Nat) : s.slotClaims i = slotFirst s.claimed i := by
  unfold State.slotClaims slotFirst
  rw [← s.claim?_claimed i]
  cases s.claim? i with
  | none => rfl
  | some c =>
    simp only [Option.map_some]
    cases c.owner <;> rfl

theorem slotFirst_of_filter {l l' : List (Nat × SvcOwner)} {i : Nat} (h : slotFirst l i = true) :
    slotFirst ((l.filter fun c => decide (c.2 ≠ .sweep)) ++ l') i = true := by
  unfold slotFirst at h ⊢
  rw [List.find?_append, List.find?_filter]
  cases hf : l.find? (fun c => decide (c.1 = i)) with
  | none => rw [hf] at h; cases h
  | some c =>
    obtain ⟨n, o⟩ := c
    rw [hf] at h
    obtain ⟨k, rfl⟩ : ∃ k, o = .slot k := by cases o <;> first | exact ⟨_, rfl⟩ | cases h
    have : l.find? (fun c => decide (decide (c.2 ≠ .sweep) = true ∧ decide (c.1 = i) = true)) = some (n, .slot k) := by
      rw [List.find?_eq_some_iff_append] at hf ⊢
      obtain ⟨h1, as, bs, hl, h2⟩ := hf
      refine ⟨by simpa using h1, as, bs, hl, fun a ha => ?_⟩
      have := h2 a ha
      simp only [Bool.not_eq_true', decide_eq_false_iff_not] at this
      simp [this]
    rw [this]; rfl

theorem not_slotFirst {l : List (Nat × SvcOwner)} {i : Nat} (h : ∀ c ∈ l, c.1 = i → ∀ k, c.2 ≠ .slot k) :
    slotFirst l i = false := by
  unfold slotFirst
  split
  · rename_i n k hf
    exact absurd rfl (h _ (List.mem_of_find?_eq_some hf) (by simpa using List.find?_some hf) k)
  · rfl

/-! ### The sweep's next index (R163) -/

/-- The sweep goes to the first index from j on that no slot claims. -/
theorem sweepTo_next : ∀ (n j0 j : Nat) (s : State), j0 ≤ j → j < j0 + n →
    (∀ m, j0 ≤ m → m < j → s.slotClaims m = true) → s.slotClaims j = false →
    sweepTo n j0 s = requestOp (.load j) .sweep none (takeClaim j .sweep { s with cat := { s.cat with progress := j } })
  | 0, j0, j, s, h1, h2, _, _ => by omega
  | n + 1, j0, j, s, h1, h2, hc, hj => by
    unfold sweepTo
    by_cases e : j0 = j
    · subst e; rw [if_neg (by rw [hj]; exact Bool.false_ne_true)]
    · rw [if_pos (hc j0 (Nat.le_refl _) (by omega))]
      exact sweepTo_next n (j0 + 1) j s (by omega) (by omega) (fun m h h' => hc m (by omega) h') hj

/-- Where slots claim every index that is left the sweep ends. -/
theorem sweepTo_end : ∀ (n j0 : Nat) (s : State), (∀ m, j0 ≤ m → m < j0 + n → s.slotClaims m = true) →
    sweepTo n j0 s = ({ s with cat := { s.cat with sweeping := false, progress := 0 } } : State).setFlag .sweepDone
  | 0, _, _, _ => rfl
  | n + 1, j0, s, hc => by
    unfold sweepTo
    rw [if_pos (hc j0 (Nat.le_refl _) (by omega))]
    exact sweepTo_end n (j0 + 1) s fun m h h' => hc m (by omega) (by omega)

/-- What the sweep's move leaves. -/
theorem sweepTo_keeps : ∀ (n j : Nat) (s : State), (sweepTo n j s).slots = s.slots ∧ (sweepTo n j s).map = s.map ∧
    (sweepTo n j s).cat.erased = s.cat.erased ∧ s.claimed ⊆ (sweepTo n j s).claimed ∧
    ∀ k o, s.asks k o → (sweepTo n j s).asks k o
  | 0, _, s => ⟨rfl, rfl, rfl, fun _ => id, fun _ _ h => h⟩
  | n + 1, j, s => by
    unfold sweepTo
    split
    · exact sweepTo_keeps n _ s
    · set v : State := takeClaim j .sweep { s with cat := { s.cat with progress := j } }
      have h := serviceWork_requestOp (.load j) .sweep none v
      refine ⟨h.slots, h.map, h.erased, fun c hc => ?_, fun k o ho => asks_requestOp_of (s := v) ho _ _ _⟩
      rw [requestOp_claimed, takeClaim_claimed]
      exact List.mem_append_left _ hc

/-- The state in which the claim of the sweep's index has been released, and handed to the slot that waits for it. -/
def handIndex (j : Nat) (s : State) : State :=
  match (dropClaims .sweep s).claimWaiter j with
  | some k => claimAndLoad k j (dropClaims .sweep s)
  | none => dropClaims .sweep s

theorem sweepOn_eq (j : Nat) (s : State) : sweepOn j s = sweepTo (1023 - j) (j + 1) (handIndex j s) := rfl

theorem serviceWork_handIndex (j : Nat) (s : State) : s.ServiceWork (handIndex j s) := by
  unfold handIndex
  split
  · exact (serviceWork_dropClaims _ _).trans (serviceWork_claimAndLoad _ _ _)
  · exact serviceWork_dropClaims _ _

/-- The claims after a hand-over: the sweep's are gone, and at most the index itself is claimed anew. -/
theorem handIndex_claimed (j : Nat) (s : State) : ∃ l, (∀ c ∈ l, c.1 = j) ∧
    (handIndex j s).claimed = (s.claimed.filter fun c => decide (c.2 ≠ .sweep)) ++ l := by
  unfold handIndex
  split
  · rename_i k _
    unfold claimAndLoad
    split
    · exact ⟨[], by simp, by rw [dropClaims_claimed, List.append_nil]⟩
    · exact ⟨[(j, .slot k)], by simp, by rw [requestOp_claimed, takeClaim_claimed, dropClaims_claimed]⟩
  · exact ⟨[], by simp, by rw [dropClaims_claimed, List.append_nil]⟩

theorem claimWaiter_eq {s : State} {i : Nat} {k : SlotIx} (h : (s.slot k).phase = .loading ∧ (s.slot k).number = some i)
    (hf : ∀ m, m < k → ¬ ((s.slot m).phase = .loading ∧ (s.slot m).number = some i)) : s.claimWaiter i = some k := by
  have hk : (decide ((s.slot k).phase = .loading) && decide ((s.slot k).number = some i)) = true := by simp [h]
  unfold State.claimWaiter
  cases hw : allSlots.find? fun k => decide ((s.slot k).phase = .loading) && decide ((s.slot k).number = some i) with
  | none => exact absurd hk (List.find?_eq_none.mp hw k (mem_allSlots k))
  | some m =>
    obtain ⟨hm, as, bs, hl, has⟩ := List.find?_eq_some_iff_append.mp hw
    have hsort : allSlots.Pairwise (· < ·) := by decide
    have hmem : k ∈ as ++ m :: bs := hl ▸ mem_allSlots k
    rw [hl, List.pairwise_append] at hsort
    obtain ⟨_, hbs, _⟩ := hsort
    rcases List.mem_append.mp hmem with h1 | h1
    · have := has k h1
      rw [hk] at this; cases this
    · rcases List.mem_cons.mp h1 with h1 | h1
      · rw [h1]
      · exact absurd (by simpa using hm) (hf m ((List.pairwise_cons.mp hbs).1 k h1))

/-- The slot that waits in LOADING for the sweep's index takes it over (R152). -/
theorem handIndex_hands {s : State} {i : Nat} {k : SlotIx} (h : (s.slot k).phase = .loading ∧ (s.slot k).number = some i)
    (hf : ∀ m, m < k → ¬ ((s.slot m).phase = .loading ∧ (s.slot m).number = some i))
    (hc : ∀ c ∈ s.claimed, c.1 = i → c.2 = .sweep) :
    (handIndex i s).asks (.load i) (.slot k) ∧ (i, .slot k) ∈ (handIndex i s).claimed := by
  have hw : (dropClaims .sweep s).claimWaiter i = some k := claimWaiter_eq (s := dropClaims .sweep s) h hf
  have hnone : (dropClaims .sweep s).claim? i = none := by
    have hn : (dropClaims .sweep s).claimed.find? (fun c => decide (c.1 = i)) = none := by
      rw [List.find?_eq_none, dropClaims_claimed]
      intro c hm e
      obtain ⟨hm, hs⟩ := List.mem_filter.mp hm
      exact absurd (hc c hm (by simpa using e)) (by simpa using hs)
    rw [← State.claim?_claimed, Option.map_eq_none_iff] at hn
    exact hn
  unfold handIndex
  rw [hw]
  obtain ⟨h1, h2⟩ := claimAndLoad_asks (k := k) hnone
  exact ⟨h1, State.mem_claimed.mpr h2⟩

/-- The sweep goes on from index i in t, where t has the slots, the map and the claims of s. -/
theorem sweepGoesOn {s t : State} (i : Nat) (hs : t.slots = s.slots) (hm : t.map = s.map) (hc : t.claimed = s.claimed)
    (hw : t.cat.sweeping = s.cat.sweeping) :
    s.SweepGoesOn (sweepOn i t) i ∧ (sweepOn i t).cat.erased = t.cat.erased := by
  have hh := serviceWork_handIndex i t
  obtain ⟨l, hl, hcl⟩ := handIndex_claimed i t
  have hclaims : ∀ m, s.slotClaims m = true → (handIndex i t).slotClaims m = true := fun m h => by
    rw [State.slotClaims_eq] at h ⊢
    rw [hcl, hc]
    exact slotFirst_of_filter h
  have hslot : ∀ m, t.slot m = s.slot m := fun m => by unfold State.slot; rw [hs]
  rw [sweepOn_eq]
  obtain ⟨k1, k2, k3, k4, k5⟩ := sweepTo_keeps (1023 - i) (i + 1) (handIndex i t)
  refine ⟨⟨fun j hij hj hbelow hfree => ?_, fun hall => ?_, fun k hp hn hfirst hown => ?_, ?_⟩, k3.trans hh.erased⟩
  · have hnot : (handIndex i t).slotClaims j = false := by
      rw [State.slotClaims_eq, hcl, hc]
      refine not_slotFirst fun c hmem e k => ?_
      rcases List.mem_append.mp hmem with hmem | hmem
      · obtain ⟨x, hx, rfl⟩ := List.mem_map.mp (List.mem_of_mem_filter hmem)
        exact hfree x hx e k
      · exact absurd (hl c hmem) (by omega)
    rw [sweepTo_next _ _ j _ (by omega) (by omega) (fun m h h' => hclaims m (hbelow m (by omega) h')) hnot]
    set v : State := takeClaim j .sweep { handIndex i t with cat := { (handIndex i t).cat with progress := j } } with hv
    have hr := serviceWork_requestOp (.load j) .sweep none v
    refine ⟨hr.progress, hr.sweeping.trans (hh.sweeping.trans hw), asks_requestOp _ _ _ _, State.mem_claimed.mp ?_⟩
    rw [requestOp_claimed, hv, takeClaim_claimed]
    exact List.mem_append_right _ (List.mem_singleton_self _)
  · rw [sweepTo_end _ _ _ fun m h h' => hclaims m (hall m (by omega) (by omega))]
    exact ⟨rfl, rfl, hasFlag_setFlag _ _⟩
  · obtain ⟨h1, h2⟩ := handIndex_hands (s := t) (i := i) (k := k) (by rw [hslot]; exact ⟨hp, hn⟩)
      (fun m hm' => by rw [hslot]; exact hfirst m hm') fun c hmem e => by
        rw [hc] at hmem
        obtain ⟨x, hx, rfl⟩ := List.mem_map.mp hmem
        exact hown x hx e
    exact ⟨k5 _ _ h1, State.mem_claimed.mp (k4 h2)⟩
  · exact ⟨k1.trans (hh.slots.trans hs), k2.trans (hh.map.trans hm)⟩

end Sys2Proof.Machine
end

section
/-!
SUPPORT. The ends of stores and erases, good or failed (R7 to R13, R22, R151, R156, R161, R163).
-/

namespace Sys2Proof.Machine

/-! ### A slot's next step -/

theorem answer_slot (st : Stage) (i : SlotIx) (x : Result) (s : State) (k : SlotIx) :
    (answer st i x s).slot k = s.slot k := by
  unfold State.slot; rw [(answer_slots st i x s).1]

/-- A slot that leaves DRAINING is out of it, and its extents are out of the map (R11, R38). -/
theorem leaveDraining_left (i : SlotIx) (s : State) : ((leaveDraining i s).slot i).phase ≠ .draining ∧
    ∀ e ∈ (leaveDraining i s).map, e.slot ≠ i := by
  have hmap : ∀ e ∈ s.map.filter (fun e => decide (e.slot ≠ i)), e.slot ≠ i := fun e he => by
    simpa using (List.mem_filter.mp he).2
  by_cases hk : (s.slot i).kind = some .recording
  · by_cases hd : (s.slot i).drain = some .closed
    · cases hdirty : (s.slot i).dirty with
      | true =>
        rw [leaveDraining_store hk hd hdirty, (serviceWork_requestOp _ _ _ _).slot, (serviceWork_requestOp _ _ _ _).map,
          State.slot_setSlot_same]
        exact ⟨nofun, hmap⟩
      | false =>
        rw [leaveDraining_idle (.inr ⟨hd, hdirty⟩), (answer_slots _ _ _ _).2, answer_slot, enterIdle_slot]
        exact ⟨nofun, hmap⟩
    · rw [leaveDraining_erase hk hd, (serviceWork_requestOp _ _ _ _).slot, (serviceWork_requestOp _ _ _ _).map,
        State.slot_setSlot_same]
      exact ⟨nofun, hmap⟩
  · rw [leaveDraining_idle (.inl hk), (answer_slots _ _ _ _).2, answer_slot, enterIdle_slot]
    exact ⟨nofun, hmap⟩

/-- An ACTIVE recording that expires is not ACTIVE any more, and the window's command still waits (R9, R11). -/
theorem expireSlot_due {i : SlotIx} {s : State} (hp : (s.slot i).phase = .active)
    (hk : (s.slot i).kind = some .recording) (h : expiryDue (s.slot i).expiry s.clock = true) :
    ((expireSlot i s).slot i).phase ≠ .active ∧ (expireSlot i s).hasFlag .titleExpired = true ∧
      (expireSlot i s).win.executing = s.win.executing := by
  have hset := (settles_setFlag s .titleExpired)
  rw [expireSlot_of_due hp hk h]
  set v := s.setFlag .titleExpired with hv
  have hflag : (startDrain i .expired v).hasFlag .titleExpired = true :=
    ((settles_modSlot v _ _).trans (settles_drainTest _ _)).flags _ (hasFlag_setFlag s .titleExpired)
  by_cases hf : (v.slot i).inFlight ≠ 0 ∨ (v.slot i).storeInFlight = true
  · rw [startDrain_stays hf] at hflag ⊢
    rw [State.slot_setSlot_same]
    exact ⟨nofun, hflag, rfl⟩
  · rw [not_or, not_not, Bool.not_eq_true] at hf
    rw [startDrain_leaves hf.1 hf.2] at hflag ⊢
    rw [leaveDraining_erase (by rw [State.slot_setSlot_same]; exact hk) (by rw [State.slot_setSlot_same]; exact nofun)]
      at hflag ⊢
    rw [(serviceWork_requestOp _ _ _ _).slot, State.slot_setSlot_same]
    exact ⟨nofun, hflag, by rw [(serviceWork_requestOp _ _ _ _).win]; rfl⟩

theorem expireSlot_executing (i : SlotIx) (s : State) : (expireSlot i s).win.executing = s.win.executing := by
  by_cases h : (s.slot i).expires s.clock = true
  · have h' := h
    unfold TitleSlot.expires at h'
    simp only [Bool.and_eq_true, decide_eq_true_eq] at h'
    exact (expireSlot_due h'.1.1 h'.1.2 h'.2).2.2
  · unfold expireSlot; rw [if_neg h]

/-- The step into ACTIVE of a title whose expiry is not due. -/
theorem enterActive_of_not {i : SlotIx} {s : State} (h : expiryDue (s.slot i).expiry s.clock = false) :
    enterActive i s = s.setSlot i { s.slot i with phase := .active } := by
  unfold enterActive
  rw [State.modSlot_eq]
  exact expireSlot_of_not (by rw [State.slot_setSlot_same]; exact h)

/-! ### The end of a flight -/

/-- The state in which a write has ended at the drive, before its owner acts. -/
def writeOver (f : Flight) (good : Bool) (s : State) : State := flagFailed good (endFlight f.tag s)

theorem settles_writeOver (f : Flight) (good : Bool) (s : State) : Settles s (writeOver f good s) := by
  unfold writeOver flagFailed
  split
  · exact (serviceWork_endFlight _ _).settles
  · exact (serviceWork_endFlight _ _).settles.trans (settles_setFlag _ _)

/-- What a write's end leaves to its owner: everything but the catalogue controller's work and STORE_FAILED. -/
theorem writeOver_rest (f : Flight) (good : Bool) (s : State) :
    (writeOver f good s).slots = s.slots ∧ (writeOver f good s).map = s.map ∧ (writeOver f good s).clock = s.clock ∧
    (writeOver f good s).win = { s.win with flags := (writeOver f good s).win.flags } ∧
    (writeOver f good s).claimed = s.claimed ∧ (writeOver f good s).cat.sweeping = s.cat.sweeping ∧
    (writeOver f good s).cat.erased = s.cat.erased ∧ (good = true → (writeOver f good s).win = s.win) := by
  have h := serviceWork_endFlight f.tag s
  unfold writeOver flagFailed
  cases good
  · rw [if_neg Bool.false_ne_true]
    refine ⟨h.slots, h.map, h.clock, ?_, endFlight_claimed _ _, h.sweeping, h.erased, nofun⟩
    unfold State.setFlag
    rw [h.win]
  · exact ⟨h.slots, h.map, h.clock, by rw [if_pos rfl, h.win], endFlight_claimed _ _, h.sweeping, h.erased, fun _ => h.win⟩

theorem writeOver_slot (f : Flight) (good : Bool) (s : State) (k : SlotIx) : (writeOver f good s).slot k = s.slot k := by
  unfold State.slot; rw [(writeOver_rest f good s).1]

theorem writeOver_executing (f : Flight) (good : Bool) (s : State) :
    (writeOver f good s).win.executing = s.win.executing := by rw [(writeOver_rest f good s).2.2.2.1]

theorem writeOver_flag (f : Flight) (s : State) : (writeOver f false s).hasFlag .storeFailed = true :=
  hasFlag_setFlag _ _

/-! ### Stores (R7, R12, R22) -/

theorem storeEnd_of_slot {f : Flight} {good : Bool} {s : State} {k : SlotIx} (ho : f.op.owner = .slot k) :
    storeEnd f good s = storeEnded f.op.num (slotStored k good (writeOver f good s)) := by
  unfold storeEnd; rw [ho]; rfl

theorem settles_slotStored (k : SlotIx) (good : Bool) (s : State) : Settles s (slotStored k good s) := by
  have hset : Settles s (storeSettled k good s) :=
    ((settles_modSlot s _ _).trans (settles_answer _ _ _ _)).trans (settles_drainTest _ _)
  unfold slotStored idleWith
  split
  · split
    · exact ((settles_modSlot s _ _).trans (settles_enterActive _ _)).trans (settles_answer _ _ _ _)
    · exact (settles_enterIdle _ _).trans (settles_answer _ _ _ _)
  · exact (settles_enterIdle _ _).trans (settles_answer _ _ _ _)
  all_goals exact hset

theorem settles_storeEnd (f : Flight) (good : Bool) (s : State) : Settles (writeOver f good s) (storeEnd f good s) := by
  unfold storeEnd
  refine Settles.trans ?_ (begun_storeEnded _ _).settles
  split
  · exact settles_slotStored _ _ _
  · exact .refl _
  · exact .refl _

/-- Nothing of the slots, the map, the window and the host port changes as a store leaves the flushes' lists. -/
theorem storeEnded_rest (n : Nat) (s : State) : (storeEnded n s).slots = s.slots ∧ (storeEnded n s).map = s.map ∧
    (storeEnded n s).win = s.win ∧ (storeEnded n s).host = s.host := by
  have h := begun_storeEnded n s
  unfold Begun at h
  exact ⟨by rw [h], by rw [h], by rw [h], by rw [h]⟩

theorem storeEnded_slot (n : Nat) (s : State) (k : SlotIx) : (storeEnded n s).slot k = s.slot k := by
  unfold State.slot; rw [(storeEnded_rest n s).1]

/-- An answer stands when the flushes have been told. -/
theorem State.Answers.storeEnded {s u : State} {st : Stage} {k : SlotIx} {x : Result} {d : Details}
    (h : s.Answers u st k x d) (n : Nat) : s.Answers (storeEnded n u) st k x d := by
  obtain ⟨_, _, hw, hh⟩ := storeEnded_rest n u
  intro tag r hwait hk
  obtain ⟨h1, h2, h3⟩ := h tag r hwait hk
  refine ⟨by rw [hw]; exact h1, ?_, fun t ht => by rw [hh]; exact h3 t ht⟩
  unfold State.replied at h2 ⊢
  rw [hw]; exact h2

theorem answer_flags (st : Stage) (i : SlotIx) (x : Result) (s : State) : (answer st i x s).win.flags = s.win.flags := by
  unfold answer finishControl
  split
  · split
    · rfl
    · dsimp only; split <;> rfl
  · rfl

/-- A store of a slot that stays ACTIVE or in DRAINING. -/
theorem storeEnd_stays {f : Flight} {good : Bool} {s : State} {k : SlotIx} (ho : f.op.owner = .slot k)
    (h : (s.slot k).phase = .active ∨ ((s.slot k).phase = .draining ∧ (s.slot k).inFlight ≠ 0)) :
    let u := storeEnd f good s
    u.slot k = { s.slot k with storeInFlight := false, dirty := (s.slot k).dirty && !good } ∧
      s.Answers u .store k (writeResult good) .none ∧ (good = true → u.win.flags = s.win.flags) := by
  rw [storeEnd_of_slot ho]
  obtain ⟨_, _, _, _, _, _, _, hwin⟩ := writeOver_rest f good s
  have hslot := writeOver_slot f good s k
  have hex := writeOver_executing f good s
  generalize writeOver f good s = t at *
  have heq : slotStored k good t = answer .store k (writeResult good)
      (t.setSlot k { t.slot k with storeInFlight := false, dirty := (t.slot k).dirty && !good }) := by
    have hs : slotStored k good t = storeSettled k good t := by
      unfold slotStored; rw [hslot]
      rcases h with h | ⟨h, _⟩ <;> rw [h]
    rw [hs]
    unfold storeSettled
    rw [State.modSlot_eq]
    rcases h with h | ⟨_, h⟩
    · refine drainTest_of_phase ?_
      rw [answer_slot, State.slot_setSlot_same, hslot]
      show (s.slot k).phase ≠ .draining
      rw [h]; exact nofun
    · refine drainTest_stays (.inl ?_)
      rw [answer_slot, State.slot_setSlot_same, hslot]
      exact h
  intro u
  refine ⟨?_, ?_, fun hg => ?_⟩
  · rw [storeEnded_slot, heq, answer_slot, State.slot_setSlot_same, hslot]
  · refine State.Answers.storeEnded ?_ _
    rw [heq]
    exact answers_answerWith (v := t.setSlot k _) hex rfl (.refl _) rfl
  · rw [(storeEnded_rest _ _).2.2.1, heq, answer_flags]
    show t.win.flags = _
    rw [hwin hg]

/-- A store of a slot in DRAINING with no piece in flight. -/
theorem storeEnd_leaves {f : Flight} {good : Bool} {s : State} {k : SlotIx} (ho : f.op.owner = .slot k)
    (h : (s.slot k).phase = .draining) (h0 : (s.slot k).inFlight = 0) :
    ((storeEnd f good s).slot k).phase ≠ .draining ∧ ∀ e ∈ (storeEnd f good s).map, e.slot ≠ k := by
  rw [storeEnd_of_slot ho, storeEnded_slot, (storeEnded_rest _ _).2.1]
  have hslot := writeOver_slot f good s k
  generalize writeOver f good s = t at *
  have hs : slotStored k good t = storeSettled k good t := by unfold slotStored; rw [hslot, h]
  rw [hs]
  unfold storeSettled
  rw [State.modSlot_eq, drainTest_leaves]
  · exact leaveDraining_left k _
  all_goals rw [answer_slot, State.slot_setSlot_same, hslot]
  · exact h
  · exact h0

/-- A store of a slot in STORING. -/
theorem storeEnd_storing {f : Flight} {good : Bool} {s : State} {k : SlotIx} (ho : f.op.owner = .slot k)
    (h : (s.slot k).phase = .storing) :
    (storeEnd f good s).slot k = TitleSlot.empty ∧ s.Answers (storeEnd f good s) .idle k (writeResult good) .none := by
  rw [storeEnd_of_slot ho, storeEnded_slot]
  have hslot := writeOver_slot f good s k
  have hex := writeOver_executing f good s
  generalize writeOver f good s = t at *
  have hs : slotStored k good t = idleWith .idle k (writeResult good) t := by unfold slotStored; rw [hslot, h]
  rw [hs]
  obtain ⟨h1, _, h2⟩ := idle_answerWith (s := s) (v := t) (st := .idle) (k := k) (writeResult good) .none hex
  exact ⟨h1, h2.storeEnded _⟩

/-- A failed store of a slot in LOADING. -/
theorem storeEnd_loading_failed {f : Flight} {s : State} {k : SlotIx} (ho : f.op.owner = .slot k)
    (h : (s.slot k).phase = .loading) :
    (storeEnd f false s).slot k = TitleSlot.empty ∧ s.Answers (storeEnd f false s) .store k .drive .none := by
  rw [storeEnd_of_slot ho, storeEnded_slot]
  have hslot := writeOver_slot f false s k
  have hex := writeOver_executing f false s
  generalize writeOver f false s = t at *
  have hs : slotStored k false t = idleWith .store k .drive t := by
    unfold slotStored; rw [hslot, h]; exact if_neg Bool.false_ne_true
  rw [hs]
  obtain ⟨h1, _, h2⟩ := idle_answerWith (s := s) (v := t) (st := .store) (k := k) .drive .none hex
  exact ⟨h1, h2.storeEnded _⟩

/-- A good store of a slot in LOADING. -/
theorem storeEnd_loading_good {f : Flight} {s : State} {k : SlotIx} (ho : f.op.owner = .slot k)
    (h : (s.slot k).phase = .loading) :
    let u := storeEnd f true s
    s.Answers u .store k .ok .none ∧
      (expiryDue (s.slot k).expiry s.clock = false →
        u.slot k = { s.slot k with phase := .active, storeInFlight := false, dirty := false }) ∧
      ((s.slot k).kind = some .recording → expiryDue (s.slot k).expiry s.clock = true →
        (u.slot k).phase ≠ .active ∧ u.hasFlag .titleExpired = true) := by
  rw [storeEnd_of_slot ho]
  obtain ⟨_, _, hclock, _⟩ := writeOver_rest f true s
  have hslot := writeOver_slot f true s k
  have hex := writeOver_executing f true s
  generalize writeOver f true s = t at *
  have hs : slotStored k true t = answer .store k .ok
      (enterActive k (t.setSlot k { t.slot k with storeInFlight := false, dirty := false })) := by
    unfold slotStored; rw [show (t.slot k).phase = .loading by rw [hslot]; exact h]; rfl
  rw [hs]
  set v := t.setSlot k { t.slot k with storeInFlight := false, dirty := false } with hv
  have hvk : v.slot k = { s.slot k with storeInFlight := false, dirty := false } := by
    rw [hv, State.slot_setSlot_same, hslot]
  intro u
  refine ⟨State.Answers.storeEnded (answers_answerWith ?_ rfl (.refl _) rfl) _, fun hd => ?_, fun hk hd => ?_⟩
  · exact (expireSlot_executing _ _).trans hex
  · rw [storeEnded_slot, answer_slot, enterActive_of_not (by rw [hvk]; show expiryDue _ t.clock = _; rw [hclock]; exact hd),
      State.slot_setSlot_same, hvk]
  · obtain ⟨h1, h2, _⟩ := expireSlot_due (i := k) (s := v.setSlot k { v.slot k with phase := .active })
      (by rw [State.slot_setSlot_same]) (by rw [State.slot_setSlot_same, hvk]; exact hk)
      (by rw [State.slot_setSlot_same, hvk]; show expiryDue _ t.clock = _; rw [hclock]; exact hd)
    refine ⟨by rw [storeEnded_slot, answer_slot]; exact h1, ?_⟩
    unfold State.hasFlag
    rw [(storeEnded_rest _ _).2.2.1, answer_flags]
    exact h2

/-! ### Erases (R8, R12, R163) -/

theorem settles_slotErased (k : SlotIx) (good : Bool) (s : State) : Settles s (slotErased k good s) := by
  unfold slotErased idleWith
  split <;> exact (settles_enterIdle _ _).trans (settles_answer _ _ _ _)

theorem settles_eraseEnd (f : Flight) (i : Nat) (good : Bool) (s : State) :
    Settles (writeOver f good s) (eraseEnd f i good s) := by
  unfold eraseEnd
  dsimp only
  split
  · exact settles_slotErased _ _ _
  · unfold sweepErased
    split
    · exact (settles_cat _ _).trans (settles_sweepOn _ _)
    · exact settles_sweepOn _ _
  · exact .refl _

/-- An erase of a slot's record. -/
theorem eraseEnd_slot {f : Flight} {i : Nat} {good : Bool} {s : State} {k : SlotIx} (ho : f.op.owner = .slot k) :
    let u := eraseEnd f i good s
    u.slot k = TitleSlot.empty ∧ u.map = s.map ∧
      ((s.slot k).phase = .loading → s.Answers u .erase k (if good then .expired else .drive) .none) ∧
      ((s.slot k).phase = .erasing → s.Answers u .idle k (writeResult good) .none) := by
  have heq : eraseEnd f i good s = slotErased k good (writeOver f good s) := by unfold eraseEnd; rw [ho]; rfl
  rw [heq]
  obtain ⟨_, hmap, _⟩ := writeOver_rest f good s
  have hslot := writeOver_slot f good s k
  have hex := writeOver_executing f good s
  generalize writeOver f good s = t at *
  have idle := fun (st : Stage) (x : Result) =>
    idle_answerWith (s := s) (v := t) (st := st) (k := k) x .none hex
  have hs : ∃ st x, slotErased k good t = idleWith st k x t ∧
      ((s.slot k).phase = .loading → st = .erase ∧ x = if good then .expired else .drive) ∧
      ((s.slot k).phase = .erasing → st = .idle ∧ x = writeResult good) := by
    unfold slotErased; rw [hslot]
    cases (s.slot k).phase with
    | loading => exact ⟨_, _, rfl, fun _ => ⟨rfl, rfl⟩, nofun⟩
    | _ => exact ⟨_, _, rfl, nofun, fun _ => ⟨rfl, rfl⟩⟩
  obtain ⟨st, x, hs, hl, he⟩ := hs
  obtain ⟨h1, h2, h3⟩ := idle st x
  rw [hs]
  refine ⟨h1, h2.trans hmap, fun hp => ?_, fun hp => ?_⟩
  · obtain ⟨rfl, rfl⟩ := hl hp; exact h3
  · obtain ⟨rfl, rfl⟩ := he hp; exact h3

/-- An erase of the sweep. -/
theorem eraseEnd_sweep {f : Flight} {i : Nat} {good : Bool} {s : State} (ho : f.op.owner = .sweep) :
    s.SweepGoesOn (eraseEnd f i good s) i ∧
      (eraseEnd f i good s).cat.erased = s.cat.erased + if good then 1 else 0 := by
  have heq : eraseEnd f i good s = sweepErased i good (writeOver f good s) := by unfold eraseEnd; rw [ho]; rfl
  rw [heq]
  obtain ⟨h1, h2, _, _, h3, h4, h5, _⟩ := writeOver_rest f good s
  generalize writeOver f good s = t at *
  unfold sweepErased
  cases good
  · obtain ⟨a, b⟩ := sweepGoesOn (t := t) i h1 h2 h3 h4
    exact ⟨a, b.trans h5⟩
  · obtain ⟨a, b⟩ := sweepGoesOn (t := { t with cat := { t.cat with erased := t.cat.erased + 1 } }) i h1 h2 h3 h4
    exact ⟨a, b.trans (congrArg (· + 1) h5)⟩

end Sys2Proof.Machine
end

section
/-!
SUPPORT. The end of a LOAD: damage counted, and the outcome at OPEN_TITLE and at CREATE_TITLE (R7, R8, R36, R146, R154,
R155).
-/

namespace Sys2Proof.Machine

/-! ### Damage (R144, R146, R179) -/

theorem violate_rest (k : Violation) (s : State) : violate k [] s = { s with
    mon := (violate k [] s).mon, win := { s.win with flags := (violate k [] s).win.flags } } := by
  unfold violate alarmReaction faultReaction
  dsimp only
  split
  · rfl
  · rfl
  · split
    · rfl
    · split <;> rfl
    · rfl
  · split <;> rfl

theorem catalogueDamaged_rest (s : State) : catalogueDamaged s = { s with
    mon := (catalogueDamaged s).mon, win := { s.win with flags := (catalogueDamaged s).win.flags } } := by
  unfold catalogueDamaged State.setFlag
  rw [violate_rest]

/-- A reaction leaves the counters: a violation of kind k raises its own. -/
theorem violate_counters (k : Violation) (named : List SlotIx) (s : State) :
    (violate k named s).mon.counters = (s.mon.count k).counters := by
  have halt : ∀ (l : List SlotIx) (t : State), (haltSlots l t).mon = t.mon := fun l => by
    unfold haltSlots
    induction l with
    | nil => exact fun _ => rfl
    | cons i l ih => intro t; rw [List.foldl_cons, ih]; split <;> rfl
  unfold violate
  dsimp only
  split
  · rfl
  · rw [halt]
  · unfold alarmReaction
    split
    · rfl
    · split <;> rfl
    · rfl
  · unfold faultReaction
    split <;> rfl

theorem countsDamage_catalogueDamaged (s : State) : s.CountsDamage (catalogueDamaged s) := by
  refine ⟨?_, hasFlag_setFlag _ _⟩
  show (violate .catalogueDamaged [] s).mon.counters[(9 : Fin 10)] = _
  rw [violate_counters]
  exact Vector.getElem_set_self _

theorem State.CountsDamage.settles {s t u : State} (h : s.CountsDamage t) (k : Settles t u) : s.CountsDamage u :=
  ⟨by rw [k.mon]; exact h.1, k.flags _ h.2⟩

/-! ### The end of a LOAD -/

/-- The state in which a LOAD has ended and its damage has been counted, before its owner acts. -/
def loadOver (f : Flight) (o : LoadOutcome) (s : State) : State :=
  if o = .damaged then catalogueDamaged (endFlight f.tag s) else endFlight f.tag s

theorem loadEnd_of_slot {f : Flight} {i : Nat} {o : LoadOutcome} {s : State} {k : SlotIx} (ho : f.op.owner = .slot k) :
    loadEnd f i o s = slotLoaded k o (loadOver f o s) := by
  unfold loadEnd; rw [ho]; rfl

theorem loadEnd_of_sweep {f : Flight} {i : Nat} {o : LoadOutcome} {s : State} (ho : f.op.owner = .sweep) :
    loadEnd f i o s = sweepLoaded i o (loadOver f o s) := by
  unfold loadEnd; rw [ho]; rfl

/-- What the end of a LOAD leaves to its owner. -/
structure LoadOver (s t : State) : Prop where
  rest : t = { s with cat := t.cat, drive := t.drive, lanes := t.lanes, stamp := t.stamp, mon := t.mon, win := t.win }
  win : t.win = { s.win with flags := t.win.flags }
  claimed : t.claimed = s.claimed
  cat : t.cat.sweeping = s.cat.sweeping ∧ t.cat.erased = s.cat.erased ∧ t.cat.progress = s.cat.progress

theorem loadOver_spec (f : Flight) (o : LoadOutcome) (s : State) : LoadOver s (loadOver f o s) := by
  have h := serviceWork_endFlight f.tag s
  have hc := endFlight_claimed f.tag s
  unfold loadOver
  split
  · rw [catalogueDamaged_rest]
    refine ⟨?_, by rw [h.win], hc, h.sweeping, h.erased, h.progress⟩
    exact congrArg (fun z : State => { z with
      mon := (catalogueDamaged (endFlight f.tag s)).mon,
      win := { (endFlight f.tag s).win with flags := (catalogueDamaged (endFlight f.tag s)).win.flags } }) h.rest
  · refine ⟨?_, by rw [h.win], hc, h.sweeping, h.erased, h.progress⟩
    conv_lhs => rw [h.rest]
    rw [h.win, h.mon]

namespace LoadOver

variable {s t : State}

theorem slot (h : LoadOver s t) (k : SlotIx) : t.slot k = s.slot k := by unfold State.slot; rw [h.rest]
theorem slots (h : LoadOver s t) : t.slots = s.slots := by rw [h.rest]
theorem map (h : LoadOver s t) : t.map = s.map := by rw [h.rest]
theorem clock (h : LoadOver s t) : t.clock = s.clock := by rw [h.rest]
theorem draws (h : LoadOver s t) : t.draws = s.draws := by rw [h.rest]
theorem executing (h : LoadOver s t) : t.win.executing = s.win.executing := by rw [h.win]
theorem windowUnit (h : LoadOver s t) : t.windowUnit = s.windowUnit := by rw [h.rest]; rfl

end LoadOver

theorem mon_loadOver {f : Flight} {o : LoadOutcome} {s : State} (ho : o ≠ .damaged) : (loadOver f o s).mon = s.mon := by
  unfold loadOver; rw [if_neg ho, (serviceWork_endFlight _ _).mon]

theorem countsDamage_loadOver (f : Flight) (s : State) : s.CountsDamage (loadOver f .damaged s) := by
  unfold loadOver; rw [if_pos rfl]
  obtain ⟨h1, h2⟩ := countsDamage_catalogueDamaged (endFlight f.tag s)
  exact ⟨by rw [h1, (serviceWork_endFlight _ _).mon], h2⟩

/-! ### A slot's LOAD -/

theorem settles_failLoading (k : SlotIx) (x : Result) (s : State) : Settles s (failLoading k x s) :=
  (settles_enterIdle k s).trans (settles_answer _ _ _ _)

/-- The state that a created title's store is requested from, and the rest of the step (R7, R21). -/
theorem makeTitle_eq (k : SlotIx) (r : Sector) (s : State) : makeTitle k r s =
    setStage .store (requestOp (.store ((s.slot k).number.getD 0)) (.slot k) none (s.drawn.setSlot k { s.slot k with
      key := some ⟨s.draws⟩, gen := some 1, state := some .recording, cls := some (recClass r), expiry := recExpiry r,
      nextUnit := 0, extentCount := 0, lastChanger := recRequest r, dirty := true, storeInFlight := true })) := by
  unfold makeTitle; rw [changeAndStore_eq]; rfl

/-- An extent of a record fits the map below the window (R36). -/
def State.fits (s : State) (e : RecExtent) : Prop :=
  (∀ m ∈ s.map, sharesUnit e.start e.len m.start m.len = false) ∧ e.start + e.len ≤ s.windowUnit

theorem extentMeets_none {s : State} {e : RecExtent} (h : s.fits e) : s.extentMeets e = none := by
  have hm : meets s.map e.start e.len = none := List.find?_eq_none.mpr fun m hm => by rw [h.1 m hm]; exact Bool.false_ne_true
  unfold State.extentMeets
  rw [hm]
  exact if_neg (Nat.not_lt.mpr h.2)

theorem extentMeets_slot {s : State} {e : RecExtent} {lower higher : List Extent} {m : Extent}
    (hmap : s.map = lower ++ m :: higher) (hm : sharesUnit e.start e.len m.start m.len = true)
    (hl : ∀ y ∈ lower, sharesUnit e.start e.len y.start y.len = false) : s.extentMeets e = some m.slot.val := by
  have hf : meets s.map e.start e.len = some m :=
    List.find?_eq_some_iff_append.mpr ⟨hm, lower, higher, hmap, fun y hy => by rw [hl y hy]; rfl⟩
  unfold State.extentMeets
  rw [hf]

theorem extentMeets_window {s : State} {e : RecExtent} (hn : ∀ m ∈ s.map, sharesUnit e.start e.len m.start m.len = false)
    (hw : s.windowUnit < e.start + e.len) : s.extentMeets e = some 8 := by
  have hm : meets s.map e.start e.len = none := List.find?_eq_none.mpr fun m hm => by rw [hn m hm]; exact Bool.false_ne_true
  unfold State.extentMeets
  rw [hm]
  exact if_pos hw

theorem firstUnfit_some {s : State} {e : RecExtent} {k : Nat} (he : s.extentMeets e = some k) (after : List RecExtent) :
    ∀ (before : List RecExtent) (n : Nat), (∀ y ∈ before, s.fits y) →
      s.firstUnfit n (before ++ e :: after) = some (n + before.length, k)
  | [], n, _ => by simp [State.firstUnfit, he]
  | y :: before, n, h => by
    rw [List.cons_append, State.firstUnfit, extentMeets_none (h y List.mem_cons_self), List.length_cons,
      firstUnfit_some he after before (n + 1) fun z hz => h z (List.mem_cons_of_mem _ hz)]
    simp only
    rw [show n + 1 + before.length = n + (before.length + 1) by omega]

theorem firstUnfit_none {s : State} : ∀ (es : List RecExtent) (n : Nat), (∀ y ∈ es, s.fits y) → s.firstUnfit n es = none
  | [], _, _ => rfl
  | y :: es, n, h => by
    rw [State.firstUnfit, extentMeets_none (h y List.mem_cons_self)]
    exact firstUnfit_none es (n + 1) fun z hz => h z (List.mem_cons_of_mem _ hz)

theorem insertExtent_perm (e : Extent) : ∀ l : List Extent, (insertExtent e l).Perm (e :: l)
  | [] => .refl _
  | x :: xs => by
    unfold insertExtent; split
    · exact .refl _
    · exact ((insertExtent_perm e xs).cons x).trans (.swap e x xs)

theorem insertExtents_perm (k : SlotIx) : ∀ (es : List RecExtent) (m : List Extent), (insertExtents k es m).Perm
    (m ++ es.map fun e => { start := e.start, len := e.len, slot := k, first := e.first })
  | [], m => by simp [insertExtents]
  | e :: es, m => by
    refine (insertExtents_perm k es (insertExtent _ m)).trans ?_
    refine ((insertExtent_perm _ m).append_right _).trans ?_
    rw [List.map_cons]
    exact List.perm_middle.symm

/-- An opened title whose extents fit (R8, R36, R155). -/
theorem openTitle_opens {k : SlotIx} {x : TitleFields} {s : State} (hn : s.map.length + x.extents.length ≤ Config.mapLimit)
    (hf : ∀ e ∈ x.extents, s.fits e) (hd : expiryDue x.expiry s.clock = false) :
    openTitle k x s = answer .load k .ok (({ s with map := insertExtents k x.extents s.map } : State).setSlot k
      { takeFields x (s.slot k) with phase := .active }) := by
  unfold openTitle
  dsimp only
  rw [if_neg (Nat.not_lt.mpr hn), firstUnfit_none _ _ hf]
  dsimp only
  rw [State.modSlot_eq, enterActive_of_not (by rw [State.slot_setSlot_same]; exact hd), State.slot_setSlot_same,
    State.setSlot_setSlot]
  rfl

theorem openTitle_mapFull {k : SlotIx} {x : TitleFields} {s : State} (hn : 512 < s.map.length + x.extents.length) :
    openTitle k x s = answerWith .load k .mapFull (.openFailed x.extents.length 255) (enterIdle k s) := if_pos hn

theorem openTitle_overlap {k : SlotIx} {x : TitleFields} {s : State} {p n : Nat}
    (hn : s.map.length + x.extents.length ≤ Config.mapLimit) (hf : s.firstUnfit 0 x.extents = some (p, n)) :
    openTitle k x s = answerWith .load k .overlap (.openFailed p n) (enterIdle k s) := by
  unfold openTitle
  dsimp only
  rw [if_neg (Nat.not_lt.mpr hn), hf]

/-- A slot's LOAD that no CREATE_TITLE waits for ends as an open (R8). -/
theorem slotLoaded_open {k : SlotIx} {o : LoadOutcome} {s : State} (hp : (s.slot k).phase = .loading)
    (h : ∀ e, s.win.executing = some e → recCode e.record ≠ 1) : slotLoaded k o s = openLoaded k o s := by
  unfold slotLoaded
  rw [hp]
  cases he : s.win.executing with
  | none => rfl
  | some e => exact if_neg (h e he)

/-- A slot's LOAD at CREATE_TITLE (R7). -/
theorem slotLoaded_create {k : SlotIx} {o : LoadOutcome} {s : State} {tag : Option HostTag} {r : Sector}
    (hp : (s.slot k).phase = .loading) (hw : s.waiting tag r .load) (hr : recCode r = 1) :
    slotLoaded k o s = createLoaded k r o s := by
  unfold slotLoaded
  rw [hp, show s.win.executing = some ⟨tag, r, .load⟩ from hw]
  exact if_pos hr

/-- A slot's LOAD that failed at the drive, whoever waits for it (R7, R8). -/
theorem slotLoaded_drive {k : SlotIx} {s : State} (hp : (s.slot k).phase = .loading) :
    slotLoaded k .drive s = failLoading k .drive s := by
  unfold slotLoaded
  rw [hp]
  cases s.win.executing with
  | none => rfl
  | some e => exact ite_self _

/-! ### What the owner of a LOAD can do -/

theorem settles_makeTitle (k : SlotIx) (r : Sector) (s : State) : Settles s (makeTitle k r s) := by
  rw [makeTitle_eq]
  refine Settles.trans ?_ (settles_setStage _ _)
  refine Settles.trans ?_ (serviceWork_requestOp _ _ _ _).settles
  exact ⟨rfl, fun _ => id, fun _ => id⟩

theorem settles_openTitle (k : SlotIx) (x : TitleFields) (s : State) : Settles s (openTitle k x s) := by
  have idle : ∀ y d, Settles s (answerWith .load k y d (enterIdle k s)) := fun y d =>
    (settles_enterIdle k s).trans (settles_answerWith _ _ _ _ _)
  unfold openTitle
  dsimp only
  split
  · exact idle _ _
  · split
    · exact idle _ _
    · exact (((settles_map s _).trans (settles_modSlot _ _ _)).trans (settles_enterActive _ _)).trans
        (settles_answer _ _ _ _)

theorem settles_slotLoaded (k : SlotIx) (o : LoadOutcome) (s : State) : Settles s (slotLoaded k o s) := by
  have hopen : Settles s (openLoaded k o s) := by
    unfold openLoaded
    split
    · exact settles_failLoading _ _ _
    · exact settles_failLoading _ _ _
    · exact settles_failLoading _ _ _
    · split
      · exact (serviceWork_requestOp _ _ _ _).settles.trans (settles_setStage _ _)
      · exact settles_openTitle _ _ _
  have hcreate : ∀ r, Settles s (createLoaded k r o s) := fun r => by
    unfold createLoaded
    split
    · exact settles_makeTitle _ _ _
    · split
      · exact settles_makeTitle _ _ _
      · exact settles_failLoading _ _ _
    · exact settles_failLoading _ _ _
    · exact settles_failLoading _ _ _
  unfold slotLoaded
  split
  · split
    · exact hcreate _
    · exact hopen
  · exact hopen
  all_goals exact .refl s

theorem settles_loadEnd (f : Flight) (i : Nat) (o : LoadOutcome) (s : State) :
    Settles (loadOver f o s) (loadEnd f i o s) := by
  cases ho : f.op.owner with
  | slot k => rw [loadEnd_of_slot ho]; exact settles_slotLoaded _ _ _
  | sweep =>
    rw [loadEnd_of_sweep ho]
    unfold sweepLoaded
    split
    · split
      · exact (serviceWork_requestOp _ _ _ _).settles
      · exact settles_sweepOn _ _
    all_goals exact settles_sweepOn _ _
  | header => unfold loadEnd; rw [ho]; exact .refl _

end Sys2Proof.Machine
end

section
/-!
SUPPORT. The end of the HEADER_READ, with the commands held off at start-up (R69, R144, R205).
-/

namespace Sys2Proof.Machine

/-! ### Commands are taken (R69, R73, R205) -/

/-- Commands have been taken or refused between s and u: the catalogue controller, the clock and the phase are as they
were, no damage of the catalogue is counted and no flag is taken back. -/
structure Takes (s u : State) : Prop where
  cat : u.cat = s.cat
  phase : u.phase = s.phase
  clock : u.clock = s.clock
  drive : u.drive = { s.drive with queue := u.drive.queue }
  damage : u.mon.counters[(9 : Fin 10)] = s.mon.counters[(9 : Fin 10)]
  flags : ∀ f, s.hasFlag f = true → u.hasFlag f = true

namespace Takes

theorem refl (s : State) : Takes s s := ⟨rfl, rfl, rfl, rfl, rfl, fun _ => id⟩

theorem trans {s t u : State} (h : Takes s t) (k : Takes t u) : Takes s u where
  cat := k.cat.trans h.cat
  phase := k.phase.trans h.phase
  clock := k.clock.trans h.clock
  drive := by rw [k.drive, h.drive]
  damage := k.damage.trans h.damage
  flags f hf := k.flags f (h.flags f hf)

theorem foldl {α : Type} {f : State → α → State} (hf : ∀ s a, Takes s (f s a)) :
    ∀ (l : List α) (s : State), Takes s (l.foldl f s)
  | [], s => .refl s
  | a :: l, s => (hf s a).trans (foldl hf l (f s a))

end Takes

theorem Begun.takes {s u : State} (h : Begun s u) : Takes s u := by
  unfold Begun at h
  exact ⟨by rw [h], by rw [h], by rw [h], by rw [h], by rw [h], fun f hf => by unfold State.hasFlag at *; rw [h]; exact hf⟩

theorem takes_setFlag (s : State) (f : EventFlag) : Takes s (s.setFlag f) :=
  ⟨rfl, rfl, rfl, rfl, rfl, fun g => hasFlag_setFlag_of s f g⟩

theorem takes_modSlot (s : State) (i : SlotIx) (f : TitleSlot → TitleSlot) : Takes s (s.modSlot i f) :=
  ⟨rfl, rfl, rfl, rfl, rfl, fun _ => id⟩

theorem takes_haltSlots (named : List SlotIx) (s : State) : Takes s (haltSlots named s) :=
  Takes.foldl (fun s i => by split; exacts [.refl s, takes_modSlot s i _]) named s

theorem takes_mon {s : State} {m : Monitor} (h : m.counters = s.mon.counters) : Takes s { s with mon := m } :=
  ⟨rfl, rfl, rfl, rfl, by rw [← h], fun _ => id⟩

theorem takes_alarmReaction (k : Violation) (s : State) : Takes s (alarmReaction k s) := by
  unfold alarmReaction
  split
  · refine Takes.trans (t := { s with mon := _ }) (takes_mon ?_) (takes_setFlag _ _)
    rfl
  · split
    · exact .refl s
    · exact Takes.trans (t := { s with mon := s.mon.join k }) (takes_mon rfl) (takes_setFlag _ _)
  · exact takes_mon rfl

theorem takes_faultReaction (k : Violation) (s : State) : Takes s (faultReaction k s) := by
  have hm : ∀ m : Monitor, m.counters = s.mon.counters → Takes s (({ s with mon := m } : State).setFlag .lockdown) :=
    fun m h => Takes.trans (t := { s with mon := m }) (takes_mon h) (takes_setFlag _ _)
  unfold faultReaction
  split
  · exact takes_mon rfl
  all_goals exact hm _ rfl

/-- A violation of another kind than damage of the catalogue. -/
theorem takes_violate {k : Violation} (hk : k ≠ .catalogueDamaged) (named : List SlotIx) (s : State) :
    Takes s (violate k named s) := by
  have hc : Takes s { s with mon := s.mon.count k } := by
    refine ⟨rfl, rfl, rfl, rfl, ?_, fun _ => id⟩
    have hix : k.ix.val ≠ 9 := by cases k <;> first | exact absurd rfl hk | decide
    exact Vector.getElem_set_ne k.ix.isLt (by decide) hix
  unfold violate
  dsimp only
  refine hc.trans ?_
  split
  · exact .refl _
  · exact takes_haltSlots _ _
  · exact takes_alarmReaction _ _
  · exact takes_faultReaction _ _

theorem takes_refuse (t : HostTag) (lba count : Nat) (r : Reason) (named : List SlotIx) (s : State) :
    Takes s (refuse t lba count r named s) := by
  have told : ∀ x : RefusalRecord, Takes s
      { completionDue { tag := t, ending := .refused } s with mon := { s.mon with refusal := some x } } :=
    fun _ => ⟨rfl, rfl, rfl, rfl, rfl, fun _ => id⟩
  unfold refuse
  dsimp only
  split
  · rename_i k hk
    refine (told _).trans (takes_violate ?_ named _)
    rintro rfl
    cases r <;> cases hk
  · exact told _

theorem takes_refuseAt (t : HostTag) (r : Reason) (range : Option Range) (s : State) :
    Takes s (refuseAt t r range s) := by
  unfold refuseAt; split <;> exact takes_refuse _ _ _ _ _ _

theorem takes_applyTrial (x : Tested) (s : State) : Takes s (applyTrial x s) := by
  unfold applyTrial
  split
  · refine Takes.trans ?_ (takes_modSlot _ _ _)
    split
    · unfold rekeySlot
      dsimp only
      exact Takes.trans (t := (s.setSlot _ _).drawn) ⟨rfl, rfl, rfl, rfl, rfl, fun _ => id⟩ (takes_setFlag _ _)
    · exact .refl s
  · exact .refl s

theorem takes_raiseFlight (p : Piece) (s : State) : Takes s (raiseFlight p s) := by
  unfold raiseFlight; split
  · exact takes_modSlot _ _ _
  · exact .refl s

theorem takes_countExpired (c : Cmd) (s : State) : Takes s (countExpired c s) := by
  unfold countExpired; split
  · exact takes_violate (by decide) _ _
  · exact .refl s

theorem takes_admitData (write : Bool) (t : HostTag) (lba count : Nat) (xs : List Tested) (s : State) :
    Takes s (admitData write t lba count xs s) := by
  unfold admitData
  refine Takes.trans ?_ (begun_enterTable _ _).takes
  refine Takes.trans ?_ (takes_countExpired _ _)
  exact (Takes.foldl (fun s x => takes_applyTrial x s) xs s).trans (Takes.foldl (fun s p => takes_raiseFlight p s) _ _)

theorem takes_admitRange (write : Bool) (t : HostTag) (lba count : Nat) (s : State) :
    Takes s (admitRange write t lba count s) := by
  unfold admitRange admitBelow admitPlain
  split
  · exact takes_refuse _ _ _ _ _ _
  · split
    · split
      · split
        · exact ⟨rfl, rfl, rfl, rfl, rfl, fun _ => id⟩
        · exact takes_refuse _ _ _ _ _ _
      · split
        · exact (begun_enterTable _ _).takes
        · exact takes_refuse _ _ _ _ _ _
    · dsimp only
      split
      · exact takes_refuse _ _ _ _ _ _
      · split
        · exact takes_refuse _ _ _ _ _ _
        · exact takes_admitData _ _ _ _ _ _

theorem takes_takeCommand (a : Arrival) (s : State) : Takes s (takeCommand a s) := by
  unfold takeCommand
  split
  · exact takes_refuseAt _ _ _ _
  · unfold takeKind admitPlain
    split
    · exact takes_admitRange _ _ _ _ _
    · exact takes_admitRange _ _ _ _ _
    · exact ⟨rfl, rfl, rfl, rfl, rfl, fun _ => id⟩
    · exact (begun_enterTable _ _).takes
    · split
      · exact takes_refuseAt _ _ _ _
      · exact (begun_enterTable _ _).takes
    · split
      · exact takes_refuseAt _ _ _ _
      · exact (begun_enterTable _ _).takes
    · exact takes_refuseAt _ _ _ _

theorem takes_takeHeld (s : State) : Takes s (takeHeld s) := by
  have hlist : ∀ (l : List Arrival) (t : State), Takes t (takeHeldList l t) := by
    intro l
    induction l with
    | nil => exact fun t => .refl t
    | cons a l ih =>
      intro t
      unfold takeHeldList
      split
      · exact ⟨rfl, rfl, rfl, rfl, rfl, fun _ => id⟩
      · exact (takes_takeCommand a t).trans (ih _)
  unfold takeHeld
  exact Takes.trans (t := { s with host := { s.host with held := [] } }) ⟨rfl, rfl, rfl, rfl, rfl, fun _ => id⟩ (hlist _ _)

/-! ### The end of the HEADER_READ (R144, R205) -/

/-- The state in which the HEADER_READ has given its condition, before the commands held off are taken. -/
def headerKnown (h : HeaderCopy) (s : State) : State :=
  let s1 := dropClaims .header { s with cat := { s.cat with header := h } }
  { if h = .unreadable then catalogueDamaged s1 else s1 with phase := phaseOf h }

theorem headerEnd_eq (h : HeaderCopy) (s : State) : headerEnd h s = takeHeld (headerKnown h s) := rfl

theorem headerKnown_rest (h : HeaderCopy) (s : State) : headerKnown h s = { s with
    phase := phaseOf h, mon := (headerKnown h s).mon,
    win := { s.win with flags := (headerKnown h s).win.flags },
    cat := { s.cat with header := h, claims := s.cat.claims.filter fun c => decide (c.owner ≠ .header) } } := by
  unfold headerKnown
  dsimp only
  split
  · rw [catalogueDamaged_rest]; rfl
  · rfl

theorem headerKnown_of_ne {h : HeaderCopy} (hh : h ≠ .unreadable) (s : State) : headerKnown h s = { s with
    phase := phaseOf h,
    cat := { s.cat with header := h, claims := s.cat.claims.filter fun c => decide (c.owner ≠ .header) } } := by
  unfold headerKnown
  dsimp only
  rw [if_neg hh]; rfl

theorem countsDamage_headerKnown (s : State) : s.CountsDamage (headerKnown .unreadable s) := by
  unfold headerKnown
  dsimp only
  rw [if_pos rfl]
  exact countsDamage_catalogueDamaged (dropClaims .header { s with cat := { s.cat with header := .unreadable } })

theorem State.CountsDamage.takes {s t u : State} (h : s.CountsDamage t) (k : Takes t u) : s.CountsDamage u :=
  ⟨by rw [k.damage]; exact h.1, k.flags _ h.2⟩

/-- The HEADER_READ ends with a condition: what holds whoever is held off. -/
theorem headerEnd_spec (h : HeaderCopy) (s : State) :
    let u := headerEnd h s
    u.cat.header = h ∧ (∀ c ∈ u.cat.claims, c.owner ≠ .header) ∧ u.clock = s.clock ∧ u.phase = phaseOf h ∧
      (h = .unreadable → s.CountsDamage u) ∧ u.drive = { s.drive with queue := u.drive.queue } := by
  have ht := takes_takeHeld (headerKnown h s)
  have hk := headerKnown_rest h s
  rw [headerEnd_eq]
  refine ⟨?_, fun c hc => ?_, ?_, ?_, fun e => ?_, ?_⟩
  · rw [ht.cat, hk]
  · rw [ht.cat, hk] at hc; simpa using (List.mem_filter.mp hc).2
  · rw [ht.clock, hk]
  · rw [ht.phase, hk]
  · subst e; exact (countsDamage_headerKnown s).takes ht
  · rw [ht.drive, hk]

end Sys2Proof.Machine
end

section
/-!
SUPPORT, O46 and O47. An operation fails or its write completes good; the ends of service commands at the drive (R92, R144,
R146, R150, R151, R156, R161).
-/

namespace Sys2Proof.Machine

/-! ### FORMAT's answer (R161) -/

theorem finishFormat_rest (x : Result) (d : Details) (s : State) :
    (finishFormat x d s).cat = s.cat ∧ (finishFormat x d s).phase = s.phase ∧ Settles s (finishFormat x d s) := by
  have h := settles_finishControl x d s
  have hc : (finishControl x d s).cat = s.cat ∧ (finishControl x d s).phase = s.phase := by
    unfold finishControl
    split
    · exact ⟨rfl, rfl⟩
    · dsimp only; split <;> exact ⟨rfl, rfl⟩
  unfold finishFormat
  split
  · split
    · exact ⟨hc.1, hc.2, h⟩
    · exact ⟨rfl, rfl, .refl s⟩
  · exact ⟨rfl, rfl, .refl s⟩

/-- The FORMAT that waits for the header's write is answered. -/
theorem finishFormat_answers {s v : State} (x : Result) (d : Details) (hv : v.win.executing = s.win.executing)
    {tag : Option HostTag} {r : Sector} (hw : s.waiting tag r .header) :
    (finishFormat x d v).win.executing = none ∧ (finishFormat x d v).replied r x d := by
  have hv' : v.waiting tag r .header := State.waiting_of_executing hw hv
  have hf : finishFormat x d v = finishControl x d v := by
    unfold finishFormat; rw [show v.win.executing = some ⟨tag, r, .header⟩ from hv']; exact if_pos rfl
  obtain ⟨h, _, _, _⟩ := answered_finishControl x d hv'
  rw [hf]
  unfold State.replied
  rw [h]
  exact ⟨rfl, _, rfl, rfl, rfl, rfl, rfl, rfl, rfl⟩

theorem settles_headerWriteEnd (f : Flight) (e : Nat) (good : Bool) (s : State) :
    Settles s (headerWriteEnd f e good s) := by
  have h : Settles s (dropClaims .header (endFlight f.tag s)) :=
    (serviceWork_endFlight _ _).settles.trans (serviceWork_dropClaims _ _).settles
  unfold headerWriteEnd
  split
  · refine h.trans (Settles.trans ?_ (finishFormat_rest _ _ _).2.2)
    exact ⟨rfl, fun _ => id, fun _ => id⟩
  · exact h.trans (finishFormat_rest _ _ _).2.2

/-! ### An operation fails (R156, R158) -/

/-- The failure of an operation, as its kind and its owner have it. -/
theorem opFails (f : Flight) (s : State) : s.OpFails (opFailed f s) f where
  load i k hk ho hp := by
    have heq : opFailed f s = failLoading k .drive (loadOver f .drive s) := by
      unfold opFailed
      rw [hk]
      dsimp only
      rw [loadEnd_of_slot ho, slotLoaded_drive (by rw [(loadOver_spec f .drive s).slot]; exact hp)]
    obtain ⟨h1, _, h2⟩ := idle_answerWith (s := s) (v := loadOver f .drive s) (st := .load) (k := k) .drive .none
      (loadOver_spec f .drive s).executing
    rw [heq]
    exact ⟨h1, h2⟩
  flag h := by
    obtain ⟨i, hk | hk⟩ := h
    · unfold opFailed; rw [hk]; exact (settles_storeEnd f false s).flags _ (writeOver_flag f s)
    · unfold opFailed; rw [hk]; exact (settles_eraseEnd f i false s).flags _ (writeOver_flag f s)
  store i k hk ho := by
    have heq : opFailed f s = storeEnd f false s := by unfold opFailed; rw [hk]
    rw [heq]
    refine ⟨fun h => ?_, fun h h0 => storeEnd_leaves ho h h0, fun h => storeEnd_loading_failed ho h,
      fun h => storeEnd_storing ho h⟩
    obtain ⟨h1, h2, _⟩ := storeEnd_stays (good := false) ho h
    exact ⟨by rw [h1, Bool.not_false, Bool.and_true], h2⟩
  erase i k hk ho := by
    have heq : opFailed f s = eraseEnd f i false s := by unfold opFailed; rw [hk]
    obtain ⟨h1, _, h2, h3⟩ := eraseEnd_slot (i := i) (good := false) (s := s) ho
    rw [heq]
    exact ⟨h1, h2, h3⟩
  sweep i hk ho := by
    rcases hk with hk | hk
    · have heq : opFailed f s = sweepOn i (loadOver f .drive s) := by
        unfold opFailed
        rw [hk]
        dsimp only
        rw [loadEnd_of_sweep ho]; rfl
      have h := loadOver_spec f .drive s
      obtain ⟨hsw, her, _⟩ := h.cat
      obtain ⟨h1, h2⟩ := sweepGoesOn (s := s) i h.slots h.map h.claimed hsw
      rw [heq]
      exact ⟨h1, h2.trans her⟩
    · have heq : opFailed f s = eraseEnd f i false s := by unfold opFailed; rw [hk]
      rw [heq]
      exact eraseEnd_sweep ho
  headerRead hk := by
    have heq : opFailed f s = headerEnd .unreadable (endFlight f.tag s) := by unfold opFailed; rw [hk]
    obtain ⟨h1, _, _, h2, h3, _⟩ := headerEnd_spec .unreadable (endFlight f.tag s)
    rw [heq]
    obtain ⟨h4, h5⟩ := h3 rfl
    exact ⟨h1, h2, by rw [h4, (serviceWork_endFlight _ _).mon], h5⟩
  headerWrite e hk := by
    have heq : opFailed f s = finishFormat .drive .none (dropClaims .header (endFlight f.tag s)) := by
      unfold opFailed; rw [hk]; rfl
    have h := serviceWork_endFlight f.tag s
    obtain ⟨h1, h2, _⟩ := finishFormat_rest .drive .none (dropClaims .header (endFlight f.tag s))
    rw [heq]
    refine ⟨by rw [h1]; exact h.header, by rw [h2]; exact h.phase, fun tag r hw => finishFormat_answers _ _ ?_ hw⟩
    exact congrArg ControlWindow.executing h.win

/-- A failure after a change of the links and the frame buffer alone. -/
theorem State.OpFails.of_links {s t u : State} {f : Flight} (h : t.OpFails u f) (d : DrivePort) (b : FrameBuffer)
    (o : List Output) (ht : t = { s with drive := d, buffer := b, out := o }) : s.OpFails u f := by
  subst ht
  refine ⟨h.load, h.flag, h.store, h.erase, fun i hk ho => ?_, h.headerRead, h.headerWrite⟩
  obtain ⟨⟨h1, h2, h3, h4⟩, h5⟩ := h.sweep i hk ho
  exact ⟨⟨h1, h2, h3, h4⟩, h5⟩

/-- The drive port and the clock when an operation has failed. -/
theorem opFailed_drive (f : Flight) (s : State) :
    (opFailed f s).drive = { s.drive with queue := (opFailed f s).drive.queue } ∧ (opFailed f s).clock = s.clock := by
  have hover := settles_writeOver f false s
  unfold opFailed
  split
  · rename_i i _
    have h := (serviceWork_endFlight f.tag s).settles.trans (settles_loadEnd f i .drive s)
    exact ⟨h.drive, h.clock⟩
  · have h := hover.trans (settles_storeEnd f false s); exact ⟨h.drive, h.clock⟩
  · rename_i i _; have h := hover.trans (settles_eraseEnd f i false s); exact ⟨h.drive, h.clock⟩
  · have h := (serviceWork_endFlight f.tag s).settles
    obtain ⟨_, _, h1, _, _, h2⟩ := headerEnd_spec .unreadable (endFlight f.tag s)
    refine ⟨?_, h1.trans h.clock⟩
    rw [h2, h.drive]
  · rename_i e _; have h := settles_headerWriteEnd f e false s; exact ⟨h.drive, h.clock⟩

/-! ### A write completes good (R151) -/

/-- The good end of a write, as its kind and its owner have it. -/
theorem opDone (f : Flight) (s : State) : s.OpDone (opWritten f s) f where
  store i k hk ho := by
    have heq : opWritten f s = storeEnd f true s := by unfold opWritten; rw [hk]
    rw [heq]
    refine ⟨fun h => ?_, fun h h0 => storeEnd_leaves ho h h0, fun h => storeEnd_loading_good ho h,
      fun h => storeEnd_storing ho h⟩
    obtain ⟨h1, h2, h3⟩ := storeEnd_stays (good := true) ho h
    exact ⟨by rw [h1, Bool.not_true, Bool.and_false], h2, h3 rfl⟩
  erase i k hk ho := by
    have heq : opWritten f s = eraseEnd f i true s := by unfold opWritten; rw [hk]
    rw [heq]
    exact eraseEnd_slot ho
  sweep i hk ho := by
    have heq : opWritten f s = eraseEnd f i true s := by unfold opWritten; rw [hk]
    rw [heq]
    exact eraseEnd_sweep ho
  headerWrite e hk := by
    set v : State := dropClaims .header (endFlight f.tag s) with hv
    have heq : opWritten f s =
        finishFormat .ok (.epoch e) { v with cat := { v.cat with header := .valid e }, phase := .ready } := by
      unfold opWritten; rw [hk]; rfl
    obtain ⟨h1, h2, _⟩ :=
      finishFormat_rest .ok (.epoch e) { v with cat := { v.cat with header := .valid e }, phase := .ready }
    rw [heq]
    refine ⟨by rw [h1], by rw [h2], fun tag r hw => finishFormat_answers _ _ ?_ hw⟩
    exact congrArg ControlWindow.executing (serviceWork_endFlight f.tag s).win

/-- A good end after a change of the drive port and the outputs alone. -/
theorem State.OpDone.of_links {s t u : State} {f : Flight} (h : t.OpDone u f) (d : DrivePort) (o : List Output)
    (ht : t = { s with drive := d, out := o }) : s.OpDone u f := by
  subst ht
  refine ⟨h.store, h.erase, fun i hk ho => ?_, h.headerWrite⟩
  obtain ⟨⟨h1, h2, h3, h4⟩, h5⟩ := h.sweep i hk ho
  exact ⟨⟨h1, h2, h3, h4⟩, h5⟩

/-- The state in which the write of flight f has completed good at the drive, before its owner acts. -/
def State.written (s : State) (f : Flight) : State := emitWritten f (driveCompletes (.service f.tag) s.quiet)

theorem State.written_eq (s : State) (f : Flight) :
    s.written f = { s with
      drive := { s.drive with outstanding := s.drive.outstanding.filter fun d => decide (d.who ≠ .service f.tag) },
      out := (s.written f).out } ∧
    ∀ unit, f.content = .whole unit → .catalogue (s.catalogueLba f.op.kind.index) unit ∈ (s.written f).out := by
  unfold State.written emitWritten
  split
  · rename_i x hx
    refine ⟨rfl, fun unit e => ?_⟩
    obtain rfl := SvcContent.whole.inj (hx.symm.trans e)
    exact List.mem_append_right _ (List.mem_singleton_self _)
  · rename_i hx; exact ⟨rfl, fun unit e => by rw [hx] at e; cases e⟩
  · rename_i hx; exact ⟨rfl, fun unit e => by rw [hx] at e; cases e⟩

theorem settles_opWritten (f : Flight) (s : State) : Settles s (opWritten f s) := by
  unfold opWritten
  split
  · exact (settles_writeOver f true s).trans (settles_storeEnd f true s)
  · exact (settles_writeOver f true s).trans (settles_eraseEnd f _ true s)
  · exact settles_headerWriteEnd f _ true s
  all_goals exact .refl s

/-! ### Completions at the drive (R92, R150, R151) -/

section completions

variable {s : State} {g : SvcTag} {f : Flight}

theorem flight?_tag (hf : s.flight? g = some f) : f.tag = g := by
  simpa using List.find?_some hf

theorem driveWorks_of (hl : s.drive.link = .up) (he : s.drive.errorRead = false) : s.driveWorks = true := by
  unfold State.driveWorks; rw [hl, he]; rfl

theorem serviceCompleting_good (hl : s.drive.link = .up) (he : s.drive.errorRead = false) (hf : s.flight? g = some f)
    (ho : s.svcOutstanding g = true) (hh : s.drive.hold = none) (hx : s.drive.xfer = none) :
    s.serviceCompleting g true = some f := by
  unfold State.serviceCompleting State.linkFree
  rw [hf, driveWorks_of hl he, hh, hx]
  exact if_pos ⟨rfl, ho, fun _ => rfl⟩

theorem serviceCompleting_busy (hh : s.drive.hold ≠ none ∨ s.drive.xfer ≠ none) : s.serviceCompleting g true = none := by
  unfold State.serviceCompleting
  split
  · refine if_neg fun ⟨_, _, h⟩ => ?_
    have := h rfl
    unfold State.linkFree at this
    rcases hh with hh | hh <;> simp [hh] at this
  · rfl

theorem serviceCompleting_error (hl : s.drive.link = .up) (he : s.drive.errorRead = false) (hf : s.flight? g = some f)
    (ho : s.svcOutstanding g = true) : s.serviceCompleting g false = some f := by
  unfold State.serviceCompleting
  rw [hf]
  exact if_pos ⟨driveWorks_of hl he, ho, nofun⟩

/-- The state in which the error on the command of a service tag has been reported (R92). -/
def State.serviceError (s : State) (g : SvcTag) : State :=
  { stopLink (driveCompletes (.service g) s) with
    drive := { (stopLink (driveCompletes (.service g) s)).drive with errorRead := true } }

theorem serviceFails_eq (hn : s.flightOfOp f.op.num = some f) : serviceFails f s = opFailed f (s.serviceError f.tag) := by
  show failOp f.op.num (s.serviceError f.tag) = _
  unfold failOp
  rw [show (s.serviceError f.tag).flightOfOp f.op.num = some f from hn]

/-- A drive error on a service command: its operation fails, and the drive port waits for the error record. -/
theorem serviceFails_spec (hn : s.flightOfOp f.op.num = some f) :
    s.OpFails (serviceFails f s) f ∧ (serviceFails f s).drive.errorRead = true ∧ (serviceFails f s).drive.hold = none ∧
      (serviceFails f s).drive.xfer = none ∧ (serviceFails f s).clock = s.clock := by
  obtain ⟨hd, hc⟩ := opFailed_drive f (s.serviceError f.tag)
  rw [serviceFails_eq hn]
  refine ⟨(opFails f (s.serviceError f.tag)).of_links _ _ s.out rfl, ?_, ?_, ?_, hc⟩
  all_goals rw [hd]; rfl

end completions

end Sys2Proof.Machine

namespace Sys2Proof
open Machine

/-- Settles O47, by what a failed and a good write make of their owner. -/
theorem serviceWriteEnds : Obligations.ServiceWriteEnds := by
  intro s g f hr hl he hf ho hk
  have hkind : ¬ f.op.kind.reads = true := by rw [hk]; exact Bool.false_ne_true
  have run : ∀ good, exec (.serviceWriteComplete g good) s = .next (pump (Machine.serviceWriteEnds g good s.quiet)) :=
    fun good => act_running s (fun s => pump (Machine.serviceWriteEnds g good s)) hr
  refine ⟨fun hh hx => ?_, fun hb => ?_, fun hn => ?_⟩
  · have heq : Machine.serviceWriteEnds g true s.quiet = opWritten f (s.written f) := by
      unfold Machine.serviceWriteEnds
      rw [serviceCompleting_good (s := s.quiet) hl he hf ho hh hx]
      dsimp only
      rw [if_neg hkind, if_pos rfl, ← flight?_tag hf]
      rfl
    have hw := settles_opWritten f (s.written f)
    obtain ⟨hv, hout⟩ := State.written_eq s f
    refine ⟨opWritten f (s.written f), by rw [run, heq], (opDone f _).of_links _ _ hv,
      fun unit hc => by rw [hw.out]; exact hout unit hc, ?_, ?_, ?_⟩
    · rw [hw.drive, hv]; exact he
    · rw [hw.mon, hv]
    · rw [hw.clock, hv]
  · rw [run]
    unfold Machine.serviceWriteEnds
    rw [serviceCompleting_busy (s := s.quiet) hb]
    rfl
  · have heq : Machine.serviceWriteEnds g false s.quiet = serviceFails f s.quiet := by
      unfold Machine.serviceWriteEnds
      rw [serviceCompleting_error (s := s.quiet) hl he hf ho]
      dsimp only
      rw [if_neg hkind, if_neg Bool.false_ne_true]
    obtain ⟨h, h1, h2, h3, h4⟩ := serviceFails_spec (s := s.quiet) hn
    exact ⟨_, by rw [run, heq], h.of_links _ _ _ rfl, h1, h2, h3, h4⟩

end Sys2Proof
end

section
/-!
O46. A service read completes, and what its outcome means to the slot, the sweep or the part (R7, R8, R36, R144, R146,
R150, R154, R155, R163, R205).
-/

namespace Sys2Proof.Machine

/-! ### The read completes (R146, R150) -/

theorem jobs_submitJob (j : Job) (s : State) :
    ∃ k : Job, (k ∈ (submitJob j s).lanes.jobs ∨ ∃ l x, (submitJob j s).lanes.lane l = some x ∧ x.job = k) ∧
      k = { j with bypass := 0 } := by
  unfold submitJob
  split
  · exact ⟨_, .inr ⟨0, _, rfl, rfl⟩, rfl⟩
  · exact ⟨_, .inr ⟨1, _, rfl, rfl⟩, rfl⟩
  · exact ⟨_, .inl (List.mem_append_right _ (List.mem_singleton_self _)), rfl⟩

theorem flight?_modFlight {s : State} {g : SvcTag} {f : Flight} (hf : s.flight? g = some f) (h : Flight → Flight)
    (ht : ∀ x, (h x).tag = x.tag) : (s.modFlight g h).flight? g = some (h f) := by
  have hfg := flight?_tag hf
  unfold State.flight? State.modFlight at *
  rw [List.find?_map]
  have hcomp : ((fun f : Flight => decide (f.tag = g)) ∘ fun x => if x.tag = g then h x else x) =
      fun f : Flight => decide (f.tag = g) := by
    funext x
    by_cases e : x.tag = g <;> simp [e, ht]
  rw [hcomp, hf, Option.map_some, if_pos hfg]

theorem setKnownGen_knownGen {s : State} {i : Nat} (g : Option Nat) (h : (s.claim? i).isSome = true) :
    (setKnownGen i g s).knownGen i = g := by
  obtain ⟨c, hc⟩ := Option.isSome_iff_exists.mp h
  have hci : c.index = i := by simpa using List.find?_some hc
  unfold State.knownGen State.claim? setKnownGen at *
  rw [List.find?_map]
  have hcomp : ((fun c : Claim => decide (c.index = i)) ∘ fun c => if c.index = i then { c with gen := g } else c) =
      fun c : Claim => decide (c.index = i) := by
    funext x
    by_cases e : x.index = i <;> simp [e]
  rw [hcomp, hc, Option.map_some, if_pos hci]
  rfl

/-- A read that needs its unit decrypted (R150). -/
theorem unitRead_job {s : State} {g : SvcTag} {f : Flight} {unit : DiskUnit} (hf : s.flight? g = some f)
    (hn : s.needsJob f.op.kind unit = true) :
    let u := unitRead f unit (driveCompletes (.service g) s)
    u.flight? g = some { f with content := .whole unit } ∧
      u.hasJob g.val .decrypt .root (readTweak f.op.kind unit) (.service g) .service ∧
      u.drive = (driveCompletes (.service g) s).drive ∧ u.slots = s.slots ∧ u.win = s.win ∧ u.mon = s.mon := by
  have hg := flight?_tag hf
  have heq : unitRead f unit (driveCompletes (.service g) s) = submitJob (serviceJob g .decrypt (readTweak f.op.kind unit))
      ((driveCompletes (.service g) s).modFlight g fun f => { f with content := .whole unit }) := by
    unfold unitRead; rw [hg]; exact if_pos hn
  rw [heq]
  refine ⟨?_, ?_, ?_, ?_, ?_, ?_⟩
  · unfold State.flight?
    rw [submitJob_cat]
    exact flight?_modFlight (s := driveCompletes (.service g) s) hf _ fun _ => rfl
  · obtain ⟨k, hk, rfl⟩ := jobs_submitJob (serviceJob g .decrypt (readTweak f.op.kind unit))
      ((driveCompletes (.service g) s).modFlight g fun f => { f with content := .whole unit })
    exact ⟨_, hk, rfl, rfl, rfl, rfl, rfl, rfl⟩
  all_goals rw [submitJob_rest]; rfl

/-- A LOAD that the clear part decides (R146). -/
theorem unitRead_load {s : State} {f : Flight} {unit : DiskUnit} {i : Nat} (hk : f.op.kind = .load i)
    (hn : s.needsJob f.op.kind unit = false) : unitRead f unit s = loadEnd f i .empty (setKnownGen i (foundGen unit) s) := by
  have hd : s.decidesClear unit = true := by rw [hk] at hn; simpa [State.needsJob] using hn
  unfold unitRead
  rw [if_neg (by rw [hn]; exact Bool.false_ne_true)]
  unfold opRead State.classify
  rw [hk]
  dsimp only
  rw [if_pos hd]

/-- A HEADER_READ that the clear part decides (R144). -/
theorem unitRead_header {s : State} {f : Flight} {unit : DiskUnit} (hk : f.op.kind = .headerRead)
    (hn : s.needsJob f.op.kind unit = false) : unitRead f unit s = headerEnd .absent (endFlight f.tag s) := by
  have hd : (headerClear unit).marker = false := by rw [hk] at hn; exact hn
  unfold unitRead
  rw [if_neg (by rw [hn]; exact Bool.false_ne_true)]
  unfold opRead State.headerOf
  rw [hk]
  dsimp only
  rw [if_pos hd]

/-! ### The outcomes at OPEN_TITLE and CREATE_TITLE -/

/-- A LOAD at OPEN_TITLE that leaves the slot IDLE (R8). -/
theorem loadEnd_open_idle {s : State} {f : Flight} {i : Nat} {k : SlotIx} {o : LoadOutcome} {x : Result} {d : Details}
    (ho : f.op.owner = .slot k) (hp : (s.slot k).phase = .loading)
    (hw : ∀ e, s.win.executing = some e → recCode e.record ≠ 1)
    (h : openLoaded k o (loadOver f o s) = answerWith .load k x d (enterIdle k (loadOver f o s))) :
    let u := loadEnd f i o s
    u.slot k = TitleSlot.empty ∧ u.map = s.map ∧ s.Answers u .load k x d := by
  have hl := loadOver_spec f o s
  obtain ⟨h1, h2, h3⟩ := idle_answerWith (s := s) (v := loadOver f o s) (st := .load) (k := k) x d hl.executing
  have heq : loadEnd f i o s = answerWith .load k x d (enterIdle k (loadOver f o s)) := by
    rw [loadEnd_of_slot ho, slotLoaded_open (by rw [hl.slot]; exact hp) (by rw [hl.executing]; exact hw), h]
  rw [heq]
  exact ⟨h1, h2.trans hl.map, h3⟩

/-- A LOAD at OPEN_TITLE that finds an expired title (R8). -/
theorem loadEnd_open_expired {s : State} {f : Flight} {i : Nat} {k : SlotIx} {x : TitleFields}
    (ho : f.op.owner = .slot k) (hp : (s.slot k).phase = .loading)
    (hw : ∀ e, s.win.executing = some e → recCode e.record ≠ 1) (hd : expiryDue x.expiry s.clock = true) :
    let u := loadEnd f i (.title x) s
    u.slot k = s.slot k ∧ u.map = s.map ∧ u.asks (.erase ((s.slot k).number.getD 0)) (.slot k) ∧
      ∀ tag r, s.waiting tag r .load → u.waiting tag r .erase := by
  have hl := loadOver_spec f (.title x) s
  set v := loadOver f (.title x) s
  set t := requestOp (.erase ((s.slot k).number.getD 0)) (.slot k) none v with ht
  have hreq : v.ServiceWork t := serviceWork_requestOp _ _ _ _
  have heq : loadEnd f i (.title x) s = setStage .erase t := by
    rw [loadEnd_of_slot ho, slotLoaded_open (by rw [hl.slot]; exact hp) (by rw [hl.executing]; exact hw)]
    unfold openLoaded
    dsimp only
    rw [if_pos (by rw [hl.clock]; exact hd), hl.slot]
  have hst : (setStage .erase t).slots = t.slots ∧ (setStage .erase t).map = t.map := by
    unfold setStage; split <;> exact ⟨rfl, rfl⟩
  rw [heq]
  refine ⟨?_, ?_, State.asks_setStage _ (asks_requestOp _ _ _ _), fun tag r hwait => ?_⟩
  · unfold State.slot
    rw [hst.1, hreq.slots, hl.slots]
  · rw [hst.2, hreq.map, hl.map]
  · have : t.waiting tag r .load := State.waiting_of_executing hwait (by rw [hreq.win, hl.executing])
    rw [setStage_eq_staged .erase this]; rfl

/-- A LOAD at OPEN_TITLE that opens its title (R8, R36, R155). -/
theorem loadEnd_open_opens {s : State} {f : Flight} {i : Nat} {k : SlotIx} {x : TitleFields}
    (ho : f.op.owner = .slot k) (hp : (s.slot k).phase = .loading)
    (hw : ∀ e, s.win.executing = some e → recCode e.record ≠ 1) (hd : expiryDue x.expiry s.clock = false)
    (hn : s.map.length + x.extents.length ≤ 512) (hf : ∀ e ∈ x.extents, s.fits e) :
    let u := loadEnd f i (.title x) s
    s.Answers u .load k .ok .none ∧ u.slot k = { takeFields x (s.slot k) with phase := .active } ∧
      u.map.Perm (s.map ++ x.extents.map fun e => { start := e.start, len := e.len, slot := k, first := e.first }) := by
  have hl := loadOver_spec f (.title x) s
  set v := loadOver f (.title x) s
  have hfv : ∀ e ∈ x.extents, v.fits e := fun e he => by
    obtain ⟨h1, h2⟩ := hf e he
    exact ⟨by rw [hl.map]; exact h1, by rw [hl.windowUnit]; exact h2⟩
  set t := ({ v with map := insertExtents k x.extents v.map } : State).setSlot k
    { takeFields x (v.slot k) with phase := .active } with ht
  have heq : loadEnd f i (.title x) s = answer .load k .ok t := by
    rw [loadEnd_of_slot ho, slotLoaded_open (by rw [hl.slot]; exact hp) (by rw [hl.executing]; exact hw)]
    unfold openLoaded
    dsimp only
    rw [if_neg (by rw [hl.clock, hd]; exact Bool.false_ne_true)]
    exact openTitle_opens (by rw [hl.map]; exact hn) hfv (by rw [hl.clock]; exact hd)
  rw [heq]
  refine ⟨answers_answerWith (v := t) hl.executing rfl (.refl _) rfl, ?_, ?_⟩
  · rw [answer_slot, ht, State.slot_setSlot_same, hl.slot]
  · rw [(answer_slots _ _ _ _).2]
    show (insertExtents k x.extents v.map).Perm _
    rw [hl.map]
    exact insertExtents_perm k _ _

/-- A LOAD at CREATE_TITLE that leaves the slot IDLE (R7). -/
theorem loadEnd_create_idle {s : State} {f : Flight} {i : Nat} {k : SlotIx} {o : LoadOutcome} {x : Result}
    {tag : Option HostTag} {r : Sector} (ho : f.op.owner = .slot k) (hp : (s.slot k).phase = .loading)
    (hw : s.waiting tag r .load) (hr : recCode r = 1)
    (h : createLoaded k r o (loadOver f o s) = failLoading k x (loadOver f o s)) :
    let u := loadEnd f i o s
    u.slot k = TitleSlot.empty ∧ u.map = s.map ∧ s.Answers u .load k x .none := by
  have hl := loadOver_spec f o s
  obtain ⟨h1, h2, h3⟩ := idle_answerWith (s := s) (v := loadOver f o s) (st := .load) (k := k) x .none hl.executing
  have heq : loadEnd f i o s = failLoading k x (loadOver f o s) := by
    rw [loadEnd_of_slot ho, slotLoaded_create (by rw [hl.slot]; exact hp)
      (State.waiting_of_executing hw hl.executing) hr, h]
  rw [heq]
  exact ⟨h1, h2.trans hl.map, h3⟩

/-- A LOAD at CREATE_TITLE that makes the title (R7, R154). -/
theorem loadEnd_create_makes {s : State} {f : Flight} {i : Nat} {k : SlotIx} {o : LoadOutcome}
    {tag : Option HostTag} {r : Sector} (ho : f.op.owner = .slot k) (hp : (s.slot k).phase = .loading)
    (hw : s.waiting tag r .load) (hr : recCode r = 1)
    (h : createLoaded k r o (loadOver f o s) = makeTitle k r (loadOver f o s)) :
    let u := loadEnd f i o s
    u.waiting tag r .store ∧ u.asks (.store ((s.slot k).number.getD 0)) (.slot k) ∧ u.draws = s.draws + 1 ∧
      u.map = s.map ∧ u.slot k = { s.slot k with
        key := some ⟨s.draws⟩, gen := some 1, state := some .recording, cls := some (recClass r),
        expiry := recExpiry r, nextUnit := 0, extentCount := 0, lastChanger := recRequest r, dirty := true,
        storeInFlight := true } := by
  have hl := loadOver_spec f o s
  set v := loadOver f o s
  have hv : v.waiting tag r .load := State.waiting_of_executing hw hl.executing
  have heq : loadEnd f i o s = makeTitle k r v := by
    rw [loadEnd_of_slot ho, slotLoaded_create (by rw [hl.slot]; exact hp) hv hr, h]
  obtain ⟨h1, h2⟩ := storeAsked (b := v.drawn) (st := .load) hv k { v.slot k with
    key := some ⟨v.draws⟩, gen := some 1, state := some .recording, cls := some (recClass r), expiry := recExpiry r,
    nextUnit := 0, extentCount := 0, lastChanger := recRequest r, dirty := true, storeInFlight := true }
    (.store ((v.slot k).number.getD 0))
  rw [heq, makeTitle_eq]
  rw [hl.slot] at h1
  refine ⟨?_, by rw [hl.slot]; exact h1, ?_, ?_, ?_⟩
  · unfold State.waiting; rw [h2.win]; rfl
  · rw [h2.draws]; exact congrArg (· + 1) hl.draws
  · rw [h2.map]; exact hl.map
  · rw [h2.slot]
    unfold State.staged
    show State.slot (v.drawn.setSlot k _) k = _
    rw [State.slot_setSlot_same, hl.slot, hl.draws]

/-! ### The clauses of O46 -/

/-- Every end of a LOAD that no CREATE_TITLE waits for (R8, R36, R155). -/
theorem loadEnd_open {s : State} {f : Flight} {i : Nat} {k : SlotIx} {o : LoadOutcome} (ho : f.op.owner = .slot k)
    (hp : (s.slot k).phase = .loading) (hw : ∀ e, s.win.executing = some e → recCode e.record ≠ 1)
    {x : TitleFields} (hx : o = .title x) (hd : expiryDue x.expiry s.clock = false) :
    let u := loadEnd f i o s
    let idle (x : Result) (d : Details) : Prop := u.slot k = TitleSlot.empty ∧ u.map = s.map ∧ s.Answers u .load k x d
    (512 < s.map.length + x.extents.length → idle .mapFull (.openFailed x.extents.length 255)) ∧
    (s.map.length + x.extents.length ≤ 512 → ∀ before e after, x.extents = before ++ e :: after →
      (∀ y ∈ before, s.fits y) → ∀ n, s.extentMeets e = some n → idle .overlap (.openFailed before.length n)) := by
  subst hx
  have hl := loadOver_spec f (.title x) s
  have hopen : openLoaded k (.title x) (loadOver f (.title x) s) = openTitle k x (loadOver f (.title x) s) := by
    unfold openLoaded; exact if_neg (by rw [hl.clock, hd]; exact Bool.false_ne_true)
  have hunfit : ∀ n es, (loadOver f (.title x) s).firstUnfit n es = s.firstUnfit n es := by
    intro n es
    induction es generalizing n with
    | nil => rfl
    | cons e es ih =>
      have he : (loadOver f (.title x) s).extentMeets e = s.extentMeets e := by
        unfold State.extentMeets; rw [hl.map, hl.windowUnit]
      unfold State.firstUnfit
      rw [he, ih]
  refine ⟨fun hn => loadEnd_open_idle ho hp hw ?_, fun hn before e after hes hb n he => loadEnd_open_idle ho hp hw ?_⟩
  · rw [hopen, openTitle_mapFull (by rw [hl.map]; exact hn)]
  · rw [hopen, openTitle_overlap (p := before.length) (n := n) (by rw [hl.map]; exact hn)]
    rw [hunfit, hes, firstUnfit_some he after before 0 hb, Nat.zero_add]

/-- An end of the sweep's LOAD without an expired title (R163). -/
theorem loadEnd_sweep_on {s : State} {f : Flight} {i : Nat} {o : LoadOutcome} (ho : f.op.owner = .sweep)
    (h : ∀ x, o = .title x → expiryDue x.expiry s.clock = false) :
    s.SweepGoesOn (loadEnd f i o s) i ∧ (loadEnd f i o s).cat.erased = s.cat.erased := by
  have hl := loadOver_spec f o s
  obtain ⟨hsw, her, _⟩ := hl.cat
  have heq : loadEnd f i o s = sweepOn i (loadOver f o s) := by
    rw [loadEnd_of_sweep ho]
    unfold sweepLoaded
    split
    · exact if_neg (by rw [hl.clock, h _ rfl]; exact Bool.false_ne_true)
    all_goals rfl
  obtain ⟨h1, h2⟩ := sweepGoesOn (s := s) i hl.slots hl.map hl.claimed hsw
  rw [heq]
  exact ⟨h1, h2.trans her⟩

/-- The sweep's LOAD finds an expired title (R163). -/
theorem loadEnd_sweep_expired {s : State} {f : Flight} {i : Nat} {x : TitleFields} (ho : f.op.owner = .sweep)
    (hd : expiryDue x.expiry s.clock = true) :
    let u := loadEnd f i (.title x) s
    u.asks (.erase i) .sweep ∧ u.slots = s.slots ∧ u.cat.progress = s.cat.progress ∧
      u.cat.sweeping = s.cat.sweeping ∧ u.cat.erased = s.cat.erased := by
  have hl := loadOver_spec f (.title x) s
  obtain ⟨hsw, her, hpr⟩ := hl.cat
  have heq : loadEnd f i (.title x) s = requestOp (.erase i) .sweep none (loadOver f (.title x) s) := by
    rw [loadEnd_of_sweep ho]
    exact if_pos (by rw [hl.clock]; exact hd)
  have hr := serviceWork_requestOp (.erase i) .sweep none (loadOver f (.title x) s)
  rw [heq]
  exact ⟨asks_requestOp _ _ _ _, hr.slots.trans hl.slots, hr.progress.trans hpr, hr.sweeping.trans hsw,
    hr.erased.trans her⟩

/-- A damaged record is counted whoever reads it, and no other outcome counts anything (R146). -/
theorem loadEnd_counts (f : Flight) (i : Nat) (o : LoadOutcome) (s : State) :
    (o = .damaged → s.CountsDamage (loadEnd f i o s)) ∧ (o ≠ .damaged → (loadEnd f i o s).mon = s.mon) := by
  have h := settles_loadEnd f i o s
  refine ⟨fun e => ?_, fun e => h.mon.trans (mon_loadOver e)⟩
  subst e
  exact (countsDamage_loadOver f s).settles h

/-- The commands held off when nobody is (R205). -/
theorem takeHeld_none {s : State} (h : s.host.held = []) : takeHeld s = s := by
  unfold takeHeld
  rw [h]
  show { s with host := { s.host with held := [] } } = s
  rw [← h]

/-- The one command held off is taken (R205). -/
theorem takeHeld_one {s : State} {a : Arrival} (h : s.host.held = [a]) (hp : s.phase ≠ .starting)
    (hr : s.host.rangeSector = none) : takeHeld s = takeCommand a { s with host := { s.host with held := [] } } := by
  have hoff : ({ s with host := { s.host with held := [] } } : State).holdsOff = false := by
    unfold State.holdsOff
    show (decide (s.phase = .starting) || s.host.rangeSector.isSome) = false
    rw [decide_eq_false hp, hr]; rfl
  unfold takeHeld
  rw [h]
  exact if_neg (by rw [hoff]; exact Bool.false_ne_true)

theorem phaseOf_ne_starting (h : HeaderCopy) : phaseOf h ≠ .starting := by cases h <;> exact nofun

/-- The end of a HEADER_READ (R144, R205). -/
theorem headerEnd_clauses (h : HeaderCopy) (s : State) :
    let u := headerEnd h s
    (s.host.held = [] → u.host = s.host ∧ u.table = s.table ∧ u.drive = s.drive ∧ (h ≠ .unreadable → u.mon = s.mon)) ∧
    ∀ a, s.host.held = [a] → h ≠ .unreadable → s.host.rangeSector = none →
      u = takeCommand a { s with
        phase := u.phase, host := { s.host with held := [] },
        cat := { s.cat with header := h, claims := s.cat.claims.filter fun c => decide (c.owner ≠ .header) } } := by
  have hk := headerKnown_rest h s
  obtain ⟨_, _, _, hph, _⟩ := headerEnd_spec h s
  refine ⟨fun hheld => ?_, fun a hheld hne hr => ?_⟩
  · rw [headerEnd_eq, takeHeld_none (by rw [hk]; exact hheld)]
    refine ⟨by rw [hk], by rw [hk], by rw [hk], fun hne => ?_⟩
    rw [headerKnown_of_ne hne]
  · rw [hph, headerEnd_eq, headerKnown_of_ne hne]
    exact takeHeld_one hheld (phaseOf_ne_starting h) hr

end Sys2Proof.Machine

namespace Sys2Proof
open Machine

/-- Settles O46, outcome by outcome. -/
theorem serviceReadEnds : Obligations.ServiceReadEnds := by
  refine ⟨fun s g f unit hr hl he hf ho hk => ?_, fun s unit i c b hu => ?_, fun s f i o => loadEnd_counts f i o s,
    fun s f i k o ho hp hw => ⟨?_, ?_, ?_, fun x hx => ⟨?_, fun hd => ?_⟩⟩,
    fun s f i k o tag r ho hp hw hr hk => ⟨?_, ?_, ?_, ?_, ?_⟩,
    fun s f i o ho => ⟨?_, fun h => loadEnd_sweep_on ho h⟩, fun s h => ?_⟩
  · have run : ∀ x, exec (.serviceReadComplete g x) s = .next (pump (Machine.serviceReadEnds g x s.quiet)) :=
      fun x => act_running s (fun s => pump (Machine.serviceReadEnds g x s)) hr
    refine ⟨fun hh hx => ?_, fun hb => ?_, fun hn => ?_⟩
    · have heq : Machine.serviceReadEnds g (some unit) s.quiet = unitRead f unit (driveCompletes (.service g) s.quiet) := by
        unfold Machine.serviceReadEnds
        rw [show (some unit).isSome = true from rfl, serviceCompleting_good (s := s.quiet) hl he hf ho hh hx]
        exact if_pos hk
      refine ⟨fun hn => ⟨_, by rw [run, heq], unitRead_job (s := s.quiet) hf hn⟩, fun i hki hn => ?_, fun hki hn => ?_⟩
      · rw [run, heq, unitRead_load (s := driveCompletes (.service g) s.quiet) hki hn]; rfl
      · rw [run, heq, unitRead_header (s := driveCompletes (.service g) s.quiet) hki hn]; rfl
    · rw [run]
      unfold Machine.serviceReadEnds
      rw [show (some unit).isSome = true from rfl, serviceCompleting_busy (s := s.quiet) hb]
      rfl
    · have heq : Machine.serviceReadEnds g none s.quiet = serviceFails f s.quiet := by
        unfold Machine.serviceReadEnds
        rw [show (none : Option DiskUnit).isSome = false from rfl, serviceCompleting_error (s := s.quiet) hl he hf ho]
        exact if_pos hk
      obtain ⟨h, h1, _⟩ := serviceFails_spec (s := s.quiet) hn
      exact ⟨_, by rw [run, heq], h.of_links _ _ _ rfl, h1⟩
  · subst hu
    refine ⟨?_, rfl, rfl, fun hc => setKnownGen_knownGen _ hc⟩
    by_cases he : c.epoch = s.epoch <;> simp [State.needsJob, State.decidesClear, titleClear, he]
  · rintro rfl; exact loadEnd_open_idle ho hp hw rfl
  · rintro rfl; exact loadEnd_open_idle ho hp hw rfl
  · rintro rfl; exact loadEnd_open_idle ho hp hw rfl
  · subst hx; exact fun hd => loadEnd_open_expired ho hp hw hd
  · obtain ⟨h1, h2⟩ := loadEnd_open (i := i) ho hp hw hx hd
    refine ⟨h1, fun hn => ⟨fun before e after hes hb => ⟨fun lower m higher hmap hm hlow => ?_, fun hm hwin => ?_⟩,
      fun hf => ?_⟩⟩
    · exact h2 hn before e after hes hb _ (extentMeets_slot hmap hm hlow)
    · exact h2 hn before e after hes hb _ (extentMeets_window hm hwin)
    · subst hx; exact loadEnd_open_opens ho hp hw hd hn hf
  · rintro rfl; exact loadEnd_create_makes ho hp hw hr rfl
  · rintro rfl hover
    exact loadEnd_create_makes ho hp hw hr (if_pos (decide_eq_true hover))
  · rintro rfl hover
    exact loadEnd_create_idle ho hp hw hr (if_neg (by rw [recOverwrite, decide_eq_false hover]; exact Bool.false_ne_true))
  · rintro x rfl; exact loadEnd_create_idle ho hp hw hr rfl
  · rintro rfl; exact loadEnd_create_idle ho hp hw hr rfl
  · rintro x rfl hd; exact loadEnd_sweep_expired ho hd
  · obtain ⟨h1, h2, h3, h4, h5, _⟩ := headerEnd_spec h s
    refine ⟨h1, h2, h3, ?_, ?_, ?_, fun e => ⟨?_, h5 e⟩, headerEnd_clauses h s⟩
    · rintro e rfl; exact h4
    · rintro rfl; exact h4
    · rintro rfl; exact h4
    · subst e; exact h4

end Sys2Proof
end

section
/-!
SUPPORT. The cut of a command into pieces, its runs, the tests that its pieces pass and the counts they take (R16, R18,
R43, R44, R76, R79).
-/

namespace Sys2Proof.Machine

/-! ### Pieces in a row (R43) -/

/-- Pieces that follow on each other from sector x to the end, cut at units. -/
def InRow : Nat → Nat → List Piece → Prop
  | x, stop, [] => x = stop
  | x, stop, p :: ps => p.lba = x ∧ 1 ≤ p.count ∧ p.lba + p.count ≤ stop ∧ (ps ≠ [] → (p.lba + p.count) % 8 = 0) ∧
      InRow (p.lba + p.count) stop ps

theorem unclaimedStop_spec {map : List Extent} {x stop : Nat} (hx : x < stop) :
    x < unclaimedStop map x stop ∧ unclaimedStop map x stop ≤ stop ∧
      (unclaimedStop map x stop ≠ stop → unclaimedStop map x stop % 8 = 0) := by
  unfold unclaimedStop nextStart
  cases h : map.find? (fun e => decide (unitOf x < e.start)) with
  | none => exact ⟨hx, Nat.le_refl _, fun e => absurd rfl e⟩
  | some e =>
    have he : unitOf x < e.start := by simpa using List.find?_some h
    unfold unitOf at he
    dsimp only [Option.map_some]
    omega

theorem holds_iff {e : Extent} {u : Nat} : e.holds u = true ↔ e.start ≤ u ∧ u < e.stop := by simp [Extent.holds]

theorem lookupUnit_holds {map : List Extent} {u : Nat} {e : Extent} (h : lookupUnit map u = some e) :
    e.start ≤ u ∧ u < e.stop := holds_iff.mp (List.find?_some (p := fun e : Extent => e.holds u) (l := map) h)

theorem cutPieces_done {map : List Extent} {x stop : Nat} (h : stop ≤ x) : ∀ n, cutPieces n map x stop = []
  | 0 => rfl
  | _ + 1 => if_pos h

/-- A cut that its fuel suffices for shows every sector. -/
theorem inRow_cutPieces (map : List Extent) (stop : Nat) : ∀ (n x : Nat), x ≤ stop →
    (cutPieces n map x stop).length < n → InRow x stop (cutPieces n map x stop)
  | 0, _, _, h => absurd h (Nat.not_lt_zero _)
  | n + 1, x, hx, h => by
    unfold cutPieces at h ⊢
    split
    · exact Nat.le_antisymm hx ‹_›
    · rename_i hlt
      rw [if_neg hlt] at h
      have hxs : x < stop := Nat.lt_of_not_le hlt
      have row : ∀ (p : Piece) (y : Nat), p.lba = x → p.lba + p.count = y → x < y → y ≤ stop → (y ≠ stop → y % 8 = 0) →
          (p :: cutPieces n map y stop).length < n + 1 → InRow x stop (p :: cutPieces n map y stop) := by
        intro p y hp hy hxy hys h8 hlen
        have ih := inRow_cutPieces map stop n y hys (by simpa using hlen)
        refine ⟨hp, by omega, by omega, fun hne => ?_, by rw [hy]; exact ih⟩
        rw [hy]
        exact h8 fun e => hne (cutPieces_done (by omega) n)
      split
      · rename_i e he
        rw [he] at h
        obtain ⟨_, h2⟩ := lookupUnit_holds he
        unfold unitOf at h2
        refine row _ _ rfl ?_ ?_ (Nat.min_le_left _ _) ?_ h
        · show x + (min stop (8 * e.stop) - x) = _
          omega
        · omega
        · omega
      · rename_i he
        rw [he] at h
        obtain ⟨h1, h2, h3⟩ := unclaimedStop_spec (map := map) hxs
        refine row _ _ rfl ?_ h1 h2 h3 h
        show x + (unclaimedStop map x stop - x) = _
        omega

/-- The pieces of a cut know their extent alone: no lap list yet. -/
theorem laps_cutPieces {map : List Extent} {stop : Nat} : ∀ {n x : Nat}, ∀ p ∈ cutPieces n map x stop, ∀ o,
    p.owned = some o → o.laps = none
  | 0, _, p, hp, _, _ => absurd hp List.not_mem_nil
  | n + 1, x, p, hp, o, ho => by
    unfold cutPieces at hp
    split at hp
    · exact absurd hp List.not_mem_nil
    · split at hp
      · rcases List.mem_cons.mp hp with e | hp
        · subst e; rw [← Option.some.inj ho]
        · exact laps_cutPieces p hp o ho
      · rcases List.mem_cons.mp hp with e | hp
        · subst e; cases ho
        · exact laps_cutPieces p hp o ho

/-- The cut of a command in one extent. -/
theorem cutPieces_one {map : List Extent} {e : Extent} {x0 c n : Nat} (hmap : map.Pairwise fun a b => a.stop ≤ b.start)
    (he : e ∈ map) (hc : 1 ≤ c) (h1 : 8 * e.start ≤ x0) (h2 : x0 + c ≤ 8 * e.stop) :
    cutPieces (n + 2) map x0 (x0 + c) = [pieceIn e x0 c] := by
  have hlook : lookupUnit map (unitOf x0) = some e := by
    obtain ⟨as, bs, rfl⟩ := List.append_of_mem he
    refine List.find?_eq_some_iff_append.mpr ⟨holds_iff.mpr ?_, as, bs, rfl, fun a ha => ?_⟩
    · unfold unitOf; omega
    · have := (List.pairwise_append.mp hmap).2.2 a ha e List.mem_cons_self
      rw [Bool.not_eq_true', Bool.eq_false_iff, Ne, holds_iff]
      unfold unitOf; omega
  unfold cutPieces
  rw [if_neg (by omega), hlook]
  dsimp only
  rw [Nat.min_eq_left h2, Nat.add_sub_cancel_left, cutPieces_done (Nat.le_refl _)]

/-! ### Runs (R79) -/

/-- The first sector and the end of what a piece moves at the drive. -/
def Piece.lo (p : Piece) : Nat := if p.owned.isSome then 8 * (p.lba / 8) else p.lba
def Piece.hi (p : Piece) : Nat := if p.owned.isSome then 8 * ((p.lba + p.count - 1) / 8) + 8 else p.lba + p.count

theorem driveSpan_eq (ps : List Piece) : driveSpan ps =
    ((match ps.head? with | some p => p.lo | none => 0), match ps.getLast? with | some p => p.hi | none => 0) := rfl

/-- The whole range of a piece. -/
def Piece.whole (p : Piece) : Range := { lba := p.lo, len := p.hi - p.lo }

theorem runsOf_read {ps : List Piece} (h : ∀ p ∈ ps, ∀ o, p.owned = some o → o.laps = none) :
    runsOf false ps = (joinRanges (ps.map Piece.whole)).flatMap cutRun := by
  unfold runsOf
  dsimp only
  rw [if_neg Bool.false_ne_true, ← List.flatMap_singleton' (ps.map Piece.whole), List.flatMap_map]
  congr 2
  refine List.flatMap_congr fun p hp => ?_
  unfold pieceRanges Piece.whole Piece.lo Piece.hi
  cases ho : p.owned with
  | none => simp
  | some o => simp [h p hp o ho, Piece.firstUnit, Piece.lastUnit, unitOf]; omega

theorem runsOf_write (ps : List Piece) : runsOf true ps = (joinRanges (ps.map Piece.whole)).flatMap cutRun := by
  unfold runsOf
  dsimp only
  rw [if_pos rfl, ← List.flatMap_singleton' (ps.map Piece.whole), List.flatMap_map]
  congr 2
  refine List.flatMap_congr fun p hp => ?_
  unfold Piece.whole Piece.lo Piece.hi
  cases ho : p.owned with
  | none => simp
  | some o => simp [Piece.firstUnit, Piece.lastUnit, unitOf]; omega

/-- Pieces in a row move one run of sectors. -/
theorem joinRanges_whole : ∀ {ps : List Piece} {x stop : Nat}, InRow x stop ps → ∀ p ∈ ps.head?, ∀ q ∈ ps.getLast?,
    joinRanges (ps.map Piece.whole) = [{ lba := p.lo, len := q.hi - p.lo }] ∧ p.lo < q.hi
  | [], _, _, _, _, hp, _, _ => by cases hp
  | [a], _, _, ⟨_, h1, _⟩, p, hp, q, hq => by
    obtain rfl := Option.some.inj hp
    obtain rfl : a = q := by simpa using hq
    refine ⟨rfl, ?_⟩
    unfold Piece.lo Piece.hi
    split <;> omega
  | a :: b :: ps, _, stop, ⟨h1, h2, h3, h4, h5⟩, p, hp, q, hq => by
    obtain rfl := Option.some.inj hp
    obtain ⟨ih, hlt⟩ := joinRanges_whole h5 b rfl q (by rwa [List.getLast?_cons_cons] at hq)
    obtain ⟨hb, _⟩ := h5
    have h8 := h4 (List.cons_ne_nil _ _)
    have hjoin : a.lo + (a.hi - a.lo) = b.lo ∧ a.lo < a.hi := by
      unfold Piece.lo Piece.hi
      rw [hb]
      split <;> split <;> omega
    rw [List.map_cons, joinRanges, ih]
    refine ⟨(if_pos (show a.whole.lba + a.whole.len = b.lo from hjoin.1)).trans ?_, by omega⟩
    rw [show a.whole.len = a.hi - a.lo from rfl, show a.hi - a.lo + (q.hi - b.lo) = q.hi - a.lo by omega]
    rfl

theorem cutRun_eq (lo hi : Nat) : cutRun { lba := lo, len := hi - lo } = runsOver lo hi := by
  unfold cutRun runsOver Config.maxSectors
  dsimp only
  by_cases h : hi - lo ≤ 65536
  · rw [if_neg (Nat.not_lt.mpr h), if_pos h]
  · rw [if_pos (Nat.lt_of_not_le h), if_neg h]

/-- The runs of pieces in a row (R79). -/
theorem runs_inRow {ps : List Piece} {x stop : Nat} (h : InRow x stop ps) (hne : ps ≠ []) :
    (joinRanges (ps.map Piece.whole)).flatMap cutRun = runsOver (driveSpan ps).1 (driveSpan ps).2 := by
  obtain ⟨p, hp⟩ : ∃ p, ps.head? = some p := by cases ps with | nil => exact absurd rfl hne | cons p ps => exact ⟨p, rfl⟩
  obtain ⟨q, hq⟩ : ∃ q, ps.getLast? = some q := ⟨_, List.getLast?_eq_some_getLast hne⟩
  obtain ⟨hj, _⟩ := joinRanges_whole h p hp q hq
  rw [hj, driveSpan_eq, hp, hq]
  simp [cutRun_eq]

/-! ### The tests that the pieces pass (R76) -/

/-- A piece with the title number of its slot, as its tests leave it. -/
def State.titled (s : State) (p : Piece) : Piece :=
  { p with owned := p.owned.map fun o => { o with title := (s.slot o.slot).number.getD 0 } }

theorem takeGen_titled (s : State) (p : Piece) : (s.titled p).takeGen s = s.taken p := by
  unfold Piece.takeGen State.titled State.taken
  cases p.owned <;> rfl

/-- The pieces of a READ or WRITE of ACTIVE recordings, or of unclaimed sectors under PASS, pass their tests. -/
theorem testPieces_passes {write : Bool} {s : State} : ∀ (ps : List Piece),
    (∀ p ∈ ps, p.owned = none → s.dataPolicy write = .pass) →
    (∀ p ∈ ps, ∀ o, p.owned = some o → s.mon.state ≠ .lockdown ∧ (s.slot o.slot).halted = false ∧
      (s.slot o.slot).phase = .active ∧ (write = true → (s.slot o.slot).state = some .recording) ∧
      (write = false → (s.slot o.slot).expiry = none ∨ s.clock ≠ none) ∧ (s.slot o.slot).ring = none) →
    testPieces write s ps = .ok (ps.map fun p => { piece := s.titled p })
  | [], _, _ => rfl
  | p :: ps, hu, ho => by
    have hp : testPiece write s p = .ok { piece := s.titled p } := by
      unfold testPiece State.titled
      cases h : p.owned with
      | none =>
        dsimp only
        rw [if_pos (hu p List.mem_cons_self h)]
        congr 2
        cases p; cases h; rfl
      | some o =>
        obtain ⟨h1, h2, h3, h4, h5, h6⟩ := ho p List.mem_cons_self o h
        unfold testProtected
        dsimp only
        rw [if_neg h1, if_neg (by rw [h2]; exact Bool.false_ne_true), if_neg (fun e => e h3),
          if_neg fun e => e.2 (h4 e.1), if_neg ?_, h6]
        · rfl
        · rintro ⟨hw, _, he, hc⟩
          rcases h5 hw with h | h
          · rw [h] at he; cases he
          · exact h hc
    unfold testPieces
    rw [hp, testPieces_passes ps (fun q hq => hu q (List.mem_cons_of_mem _ hq))
      fun q hq => ho q (List.mem_cons_of_mem _ hq)]
    rfl

/-! ### The counts that the pieces take (R16, R18) -/

theorem ownedOn_cons (p : Piece) (ps : List Piece) (i : SlotIx) :
    (ownedOn (p :: ps) i).length = (ownedOn [p] i).length + (ownedOn ps i).length := by
  unfold ownedOn
  cases h : p.owned <;> simp [h]
  rename_i o
  by_cases e : o.slot = i <;> simp [e, Nat.add_comm]

theorem raiseFlight_slot (p : Piece) (s : State) (i : SlotIx) : (raiseFlight p s).slot i =
    { s.slot i with inFlight := (s.slot i).inFlight + (ownedOn [p] i).length } := by
  unfold raiseFlight ownedOn
  cases h : p.owned with
  | none => simp [h]
  | some o =>
    dsimp only
    by_cases e : o.slot = i
    · subst e; rw [State.slot_modSlot_same]; simp [h]
    · rw [State.slot_modSlot_other _ _ _ _ (Ne.symm e)]; simp [h, e]

theorem raiseFlight_rest (p : Piece) (s : State) : raiseFlight p s = { s with slots := (raiseFlight p s).slots } := by
  unfold raiseFlight; split <;> rfl

/-- Every piece counts in its slot. -/
theorem raiseAll_spec : ∀ (ps : List Piece) (s : State),
    (∀ i, (ps.foldl (fun s p => raiseFlight p s) s).slot i =
      { s.slot i with inFlight := (s.slot i).inFlight + (ownedOn ps i).length }) ∧
    ps.foldl (fun s p => raiseFlight p s) s = { s with slots := (ps.foldl (fun s p => raiseFlight p s) s).slots }
  | [], s => ⟨fun _ => rfl, rfl⟩
  | p :: ps, s => by
    obtain ⟨h1, h2⟩ := raiseAll_spec ps (raiseFlight p s)
    refine ⟨fun i => ?_, ?_⟩
    · rw [List.foldl_cons, h1, raiseFlight_slot, ownedOn_cons p ps i]
      simp only [Nat.add_assoc]
    · rw [List.foldl_cons, h2, raiseFlight_rest]

theorem ownedOn_taken (s : State) (ps : List Piece) (i : SlotIx) :
    (ownedOn (ps.map s.taken) i).length = (ownedOn ps i).length := by
  induction ps with
  | nil => rfl
  | cons p ps ih =>
    rw [List.map_cons, ownedOn_cons, ih, ownedOn_cons p ps]
    congr 1
    unfold ownedOn State.taken
    cases h : p.owned <;> simp [h]
    rename_i o
    by_cases e : o.slot = i <;> simp [e]

end Sys2Proof.Machine
end

section
/-!
SUPPORT. A command enters the table: what it is there, and what joins the drive issue queue (R72, R78, R79, R99, R105).
-/

namespace Sys2Proof.Machine

/-! ### The newest command of the table -/

/-- No command of the table has this tag. -/
def State.fresh (s : State) (t : HostTag) : Prop := ∀ d ∈ s.table, d.tag ≠ t

theorem fresh_of_tagTest {s : State} {t : HostTag} (h : tagTest s t = none) : s.fresh t := fun d hd e =>
  (newTag_of_tagTest h).free (by
    unfold State.occupied
    exact List.mem_append_left _ (List.mem_map.mpr ⟨d, hd, e⟩))

/-- The command c stands last in the table of s, after commands of other tags. -/
structure State.Newest (s : State) (l : List Cmd) (c : Cmd) : Prop where
  table : s.table = l ++ [c]
  fresh : ∀ d ∈ l, d.tag ≠ c.tag

namespace State.Newest

variable {s : State} {l : List Cmd} {c : Cmd}

theorem cmd? (h : s.Newest l c) (hs : c.state ≠ .failed) : s.cmd? c.tag = some c := by
  unfold State.cmd?
  rw [h.table, List.find?_append, List.find?_eq_none.mpr]
  · simp [hs]
  · intro d hd; simp [h.fresh d hd]

theorem modCmd (h : s.Newest l c) (f : Cmd → Cmd) (hf : (f c).tag = c.tag) : (s.modCmd c.tag f).Newest l (f c) where
  table := by
    show s.table.map _ = _
    rw [h.table, List.map_append, List.map_cons, List.map_nil, if_pos rfl]
    congr 1
    conv_rhs => rw [← List.map_id l]
    exact List.map_congr_left fun d hd => if_neg (h.fresh d hd)
  fresh d hd := by rw [hf]; exact h.fresh d hd

/-- A state with the same table. -/
theorem of_table (h : s.Newest l c) {u : State} (hu : u.table = s.table) : u.Newest l c := ⟨hu.trans h.table, h.fresh⟩

end State.Newest

/-! ### Requests (R118, R121) -/

/-- Commands have asked for frames between s and u: they may have been granted, and nothing has joined the drive's
queue. -/
structure Asks (s u : State) : Prop where
  rest : u = { s with table := u.table, buffer := u.buffer, stamp := u.stamp }
  table : ∃ g : Cmd → Cmd, u.table = s.table.map g ∧
    ∀ c, g c = { c with received := (g c).received, granted := (g c).granted }

namespace Asks

theorem refl (s : State) : Asks s s := ⟨rfl, id, by simp, fun _ => rfl⟩

theorem trans {s t u : State} (h : Asks s t) (k : Asks t u) : Asks s u where
  rest := by rw [k.rest, h.rest]
  table := by
    obtain ⟨g, h1, h2⟩ := h.table
    obtain ⟨g', k1, k2⟩ := k.table
    refine ⟨g' ∘ g, by rw [k1, h1, List.map_map], fun c => ?_⟩
    rw [Function.comp_apply, k2, h2]

theorem newest {s u : State} (h : Asks s u) {l : List Cmd} {c : Cmd} (hc : s.Newest l c) :
    ∃ l' k, u.Newest l' k ∧ k = { c with received := k.received, granted := k.granted } := by
  obtain ⟨g, h1, h2⟩ := h.table
  refine ⟨l.map g, g c, ⟨by rw [h1, hc.table, List.map_append]; rfl, fun d hd => ?_⟩, h2 c⟩
  obtain ⟨e, he, rfl⟩ := List.mem_map.mp hd
  rw [h2 e, h2 c]
  exact hc.fresh e he

end Asks

theorem asks_modCmd (s : State) (t : HostTag) (f : Cmd → Cmd)
    (hf : ∀ c, f c = { c with received := (f c).received, granted := (f c).granted }) : Asks s (s.modCmd t f) where
  rest := rfl
  table := by
    refine ⟨_, rfl, fun c => ?_⟩
    by_cases e : c.tag = t
    · rw [if_pos e]; exact hf c
    · rw [if_neg e]

/-- A change of the frame buffer and the stamp alone. -/
theorem asks_buffer (s : State) (b : FrameBuffer) (n : Nat) : Asks s { s with buffer := b, stamp := n } :=
  ⟨rfl, id, by simp, fun _ => rfl⟩

theorem asks_grant {r : Req} (s : State) (hk : r.kind ≠ .push) : Asks s (grant r s) := by
  unfold grant
  split
  · rename_i c n _ _
    have hh : Asks s (s.holdFrame (grantedFrame r c n s)).tickStamp := asks_buffer s _ _
    dsimp only
    split
    · contradiction
    · exact hh.trans (asks_modCmd _ _ _ fun _ => rfl)
    · exact hh.trans (asks_modCmd _ _ _ fun _ => rfl)
  · exact .refl s

theorem asks_takeBase (t : HostTag) (n : Nat) (s : State) : Asks s (takeBase t n s) := by
  unfold takeBase
  have h1 : Asks s (s.modFrame n fun f => { f with cond := .filling, fromHost := true, order := s.stamp }) :=
    asks_buffer s _ s.stamp
  exact (h1.trans (asks_modCmd _ t _ fun _ => rfl)).trans (asks_buffer _ _ _)

theorem asks_followUp : ∀ (fuel : Nat) (t : HostTag) (s : State), Asks s (followUp fuel t s)
  | 0, _, s => .refl s
  | fuel + 1, t, s => by
    unfold followUp
    split
    · exact .refl s
    · split
      · exact .refl s
      · exact (asks_takeBase _ _ s).trans (asks_followUp fuel t _)
      · rename_i hw
        split
        · exact (asks_grant s (wanted_kind hw)).trans (asks_followUp fuel t _)
        · exact asks_buffer s _ s.stamp

theorem asks_makeRequests (t : HostTag) (s : State) : Asks s (makeRequests t s) := asks_followUp 16 t s

/-! ### The entry (R78) -/

/-- A READ or WRITE as its admission makes it, and as it stands in u after it has entered the table of s. -/
structure State.Enters (s u : State) (c k : Cmd) : Prop where
  cmd : u.cmd? c.tag = some k
  same : k = { c with
    state := k.state, nextRun := k.nextRun, merges := k.merges, received := k.received, granted := k.granted }
  rest : u = { s with
    table := u.table, buffer := u.buffer, stamp := u.stamp, drive := { s.drive with queue := u.drive.queue } }

theorem enterTable_waits {c : Cmd} {s : State} (hf : s.fresh c.tag) (hw : c.waitFor ≠ []) :
    s.Enters (enterTable c s) c { c with state := .waitOverlap } ∧ (enterTable c s).drive = s.drive ∧
      (enterTable c s).buffer = s.buffer := by
  have heq : enterTable c s = { s with table := s.table ++ [{ c with state := .waitOverlap }] } := by
    unfold enterTable; exact if_neg fun e => hw e.1
  have hn : (enterTable c s).Newest s.table { c with state := .waitOverlap } := ⟨by rw [heq], hf⟩
  exact ⟨⟨hn.cmd? nofun, rfl, by rw [heq]⟩, by rw [heq], by rw [heq]⟩

/-- The state with the command at the end of its table. -/
def State.added (s : State) (c : Cmd) : State := { s with table := s.table ++ [c] }

theorem added_newest {c : Cmd} {s : State} (hf : s.fresh c.tag) : (s.added c).Newest s.table c := ⟨rfl, hf⟩

theorem enterTable_begins {c : Cmd} {s : State} (hw : c.waitFor = []) (hs : c.waitStores = []) :
    enterTable c s = beginCmd c.tag (s.added c) := if_pos ⟨hw, hs⟩

/-- The drive issue queue after a run of a command has joined it. -/
def DrivePort.queued (d : DrivePort) (e : DriveCmd) : DrivePort := { d with queue := d.queue ++ [e] }

/-- A READ or WRITE with a run and without a wait or a merge read to make enters ACTIVE (R72, R79). -/
theorem enterTable_active {c : Cmd} {s : State} {op : DriveOp} {r : Range} (hf : s.fresh c.tag) (hw : c.waitFor = [])
    (hs : c.waitStores = []) (hst : c.state ≠ .failed) (hr : c.runs.head? = some r)
    (hk : (c.kind = .read ∧ op = .read) ∨ (c.kind = .write ∧ op = .write ∧ c.nextMerge = none)) :
    ∃ k, s.Enters (enterTable c s) c k ∧ k.state = .active ∧ k.merges = c.merges ∧
      (enterTable c s).drive = s.drive.queued { who := .host c.tag, op := op, lba := r.lba, count := r.len } := by
  have hn := added_newest hf
  have hcmd := hn.cmd? hst
  have hrun : c.runs[0]? = some r := by rw [← List.head?_eq_getElem?]; exact hr
  have hne : c.runs.isEmpty = false := by cases h : c.runs with | nil => rw [h] at hr; cases hr | cons => rfl
  set a := joinRun c op 0 ((s.added c).setCmdState c.tag .active) with ha
  have heq : enterTable c s = makeRequests c.tag a := by
    rw [enterTable_begins hw hs]
    unfold beginCmd
    rw [hcmd]
    have hnot : ¬ (c.kind = .write ∧ c.nextMerge.isSome = true) := by
      rcases hk with ⟨h, _⟩ | ⟨_, _, h⟩
      · rw [h]; exact fun e => nomatch e.1
      · rw [h]; exact fun e => nomatch e.2
    dsimp only
    rw [if_neg hnot]
    unfold enterCmdActive
    rw [hcmd]
    rcases hk with ⟨h, rfl⟩ | ⟨h, rfl, _⟩
    · simp only [h, hne, Bool.false_eq_true, if_false]; rw [ha]
    · simp only [h]; rw [ha]
  have ha' : a = (joinQueue { who := .host c.tag, op := op, lba := r.lba, count := r.len }
      ((s.added c).setCmdState c.tag .active)).modCmd c.tag fun c => { c with nextRun := 1 } := by
    rw [ha]; unfold joinRun; rw [hrun]
  have hna : a.Newest s.table { c with state := .active, nextRun := 1 } := by
    rw [ha']
    have h1 := hn.modCmd (fun c => { c with state := .active }) rfl
    have h2 := h1.of_table (u := joinQueue { who := .host c.tag, op := op, lba := r.lba, count := r.len }
      ((s.added c).setCmdState c.tag .active)) rfl
    exact h2.modCmd (fun c => { c with nextRun := 1 }) rfl
  have hq := asks_makeRequests c.tag a
  obtain ⟨l', k, hk', hk''⟩ := hq.newest hna
  have htag : k.tag = c.tag := by rw [hk'']
  have hstate : k.state = .active := by rw [hk'']
  rw [heq]
  refine ⟨k, ⟨?_, ?_, ?_⟩, hstate, by rw [hk''], ?_⟩
  · exact htag ▸ hk'.cmd? (by rw [hstate]; exact nofun)
  · rw [hk'']
  · conv_lhs => rw [hq.rest, ha']
    rw [hq.rest, ha']
    rfl
  · rw [hq.rest, ha']; rfl

/-- A WRITE with a base to read back enters MERGE_READ (R98, R99). -/
theorem enterTable_merges {c : Cmd} {s : State} {e : MergeEntry} (hf : s.fresh c.tag) (hw : c.waitFor = [])
    (hs : c.waitStores = []) (hst : c.state ≠ .failed) (hk : c.kind = .write) (he : c.nextMerge = some e) :
    s.Enters (enterTable c s) c { c.setMerge e.unit .reading with state := .mergeRead } ∧
      (enterTable c s).drive = s.drive.queued { who := .host c.tag, op := .mergeRead, lba := 8 * e.unit, count := 8 } ∧
      (enterTable c s).buffer = s.buffer := by
  have hn := added_newest hf
  have heq : enterTable c s = (joinQueue { who := .host c.tag, op := .mergeRead, lba := 8 * e.unit, count := 8 }
      ((s.added c).setCmdState c.tag .mergeRead)).modCmd c.tag fun c => c.setMerge e.unit .reading := by
    rw [enterTable_begins hw hs]
    unfold beginCmd
    rw [hn.cmd? hst]
    dsimp only
    rw [if_pos ⟨hk, by rw [he]; rfl⟩]
    unfold joinMergeRead
    rw [he]
  have hu : (enterTable c s).Newest s.table { c.setMerge e.unit .reading with state := .mergeRead } := by
    rw [heq]
    have h1 := hn.modCmd (fun c => { c with state := .mergeRead }) rfl
    have h2 := h1.of_table (u := joinQueue { who := .host c.tag, op := .mergeRead, lba := 8 * e.unit, count := 8 }
      ((s.added c).setCmdState c.tag .mergeRead)) rfl
    exact h2.modCmd (fun c => c.setMerge e.unit .reading) rfl
  exact ⟨⟨hu.cmd? nofun, rfl, by rw [heq]; rfl⟩, by rw [heq]; rfl, by rw [heq]; rfl⟩

end Sys2Proof.Machine
end

section
/-!
SUPPORT, and O27. A READ or WRITE of recordings and unclaimed sectors is admitted (R16, R18, R43, R44, R76, R78, R79,
R105).
-/

namespace Sys2Proof.Machine

/-! ### The way to admission (R69, R73, R75) -/

/-- A READ or WRITE below the control window that the host port takes. -/
structure State.TakesData (s : State) (t : HostTag) (x0 c : Nat) : Prop where
  takes : s.TakesHost
  tag : tagTest s t = none
  some : 1 ≤ c
  most : c ≤ 65536
  below : x0 + c ≤ s.presented - 16

theorem takeData_eq {s : State} {t : HostTag} {x0 c : Nat} (h : s.TakesData t x0 c) (write : Bool) :
    arrive (if write then .write t x0 c else .read t x0 c) s.quiet = admitBelow write t x0 c s.quiet := by
  obtain ⟨⟨_, hup, hph, hrs⟩, htag, h1, _, hb⟩ := h
  have hoff : s.quiet.holdsOff = false := by
    show (decide (s.phase = .starting) || s.host.rangeSector.isSome) = false
    rw [decide_eq_false hph, hrs]; rfl
  have hr : admitRange write t x0 c s.quiet = admitBelow write t x0 c s.quiet := by
    unfold admitRange
    rw [if_neg, if_neg]
    · show ¬ s.presented - 16 < x0 + c
      omega
    · show ¬ s.presented < x0 + c
      omega
  unfold arrive
  rw [if_pos (show s.quiet.host.up = true from hup), hoff, if_neg Bool.false_ne_true]
  unfold takeCommand
  cases write
  · rw [if_neg Bool.false_ne_true, show tagTest s.quiet (Arrival.read t x0 c).tag = none from htag]
    exact hr
  · rw [if_pos rfl, show tagTest s.quiet (Arrival.write t x0 c).tag = none from htag]
    exact hr

theorem countOk_of {c : Nat} (h1 : 1 ≤ c) (h2 : c ≤ 65536) : countOk c = true := by
  unfold countOk Config.maxSectors; simp; omega

theorem exec_hostRead {s : State} {t : HostTag} {x0 c : Nat} (h : s.TakesData t x0 c) :
    exec (.hostRead t x0 c) s = .next (pump (admitBelow false t x0 c s.quiet)) := by
  refine (if_pos (countOk_of h.some h.most)).trans ?_
  rw [act_running s _ h.takes.running]
  unfold arriveAndPump
  rw [← takeData_eq h false]; rfl

theorem exec_hostWrite {s : State} {t : HostTag} {x0 c : Nat} (h : s.TakesData t x0 c) :
    exec (.hostWrite t x0 c) s = .next (pump (admitBelow true t x0 c s.quiet)) := by
  refine (if_pos (countOk_of h.some h.most)).trans ?_
  rw [act_running s _ h.takes.running]
  unfold arriveAndPump
  rw [← takeData_eq h true]; rfl

/-! ### The command that an admission makes (R78, R79, R98, R105) -/

/-- The command of these pieces before its wait set is known. -/
def dataCmd (write : Bool) (t : HostTag) (x0 c : Nat) (ps : List Piece) : Cmd :=
  let c0 : Cmd := { tag := t, kind := if write then .write else .read, lba := x0, count := c, pieces := ps,
                    runs := runsOf write ps }
  { c0 with merges := if write then c0.mergeList else [] }

/-- The command as it enters the table. -/
def State.dataCmd (s : State) (write : Bool) (t : HostTag) (x0 c : Nat) (ps : List Piece) : Cmd :=
  { Machine.dataCmd write t x0 c ps with waitFor := s.waitSet (Machine.dataCmd write t x0 c ps) }

theorem admitData_eq (write : Bool) (t : HostTag) (x0 c : Nat) (xs : List Tested) (s : State) :
    admitData write t x0 c xs s =
      let s1 := xs.foldl (fun s x => applyTrial x s) s
      let ps := xs.map fun x => x.piece.takeGen s1
      enterTable (s.dataCmd write t x0 c ps)
        (countExpired (s.dataCmd write t x0 c ps) (ps.foldl (fun s p => raiseFlight p s) s1)) := rfl

/-- No read piece of a command is of a ring. -/
theorem countExpired_none {c : Cmd} {s : State}
    (h : c.kind = .write ∨ ∀ p ∈ c.pieces, ∀ o, p.owned = some o → o.laps = none) : countExpired c s = s := by
  unfold countExpired
  split
  · rename_i hk hz
    rcases h with h | h
    · rw [hk] at h; cases h
    · have : c.pieces.filterMap Piece.zeroes = [] := by
        rw [List.filterMap_eq_nil_iff]
        intro p hp
        unfold Piece.zeroes
        cases ho : p.owned with
        | none => rfl
        | some o => simp only [h p hp o ho]
      rw [this] at hz; cases hz
  · rfl

/-- A command waits for those of the table that share a protected unit with it and that it, or they, write (R105). -/
theorem mem_waitSet {s : State} {c : Cmd} {w : HostTag} : w ∈ s.waitSet c ↔
    ∃ o ∈ s.table, o.tag = w ∧ (o.kind = .write ∨ c.kind = .write) ∧ ∃ r ∈ o.unitRanges, piecesMeet c.pieces r := by
  have meet : ∀ r : Nat × Nat, (∃ b ∈ c.unitRanges, rangesMeet r b = true) ↔ piecesMeet c.pieces r := fun r => by
    have hb : ∀ b : Nat × Nat, rangesMeet r b = true ↔ r.1 ≤ b.2 ∧ b.1 ≤ r.2 := fun b => by simp [rangesMeet]
    unfold Cmd.unitRanges piecesMeet
    constructor
    · rintro ⟨b, hm, h⟩
      obtain ⟨p, hp, rfl⟩ := List.mem_map.mp hm
      obtain ⟨hp, ho⟩ := List.mem_filter.mp hp
      exact ⟨p, hp, ho, (hb _).mp h⟩
    · rintro ⟨p, hp, ho, h⟩
      exact ⟨_, List.mem_map.mpr ⟨p, List.mem_filter.mpr ⟨hp, ho⟩, rfl⟩, (hb _).mpr h⟩
  unfold State.waitSet Cmd.conflicts
  simp only [List.mem_map, List.mem_filter, Bool.and_eq_true, Bool.or_eq_true, decide_eq_true_eq, List.any_eq_true, meet]
  constructor
  · rintro ⟨o, ⟨ho, hk, hr⟩, rfl⟩; exact ⟨o, ho, rfl, hk, hr⟩
  · rintro ⟨o, ho, rfl, hk, hr⟩; exact ⟨o, ⟨ho, hk, hr⟩, rfl⟩

theorem piecesMeet_taken (s : State) (ps : List Piece) (r : Nat × Nat) :
    piecesMeet (ps.map s.taken) r ↔ piecesMeet ps r := by
  unfold piecesMeet State.taken
  simp

/-- A command has been admitted between s and u, and stands there as k: its pieces count in their slots (R16, R18). -/
structure State.Admits (s u : State) (write : Bool) (t : HostTag) (x0 c : Nat) (ps : List Piece) (k : Cmd) : Prop where
  cmd : u.cmd? t = some k
  same : k = { s.dataCmd write t x0 c (ps.map s.taken) with
    state := k.state, nextRun := k.nextRun, merges := k.merges, received := k.received, granted := k.granted }
  slots : ∀ i, u.slot i = { s.slot i with inFlight := (s.slot i).inFlight + (ownedOn ps i).length }
  mon : u.mon = s.mon
  map : u.map = s.map

theorem applyTrial_none {x : Tested} {s : State} (h : x.trial = none) : applyTrial x s = s := by
  unfold applyTrial
  cases x.piece.owned with
  | none => rfl
  | some o => rw [h]

/-- Pieces whose tests are passed without a ring: the command enters the table, and its pieces count. -/
theorem admitBelow_passes {write : Bool} {s : State} {t : HostTag} {x0 c : Nat}
    (hlen : (cutPieces 5 s.map x0 (x0 + c)).length ≤ 4)
    (hu : ∀ p ∈ cutPieces 5 s.map x0 (x0 + c), p.owned = none → s.dataPolicy write = .pass)
    (ho : ∀ p ∈ cutPieces 5 s.map x0 (x0 + c), ∀ o, p.owned = some o → s.mon.state ≠ .lockdown ∧
      (s.slot o.slot).halted = false ∧ (s.slot o.slot).phase = .active ∧
      (write = true → (s.slot o.slot).state = some .recording) ∧
      (write = false → (s.slot o.slot).expiry = none ∨ s.clock ≠ none) ∧ (s.slot o.slot).ring = none) :
    let ps := (cutPieces 5 s.map x0 (x0 + c)).map s.taken
    admitBelow write t x0 c s =
      enterTable (s.dataCmd write t x0 c ps) (ps.foldl (fun s p => raiseFlight p s) s) := by
  have hlaps := laps_cutPieces (map := s.map) (stop := x0 + c) (n := 5) (x := x0)
  set qs := cutPieces 5 s.map x0 (x0 + c) with hqs
  have htrial : ∀ l : List Piece,
      (l.map fun p => ({ piece := s.titled p } : Tested)).foldl (fun s x => applyTrial x s) s = s := by
    intro l
    induction l with
    | nil => rfl
    | cons p l ih =>
      rw [List.map_cons, List.foldl_cons]
      rw [applyTrial_none rfl, ih]
  have hps : (qs.map fun p => ({ piece := s.titled p } : Tested)).map (fun x => x.piece.takeGen s) = qs.map s.taken := by
    rw [List.map_map]
    exact List.map_congr_left fun p _ => takeGen_titled s p
  have hexp : ∀ v, countExpired (s.dataCmd write t x0 c (qs.map s.taken)) v = v := fun v => by
    refine countExpired_none (.inr fun p hp o h => ?_)
    obtain ⟨q, hq, rfl⟩ := List.mem_map.mp (show p ∈ qs.map s.taken from hp)
    unfold State.taken at h
    cases hqo : q.owned with
    | none => rw [hqo] at h; cases h
    | some o' =>
      rw [hqo] at h
      rw [← Option.some.inj h]
      exact hlaps q hq o' hqo
  unfold admitBelow
  dsimp only
  rw [show Config.maxPieces + 1 = 5 from rfl, ← hqs,
    if_neg (Nat.not_lt.mpr (show qs.length ≤ Config.maxPieces from hlen)), testPieces_passes qs hu ho]
  dsimp only
  rw [admitData_eq]
  dsimp only
  rw [htrial, hps, hexp]

/-- The command has entered the table (R78). -/
theorem admits_of_enters {write : Bool} {s u : State} {t : HostTag} {x0 c : Nat} {ps : List Piece} {k : Cmd}
    (h : ((ps.map s.taken).foldl (fun s p => raiseFlight p s) s).Enters u (s.dataCmd write t x0 c (ps.map s.taken)) k) :
    s.Admits u write t x0 c ps k := by
  obtain ⟨hs, hrest⟩ := raiseAll_spec (ps.map s.taken) s
  refine ⟨h.cmd, h.same, fun i => ?_, ?_, ?_⟩
  · rw [← ownedOn_taken s ps i, ← hs i]
    unfold State.slot
    rw [h.rest]
  · rw [h.rest, hrest]
  · rw [h.rest, hrest]

/-- The wait set of an admitted command (R105). -/
theorem State.Admits.waits {write : Bool} {s u : State} {t : HostTag} {x0 c : Nat} {ps : List Piece} {k : Cmd}
    (h : s.Admits u write t x0 c ps k) (w : HostTag) : w ∈ k.waitFor ↔
      ∃ o ∈ s.table, o.tag = w ∧ (write = false → o.kind = .write) ∧ ∃ r ∈ o.unitRanges, piecesMeet ps r := by
  have hw : k.waitFor = s.waitSet (Machine.dataCmd write t x0 c (ps.map s.taken)) := by rw [h.same]; rfl
  have hk : (Machine.dataCmd write t x0 c (ps.map s.taken)).kind = .write ↔ write = true := by
    cases write <;> simp [Machine.dataCmd]
  rw [hw, mem_waitSet, hk]
  simp only [show (Machine.dataCmd write t x0 c (ps.map s.taken)).pieces = ps.map s.taken from rfl, piecesMeet_taken]
  cases write <;> simp

/-- The run of a READ or WRITE of one extent (R79). -/
theorem runsOver_pieceIn (e : Extent) (x0 c : Nat) (hc : 1 ≤ c) :
    runsOver (driveSpan [pieceIn e x0 c]).1 (driveSpan [pieceIn e x0 c]).2 = unitRuns (x0 / 8) ((x0 + c - 1) / 8) := by
  show runsOver (8 * (x0 / 8)) (8 * ((x0 + c - 1) / 8) + 8) = _
  unfold runsOver unitRuns
  rw [show 8 * ((x0 + c - 1) / 8) + 8 - 8 * (x0 / 8) = 8 * ((x0 + c - 1) / 8 + 1 - x0 / 8) by omega]

theorem ownedOn_pieceIn (e : Extent) (x0 c : Nat) (i : SlotIx) :
    (ownedOn [pieceIn e x0 c] i).length = if e.slot = i then 1 else 0 := by
  unfold ownedOn pieceIn
  by_cases h : e.slot = i <;> simp [h]

theorem piecesMeet_pieceIn (e : Extent) (x0 c : Nat) (r : Nat × Nat) :
    piecesMeet [pieceIn e x0 c] r ↔ r.1 ≤ (x0 + c - 1) / 8 ∧ x0 / 8 ≤ r.2 := by
  unfold piecesMeet pieceIn; simp

/-- The slots after the admission of a command of one extent (R16). -/
theorem State.Admits.slots_pieceIn {write : Bool} {s u : State} {t : HostTag} {x0 c : Nat} {e : Extent} {k : Cmd}
    (h : s.Admits u write t x0 c [pieceIn e x0 c] k) :
    u.slot e.slot = { s.slot e.slot with inFlight := (s.slot e.slot).inFlight + 1 } ∧
      ∀ j, j ≠ e.slot → u.slot j = s.slot j := by
  refine ⟨?_, fun j hj => ?_⟩
  · rw [h.slots, ownedOn_pieceIn, if_pos rfl]
  · rw [h.slots, ownedOn_pieceIn, if_neg (Ne.symm hj)]; rfl

/-! ### READ -/

/-- What an admitted READ waits for, or sends to the drive (R72, R79, R105). -/
structure State.ReadBegins (s u : State) (t : HostTag) (k : Cmd) : Prop where
  now : k.waitFor = [] → k.state = .active ∧ ∀ r, k.runs.head? = some r →
    u.drive = { s.drive with
      queue := s.drive.queue ++ [{ who := .host t, op := .read, lba := r.lba, count := r.len }] }
  later : k.waitFor ≠ [] → k.state = .waitOverlap ∧ u.drive = s.drive ∧ u.buffer = s.buffer

theorem runsOver_head (lo hi : Nat) : ∃ r, (runsOver lo hi).head? = some r := by
  unfold runsOver; split <;> exact ⟨_, rfl⟩

/-- A READ of recordings and of unclaimed sectors is admitted. -/
theorem readAdmitted {s : State} {t : HostTag} {x0 c : Nat} (h : s.TakesData t x0 c)
    (hlen : (cutPieces 5 s.map x0 (x0 + c)).length ≤ 4)
    (hu : ∀ p ∈ cutPieces 5 s.map x0 (x0 + c), p.owned = none → s.win.readPolicy = .pass)
    (ho : ∀ p ∈ cutPieces 5 s.map x0 (x0 + c), ∀ o, p.owned = some o → s.mon.state ≠ .lockdown ∧
      (s.slot o.slot).halted = false ∧ (s.slot o.slot).phase = .active ∧
      ((s.slot o.slot).expiry = none ∨ s.clock ≠ none) ∧ (s.slot o.slot).ring = none) :
    let ps := cutPieces 5 s.map x0 (x0 + c)
    ∃ u k, exec (.hostRead t x0 c) s = .next (pump u) ∧ s.Admits u false t x0 c ps k ∧ s.ReadBegins u t k ∧
      k.runs = runsOver (driveSpan ps).1 (driveSpan ps).2 := by
  intro ps
  have hrow : InRow x0 (x0 + c) ps := inRow_cutPieces _ _ 5 x0 (by omega) (by omega)
  have hne : ps ≠ [] := by
    intro e; rw [e] at hrow
    have : x0 = x0 + c := hrow
    have := h.some
    omega
  have hlaps := laps_cutPieces (map := s.map) (stop := x0 + c) (n := 5) (x := x0)
  set k0 := s.dataCmd false t x0 c (ps.map s.taken) with hk0
  set v := (ps.map s.taken).foldl (fun s p => raiseFlight p s) s.quiet with hv
  have hvq : v = { s.quiet with slots := v.slots } := (raiseAll_spec (ps.map s.taken) s.quiet).2
  have hruns : k0.runs = runsOver (driveSpan ps).1 (driveSpan ps).2 := by
    show runsOf false (ps.map s.taken) = _
    rw [runsOf_read, List.map_map, ← runs_inRow hrow hne]
    · congr 2
      refine List.map_congr_left fun p _ => ?_
      unfold State.taken Piece.whole Piece.lo Piece.hi
      simp
    · intro p hp o hpo
      obtain ⟨q, hq, rfl⟩ := List.mem_map.mp hp
      unfold State.taken at hpo
      obtain ⟨o', ho', rfl⟩ := Option.map_eq_some_iff.mp hpo
      exact hlaps q hq o' ho'
  have hexec : exec (.hostRead t x0 c) s = .next (pump (enterTable k0 v)) := by
    rw [exec_hostRead h]
    refine congrArg (fun z => Host.Outcome.next (pump z)) ?_
    exact admitBelow_passes (s := s.quiet) hlen hu fun p hp o hpo => by
      obtain ⟨h1, h2, h3, h4, h5⟩ := ho p hp o hpo
      exact ⟨h1, h2, h3, nofun, fun _ => h4, h5⟩
  have hf : v.fresh k0.tag := by
    intro d hd
    rw [hvq] at hd
    exact fresh_of_tagTest h.tag d hd
  obtain ⟨r, hr⟩ := runsOver_head (driveSpan ps).1 (driveSpan ps).2
  rw [← hruns] at hr
  have admits : ∀ u k, v.Enters u k0 k → s.Admits u false t x0 c ps k ∧ k.runs = k0.runs ∧ k.waitFor = k0.waitFor :=
    fun u k hk => by
      obtain ⟨h1, h2, h3, h4, h5⟩ := admits_of_enters (s := s.quiet) (ps := ps) hk
      exact ⟨⟨h1, h2, h3, h4, h5⟩, by rw [hk.same], by rw [hk.same]⟩
  by_cases hw : k0.waitFor = []
  · obtain ⟨k, hk, hst, _, hd⟩ := enterTable_active (op := .read) hf hw rfl nofun hr (.inl ⟨rfl, rfl⟩)
    obtain ⟨h1, h2, h3⟩ := admits _ _ hk
    refine ⟨_, k, hexec, h1, ⟨fun _ => ⟨hst, fun r' hr' => ?_⟩, fun hn => absurd (h3.trans hw) hn⟩, h2.trans hruns⟩
    rw [h2, hr] at hr'
    obtain rfl := Option.some.inj hr'
    rw [hd, hvq]; rfl
  · obtain ⟨hk, hd, hb⟩ := enterTable_waits hf hw
    obtain ⟨h1, h2, h3⟩ := admits _ _ hk
    refine ⟨_, _, hexec, h1, ⟨fun hn => absurd hn hw, fun _ => ⟨rfl, ?_, ?_⟩⟩, h2.trans hruns⟩
    · rw [hd, hvq]; rfl
    · rw [hb, hvq]; rfl

/-- Settles O27: the general admission, and that a READ in one extent has one piece. -/
theorem titleReadAdmitted : Obligations.TitleReadAdmitted := by
  refine ⟨fun s t x0 c htakes htag _ h1 h2 hb => ?_,
    fun s t x0 c e htakes htag hmap he h1 h2 hlo hhi hb hm hh hp hk hr hx => ?_⟩
  · intro ps hlen hu ho
    obtain ⟨u, k, hexec, ha, hbeg, hruns⟩ := readAdmitted ⟨htakes, htag, h1, h2, hb⟩ hlen hu fun p hp o hpo => by
      obtain ⟨a1, a2, a3, _, a5, a6⟩ := ho p hp o hpo
      exact ⟨a1, a2, a3, a6, a5⟩
    refine ⟨u, k, hexec, ha.cmd, by rw [ha.same]; rfl, by rw [ha.same]; rfl, by rw [ha.same]; rfl,
      by rw [ha.same]; rfl, hruns, ha.slots, ha.mon, ha.map, fun w => ?_, hbeg.now, hbeg.later⟩
    rw [ha.waits]
    simp only [true_implies]
    exact Iff.rfl
  · have hps : cutPieces 5 s.map x0 (x0 + c) = [pieceIn e x0 c] := cutPieces_one hmap.sorted he h1 hlo hhi
    obtain ⟨u, k, hexec, ha, hbeg, hruns⟩ := readAdmitted ⟨htakes, htag, h1, h2, hb⟩ (by rw [hps]; exact Nat.le_of_ble_eq_true rfl)
      (fun p hp hn => by rw [hps, List.mem_singleton] at hp; subst hp; cases hn) fun p hp' o hpo => by
        rw [hps, List.mem_singleton] at hp'
        subst hp'
        obtain rfl := Option.some.inj hpo
        exact ⟨hm, hh, hp, hx, hr⟩
    rw [hps] at ha hruns
    obtain ⟨hs1, hs2⟩ := ha.slots_pieceIn
    refine ⟨u, k, hexec, ha.cmd, by rw [ha.same]; rfl, by rw [ha.same]; rfl, by rw [ha.same]; rfl,
      by rw [ha.same]; rfl, hruns.trans (runsOver_pieceIn e x0 c h1), hs1, hs2, ha.mon, ha.map, fun w => ?_, hbeg.now,
      hbeg.later⟩
    rw [ha.waits]
    simp only [true_implies, piecesMeet_pieceIn]

end Sys2Proof.Machine
end

section
/-!
SUPPORT, and O28. The merge list of a WRITE, and its admission (R79, R96 to R99, R105).
-/

namespace Sys2Proof.Machine

/-! ### The merge list (R96 to R98) -/

/-- The merge entry of a protected unit as admission makes it. -/
def Cmd.entryOf (c : Cmd) (u : Nat) (o : Owned) : MergeEntry :=
  { unit := u, lo := c.hostLo u, hi := c.hostHi u, base := o.baseOf u, tweak := o.tweak u, gen := o.gen,
    state := if o.baseOf u = .read then .pending else .zero }

theorem mergeEntry_some {c : Cmd} {u : Nat} {o : Owned} (h : c.ownedOf u = some o) : c.mergeEntry u = [c.entryOf u o] := by
  unfold Cmd.mergeEntry; rw [h]; rfl

/-- Each merge unit has one entry. -/
theorem mergeList_units (c : Cmd) : c.mergeList.map (·.unit) =
    (if c.headMerges then [c.firstUnit] else []) ++ (if c.tailMerges then [c.lastUnit] else []) := by
  have entry : ∀ u, (c.ownedOf u).isSome = true → (c.mergeEntry u).map (·.unit) = [u] := fun u h => by
    obtain ⟨o, ho⟩ := Option.isSome_iff_exists.mp h
    rw [mergeEntry_some ho]; rfl
  unfold Cmd.mergeList
  rw [List.map_append]
  congr 1
  · split
    · rename_i h
      unfold Cmd.headMerges at h
      exact entry _ (Bool.and_eq_true_iff.mp h).1
    · rfl
  · split
    · rename_i h
      unfold Cmd.tailMerges at h
      exact entry _ (Bool.and_eq_true_iff.mp (Bool.and_eq_true_iff.mp h).1).2
    · rfl

theorem mergeList_nodup (c : Cmd) : (c.mergeList.map (·.unit)).Nodup := by
  rw [mergeList_units]
  split <;> split
  · rename_i h
    unfold Cmd.tailMerges at h
    have hne : c.firstUnit ≠ c.lastUnit := by
      simpa using (Bool.and_eq_true_iff.mp (Bool.and_eq_true_iff.mp h).1).1
    simp [hne]
  all_goals simp

theorem mem_mergeList {c : Cmd} {m : MergeEntry} (h : m ∈ c.mergeList) :
    ∃ o, c.ownedOf m.unit = some o ∧ m = c.entryOf m.unit o := by
  have entry : ∀ u, m ∈ c.mergeEntry u → ∃ o, c.ownedOf m.unit = some o ∧ m = c.entryOf m.unit o := fun u hm => by
    cases ho : c.ownedOf u with
    | none => unfold Cmd.mergeEntry at hm; rw [ho] at hm; exact absurd hm List.not_mem_nil
    | some o =>
      rw [mergeEntry_some ho, List.mem_singleton] at hm
      rw [hm]; exact ⟨o, ho, rfl⟩
  unfold Cmd.mergeList at h
  rcases List.mem_append.mp h with h | h
  all_goals
    split at h
    · exact entry _ h
    · exact absurd h List.not_mem_nil

/-! ### The pieces of the first and the last unit (R43) -/

theorem InRow.lt_last : ∀ {ps : List Piece} {x stop : Nat}, InRow x stop ps → ps ≠ [] → x < stop
  | [], _, _, _, h => absurd rfl h
  | p :: ps, x, stop, ⟨h1, h2, h3, _⟩, _ => by omega

theorem holdsUnit_iff {p : Piece} {u : Nat} : (decide (p.firstUnit ≤ u) && decide (u ≤ p.lastUnit)) = true ↔
    p.lba / 8 ≤ u ∧ u ≤ (p.lba + p.count - 1) / 8 := by
  rw [Bool.and_eq_true, decide_eq_true_eq, decide_eq_true_eq]; rfl

theorem pieceOf_first {c : Cmd} (h : InRow c.lba (c.lba + c.count) c.pieces) :
    c.pieceOf c.firstUnit = c.pieces.head? := by
  unfold Cmd.pieceOf Cmd.firstUnit
  cases hp : c.pieces with
  | nil => rfl
  | cons p ps =>
    rw [hp] at h
    obtain ⟨h1, h2, _⟩ := h
    refine List.find?_cons_of_pos (holdsUnit_iff.mpr ?_)
    unfold unitOf
    omega

theorem find?_lastUnit : ∀ {ps : List Piece} {x stop : Nat}, InRow x stop ps →
    (ps.find? fun p => decide (p.firstUnit ≤ unitOf (stop - 1)) && decide (unitOf (stop - 1) ≤ p.lastUnit)) = ps.getLast?
  | [], _, _, _ => rfl
  | [p], x, stop, ⟨h1, h2, h3, _, h5⟩ => by
    have hstop : p.lba + p.count = stop := h5
    refine List.find?_cons_of_pos (holdsUnit_iff.mpr ?_)
    unfold unitOf
    omega
  | p :: q :: ps, x, stop, ⟨h1, h2, h3, h4, h5⟩ => by
    have h8 := h4 (List.cons_ne_nil _ _)
    have hlt := h5.lt_last (List.cons_ne_nil _ _)
    rw [List.find?_cons_of_neg, find?_lastUnit h5, List.getLast?_cons_cons]
    rw [holdsUnit_iff]
    unfold unitOf
    omega

theorem pieceOf_last {c : Cmd} (h : InRow c.lba (c.lba + c.count) c.pieces) :
    c.pieceOf c.lastUnit = c.pieces.getLast? := find?_lastUnit h

/-- The merge units of a WRITE whose pieces are in a row, the first and the last of them protected or not (R96). -/
theorem mergeList_units_row {c : Cmd} (h : InRow c.lba (c.lba + c.count) c.pieces) {p q : Bool}
    (hp : (c.pieces.head?.bind (·.owned)).isSome = p) (hq : (c.pieces.getLast?.bind (·.owned)).isSome = q) :
    c.mergeList.map (·.unit) =
      (if p ∧ (c.lba % 8 ≠ 0 ∨ (c.firstUnit = c.lastUnit ∧ (c.lba + c.count) % 8 ≠ 0)) then [c.firstUnit] else []) ++
      if q ∧ c.firstUnit ≠ c.lastUnit ∧ (c.lba + c.count) % 8 ≠ 0 then [c.lastUnit] else [] := by
  rw [mergeList_units]
  unfold Cmd.headMerges Cmd.tailMerges Cmd.ownedOf
  rw [pieceOf_first h, pieceOf_last h, hp, hq]
  congr 2
  · simp
  · simp only [Bool.and_eq_true, decide_eq_true_eq, eq_iff_iff]
    tauto

theorem pieceOf_some {c : Cmd} {u : Nat} {p : Piece} (h : c.pieceOf u = some p) :
    p ∈ c.pieces ∧ p.lba / 8 ≤ u ∧ u ≤ (p.lba + p.count - 1) / 8 := by
  unfold Cmd.pieceOf at h
  exact ⟨List.mem_of_find?_eq_some h, holdsUnit_iff.mp (by simpa using List.find?_some h)⟩

theorem inRow_taken (s : State) : ∀ {ps : List Piece} {x stop : Nat}, InRow x stop ps → InRow x stop (ps.map s.taken)
  | [], _, _, h => h
  | _ :: ps, _, _, ⟨h1, h2, h3, h4, h5⟩ =>
    ⟨h1, h2, h3, fun e => h4 fun e' => e (by rw [e', List.map_nil]), inRow_taken s h5⟩

theorem whole_taken (s : State) (ps : List Piece) : (ps.map s.taken).map Piece.whole = ps.map Piece.whole := by
  rw [List.map_map]
  refine List.map_congr_left fun p _ => ?_
  unfold State.taken Piece.whole Piece.lo Piece.hi
  simp

/-! ### What an admitted WRITE does first (R98, R99, R105) -/

/-- What an admitted WRITE waits for, reads back, or sends to the drive: d is the command as it enters the table. -/
structure State.WriteBegins (s u : State) (d k : Cmd) : Prop where
  later : k.waitFor ≠ [] → k.state = .waitOverlap ∧ u.drive = s.drive ∧ u.buffer = s.buffer ∧ k.merges = d.merges
  merge : k.waitFor = [] → ∀ e, d.nextMerge = some e → k.state = .mergeRead ∧ u.buffer = s.buffer ∧
    k.merges = (d.setMerge e.unit .reading).merges ∧
    u.drive = s.drive.queued { who := .host d.tag, op := .mergeRead, lba := 8 * e.unit, count := 8 }
  now : k.waitFor = [] → d.nextMerge = none → k.state = .active ∧ k.merges = d.merges ∧ ∀ r, k.runs.head? = some r →
    u.drive = s.drive.queued { who := .host d.tag, op := .write, lba := r.lba, count := r.len }

theorem enterTable_write {s : State} {d : Cmd} (hf : s.fresh d.tag) (hs : d.waitStores = []) (hst : d.state ≠ .failed)
    (hk : d.kind = .write) (hr : ∃ r, d.runs.head? = some r) :
    ∃ k, s.Enters (enterTable d s) d k ∧ s.WriteBegins (enterTable d s) d k := by
  by_cases hw : d.waitFor = []
  · cases hn : d.nextMerge with
    | none =>
      obtain ⟨r, hr⟩ := hr
      obtain ⟨k, h, h1, h2, h3⟩ := enterTable_active (op := .write) hf hw hs hst hr (.inr ⟨hk, rfl, hn⟩)
      have hkw : k.waitFor = d.waitFor := by rw [h.same]
      have hkr : k.runs = d.runs := by rw [h.same]
      refine ⟨k, h, fun e => absurd (hkw.trans hw) e, fun _ e he => ?_, fun _ _ => ⟨h1, h2, fun r' hr' => ?_⟩⟩
      · rw [hn] at he; cases he
      · rw [hkr, hr] at hr'
        obtain rfl := Option.some.inj hr'
        exact h3
    | some e =>
      obtain ⟨h, h1, h2⟩ := enterTable_merges hf hw hs hst hk hn
      refine ⟨_, h, fun e => absurd hw e, fun _ e' he' => ?_, fun _ he => ?_⟩
      · rw [hn] at he'
        obtain rfl := Option.some.inj he'
        exact ⟨rfl, h2, rfl, h1⟩
      · rw [hn] at he; cases he
  · obtain ⟨h, h1, h2⟩ := enterTable_waits hf hw
    exact ⟨_, h, fun _ => ⟨rfl, h1, h2, rfl⟩, fun e => absurd e hw, fun e => absurd e hw⟩

/-- The merge entries keep all but their state. -/
theorem State.WriteBegins.merges {s u : State} {d k : Cmd} (h : s.WriteBegins u d k) :
    k.merges.map (·.unit) = d.merges.map (·.unit) ∧
      ∀ m ∈ k.merges, ∃ e ∈ d.merges, ∃ st, m = { e with state := st } := by
  have same : k.merges = d.merges → k.merges.map (·.unit) = d.merges.map (·.unit) ∧
      ∀ m ∈ k.merges, ∃ e ∈ d.merges, ∃ st, m = { e with state := st } := fun e =>
    ⟨by rw [e], fun m hm => ⟨m, e ▸ hm, m.state, rfl⟩⟩
  by_cases hw : k.waitFor = []
  · cases hn : d.nextMerge with
    | none => exact same (h.now hw hn).2.1
    | some e =>
      obtain ⟨_, _, hm, _⟩ := h.merge hw e hn
      rw [hm]
      refine ⟨?_, fun m hm' => ?_⟩
      · unfold Cmd.setMerge
        rw [List.map_map]
        refine List.map_congr_left fun x _ => ?_
        simp only [Function.comp_apply]
        split <;> rfl
      · obtain ⟨x, hx, rfl⟩ := List.mem_map.mp hm'
        refine ⟨x, hx, ?_⟩
        split <;> exact ⟨_, rfl⟩
  · exact same (h.later hw).2.2.2

/-- A WRITE of recordings and of unclaimed sectors is admitted. -/
theorem writeAdmitted {s : State} {t : HostTag} {x0 c : Nat} (h : s.TakesData t x0 c)
    (hlen : (cutPieces 5 s.map x0 (x0 + c)).length ≤ 4)
    (hu : ∀ p ∈ cutPieces 5 s.map x0 (x0 + c), p.owned = none → s.win.writePolicy = .pass)
    (ho : ∀ p ∈ cutPieces 5 s.map x0 (x0 + c), ∀ o, p.owned = some o → s.mon.state ≠ .lockdown ∧
      (s.slot o.slot).halted = false ∧ (s.slot o.slot).phase = .active ∧
      (s.slot o.slot).state = some .recording ∧ (s.slot o.slot).ring = none) :
    let ps := cutPieces 5 s.map x0 (x0 + c)
    InRow x0 (x0 + c) ps ∧ (∀ p ∈ ps, ∀ o, p.owned = some o → o.laps = none) ∧
    ∃ u k, exec (.hostWrite t x0 c) s = .next (pump u) ∧ s.Admits u true t x0 c ps k ∧
      s.WriteBegins u (s.dataCmd true t x0 c (ps.map s.taken)) k ∧
      k.runs = runsOver (driveSpan ps).1 (driveSpan ps).2 := by
  intro ps
  have hrow : InRow x0 (x0 + c) ps := inRow_cutPieces _ _ 5 x0 (by omega) (by omega)
  have hne : ps ≠ [] := by
    intro e; rw [e] at hrow
    have : x0 = x0 + c := hrow
    have := h.some
    omega
  refine ⟨hrow, laps_cutPieces (map := s.map) (stop := x0 + c) (n := 5) (x := x0), ?_⟩
  set d := s.dataCmd true t x0 c (ps.map s.taken) with hd
  set v := (ps.map s.taken).foldl (fun s p => raiseFlight p s) s.quiet with hv
  have hvq : v = { s.quiet with slots := v.slots } := (raiseAll_spec (ps.map s.taken) s.quiet).2
  have hruns : d.runs = runsOver (driveSpan ps).1 (driveSpan ps).2 := by
    show runsOf true (ps.map s.taken) = _
    rw [runsOf_write, whole_taken, runs_inRow hrow hne]
  have hexec : exec (.hostWrite t x0 c) s = .next (pump (enterTable d v)) := by
    rw [exec_hostWrite h]
    refine congrArg (fun z => Host.Outcome.next (pump z)) ?_
    exact admitBelow_passes (s := s.quiet) hlen hu fun p hp o hpo => by
      obtain ⟨h1, h2, h3, h4, h5⟩ := ho p hp o hpo
      exact ⟨h1, h2, h3, fun _ => h4, nofun, h5⟩
  have hf : v.fresh d.tag := by
    intro x hx
    rw [hvq] at hx
    exact fresh_of_tagTest h.tag x hx
  obtain ⟨k, hk, hb⟩ := enterTable_write hf rfl nofun rfl (by rw [hruns]; exact runsOver_head _ _)
  obtain ⟨h1, h2, h3, h4, h5⟩ := admits_of_enters (s := s.quiet) (ps := ps) hk
  have hvd : v.drive = s.drive := by rw [hvq]; rfl
  have hvb : v.buffer = s.buffer := by rw [hvq]; rfl
  refine ⟨_, k, hexec, ⟨h1, h2, h3, h4, h5⟩, ?_, by rw [hk.same]; exact hruns⟩
  obtain ⟨b1, b2, b3⟩ := hb
  rw [hvd, hvb] at b1 b2
  rw [hvd] at b3
  exact ⟨b1, b2, b3⟩

/-! ### The merge list of a WRITE of recordings -/

theorem isSome_owned_taken (s : State) (q : Option Piece) :
    ((q.map s.taken).bind (·.owned)).isSome = (q.bind (·.owned)).isSome := by
  cases q with
  | none => rfl
  | some p => simp [State.taken]

/-- The units and the entries of the merge list (R96 to R98). -/
theorem titleMerges {s : State} {t : HostTag} {x0 c : Nat} {ps : List Piece} (hrow : InRow x0 (x0 + c) ps)
    (hlaps : ∀ p ∈ ps, ∀ o, p.owned = some o → o.laps = none) :
    let d := s.dataCmd true t x0 c (ps.map s.taken)
    let a := x0 / 8
    let b := (x0 + c - 1) / 8
    d.merges.map (·.unit) =
      ((if (ps.head?.bind (·.owned)).isSome ∧ (x0 % 8 ≠ 0 ∨ (a = b ∧ (x0 + c) % 8 ≠ 0)) then [a] else []) ++
        if (ps.getLast?.bind (·.owned)).isSome ∧ a ≠ b ∧ (x0 + c) % 8 ≠ 0 then [b] else []) ∧
    ∀ e ∈ d.merges, e.base = .read ∧ e.state = .pending ∧ e.lo = (if e.unit = a then x0 % 8 else 0) ∧
      e.hi = (if e.unit = b then (x0 + c - 1) % 8 else 7) ∧
      ∃ p ∈ ps.map s.taken, ∃ o, p.owned = some o ∧ p.lba / 8 ≤ e.unit ∧ e.unit ≤ (p.lba + p.count - 1) / 8 ∧
        e.gen = o.gen ∧ e.tweak = { title := o.title, seq := 0, unit := o.first + (e.unit - o.extStart) } := by
  intro d a b
  have hmerges : d.merges = d.mergeList := rfl
  refine ⟨?_, fun e he => ?_⟩
  · exact mergeList_units_row (c := d) (inRow_taken s hrow) (p := (ps.head?.bind (·.owned)).isSome)
      (q := (ps.getLast?.bind (·.owned)).isSome)
      (by rw [show d.pieces = ps.map s.taken from rfl, List.head?_map, isSome_owned_taken])
      (by rw [show d.pieces = ps.map s.taken from rfl, List.getLast?_map, isSome_owned_taken])
  · obtain ⟨o, ho, heq⟩ := mem_mergeList (hmerges ▸ he)
    obtain ⟨p, hp, hpo⟩ := Option.bind_eq_some_iff.mp ho
    obtain ⟨hmem, hunit⟩ := pieceOf_some hp
    have hol : o.laps = none := by
      obtain ⟨q, hq, rfl⟩ := List.mem_map.mp (show p ∈ ps.map s.taken from hmem)
      obtain ⟨o', ho', rfl⟩ := Option.map_eq_some_iff.mp hpo
      exact hlaps q hq o' ho'
    have hbase : o.baseOf e.unit = .read := by unfold Owned.baseOf; rw [hol]
    have htweak : o.tweak e.unit = { title := o.title, seq := 0, unit := o.first + (e.unit - o.extStart) } := by
      unfold Owned.tweak; rw [hol]
    refine ⟨?_, ?_, ?_, ?_, p, hmem, o, hpo, hunit.1, hunit.2, ?_, ?_⟩
    · rw [heq]; exact hbase
    · rw [heq]; exact if_pos hbase
    · rw [heq]; rfl
    · rw [heq]; rfl
    · rw [heq]; rfl
    · rw [heq]; exact htweak

/-- What a WRITE does first whose merge units are all to be read back (R98, R99). -/
theorem State.WriteBegins.pending {s u : State} {d k : Cmd} (h : s.WriteBegins u d k)
    (hp : ∀ e ∈ d.merges, e.state = .pending) :
    (k.waitFor ≠ [] → k.state = .waitOverlap ∧ u.drive = s.drive ∧ u.buffer = s.buffer ∧
      ∀ m ∈ k.merges, m.state = .pending) ∧
    (k.waitFor = [] → ∀ v, (d.merges.map (·.unit)).head? = some v → k.state = .mergeRead ∧ u.buffer = s.buffer ∧
      (∀ m ∈ k.merges, m.state = if m.unit = v then .reading else .pending) ∧
      u.drive = s.drive.queued { who := .host d.tag, op := .mergeRead, lba := 8 * v, count := 8 }) ∧
    (k.waitFor = [] → d.merges.map (·.unit) = [] → k.state = .active ∧ ∀ r, k.runs.head? = some r →
      u.drive = s.drive.queued { who := .host d.tag, op := .write, lba := r.lba, count := r.len }) := by
  refine ⟨fun hw => ?_, fun hw v hv => ?_, fun hw hn => ?_⟩
  · obtain ⟨h1, h2, h3, h4⟩ := h.later hw
    exact ⟨h1, h2, h3, fun m hm => hp m (h4 ▸ hm)⟩
  · rw [List.head?_map] at hv
    obtain ⟨e, he, rfl⟩ := Option.map_eq_some_iff.mp hv
    obtain ⟨es, hes⟩ : ∃ es, d.merges = e :: es := by
      cases hm : d.merges with
      | nil => rw [hm] at he; cases he
      | cons x xs => rw [hm] at he; obtain rfl := Option.some.inj he; exact ⟨xs, rfl⟩
    have hnext : d.nextMerge = some e := by
      unfold Cmd.nextMerge
      rw [hes]
      exact List.find?_cons_of_pos (decide_eq_true (hp e (by rw [hes]; exact List.mem_cons_self)))
    obtain ⟨h1, h2, h3, h4⟩ := h.merge hw e hnext
    refine ⟨h1, h2, fun m hm => ?_, h4⟩
    rw [h3] at hm
    obtain ⟨x, hx, rfl⟩ := List.mem_map.mp hm
    by_cases hxu : x.unit = e.unit
    · rw [if_pos hxu]; exact (if_pos hxu).symm
    · rw [if_neg hxu, if_neg hxu]; exact hp x hx
  · have hnil : d.merges = [] := List.map_eq_nil_iff.mp hn
    obtain ⟨h1, _, h2⟩ := h.now hw (by unfold Cmd.nextMerge; rw [hnil]; rfl)
    exact ⟨h1, h2⟩

/-- Settles O28: the general admission, and that a WRITE in one extent has one piece. -/
theorem titleWriteAdmitted : Obligations.TitleWriteAdmitted := by
  refine ⟨fun s t x0 c htakes htag _ h1 h2 hb => ?_,
    fun s t x0 c e htakes htag hmap he h1 h2 hlo hhi hb hm hh hp hs hr => ?_⟩
  · intro ps a b protect head tail hlen hu ho
    obtain ⟨hrow, hlaps, u, k, hexec, ha, hbeg, hruns⟩ := writeAdmitted ⟨htakes, htag, h1, h2, hb⟩ hlen hu ho
    obtain ⟨hunits, hentry⟩ := titleMerges (s := s) (t := t) hrow hlaps
    obtain ⟨hkunits, hkmem⟩ := hbeg.merges
    obtain ⟨b1, b2, b3⟩ := hbeg.pending fun e he => (hentry e he).2.1
    have hht : (s.dataCmd true t x0 c (ps.map s.taken)).merges.map (·.unit) = head ++ tail := hunits
    rw [hht] at b2 b3
    refine ⟨u, k, hexec, ha.cmd, by rw [ha.same]; rfl, by rw [ha.same]; rfl, by rw [ha.same]; rfl,
      by rw [ha.same]; rfl, hruns, hkunits.trans hht, fun m hm => ?_, ha.slots, ha.mon, ha.map, fun w => ?_, b1, b2, b3⟩
    · obtain ⟨e, he, st, rfl⟩ := hkmem m hm
      obtain ⟨e1, _, e2, e3, e4⟩ := hentry e he
      refine ⟨e1, e2, e3, ?_⟩
      rw [ha.same]; exact e4
    · rw [ha.waits]; simp only [Bool.true_eq_false, false_implies, true_and]; exact Iff.rfl
  · have hps : cutPieces 5 s.map x0 (x0 + c) = [pieceIn e x0 c] := cutPieces_one hmap.sorted he h1 hlo hhi
    intro a b head tail
    obtain ⟨hrow, hlaps, u, k, hexec, ha, hbeg, hruns⟩ := writeAdmitted ⟨htakes, htag, h1, h2, hb⟩
      (by rw [hps]; exact Nat.le_of_ble_eq_true rfl)
      (fun p hp hn => by rw [hps, List.mem_singleton] at hp; subst hp; cases hn) fun p hp' o hpo => by
        rw [hps, List.mem_singleton] at hp'
        subst hp'
        obtain rfl := Option.some.inj hpo
        exact ⟨hm, hh, hp, hs, hr⟩
    rw [hps] at hrow hlaps ha hbeg hruns
    obtain ⟨hunits, hentry⟩ := titleMerges (s := s) (t := t) hrow hlaps
    obtain ⟨hkunits, hkmem⟩ := hbeg.merges
    obtain ⟨b1, b2, b3⟩ := hbeg.pending fun e he => (hentry e he).2.1
    have hht : (s.dataCmd true t x0 c ([pieceIn e x0 c].map s.taken)).merges.map (·.unit) = head ++ tail := by
      have hfirst : ([pieceIn e x0 c].head?.bind (·.owned)).isSome = true := rfl
      have hlast : ([pieceIn e x0 c].getLast?.bind (·.owned)).isSome = true := rfl
      rw [hunits]
      simp only [hfirst, hlast, true_and]
      rfl
    obtain ⟨hs1, hs2⟩ := ha.slots_pieceIn
    rw [hht] at b2 b3
    refine ⟨u, k, hexec, ha.cmd, by rw [ha.same]; rfl, by rw [ha.same]; rfl, by rw [ha.same]; rfl,
      by rw [ha.same]; rfl, hruns.trans (runsOver_pieceIn e x0 c h1), hkunits.trans hht, fun m hm => ?_, hs1, hs2, ha.mon,
      ha.map, fun w => ?_, b1, b2, b3⟩
    · obtain ⟨x, hx, st, rfl⟩ := hkmem m hm
      obtain ⟨e1, _, e2, e3, p, hp, o, hpo, _, _, e4, e5⟩ := hentry x hx
      rw [List.map_singleton, List.mem_singleton] at hp
      subst hp
      obtain rfl := Option.some.inj hpo
      exact ⟨e1, e2, e3, e4, e5⟩
    · rw [ha.waits]; simp only [Bool.true_eq_false, false_implies, true_and, piecesMeet_pieceIn]; rfl

end Sys2Proof.Machine
end

section
/-!
SUPPORT, and O31. The admission of a WRITE of a ring: the ring test and its trial copy, the rekey, the merge list with its
ZERO bases, the refusals, and the end of a piece (R16, R17, R19, R51, R54 to R58, R77, R97, R98, R177 to R183, R189).
-/

namespace Sys2Proof.Machine

/-! ### Violations and refusals (R77, R179, R189) -/

/-- `u` is `s` but for halted flags of slots. -/
structure HaltsOnly (s u : State) : Prop where
  rest : u = { s with slots := u.slots }
  slots : ∀ i, u.slot i = { s.slot i with halted := (u.slot i).halted }

theorem HaltsOnly.trans {s u v : State} (h1 : HaltsOnly s u) (h2 : HaltsOnly u v) : HaltsOnly s v :=
  ⟨h2.rest.trans (congrArg (fun z : State => { z with slots := v.slots }) h1.rest),
   fun i => (h2.slots i).trans (congrArg (fun z : TitleSlot => { z with halted := (v.slot i).halted }) (h1.slots i))⟩

theorem haltsOnly_modSlot (s : State) (j : SlotIx) :
    HaltsOnly s (s.modSlot j fun t => { t with halted := true }) := by
  refine ⟨rfl, fun i => ?_⟩
  by_cases h : i = j
  · subst h; rw [State.slot_modSlot_same]
  · rw [State.slot_modSlot_other _ _ _ _ h]

theorem haltsOnly_haltSlots (named : List SlotIx) (s : State) : HaltsOnly s (haltSlots named s) := by
  unfold haltSlots
  induction named generalizing s with
  | nil => exact ⟨rfl, fun _ => rfl⟩
  | cons j l ih =>
    rw [List.foldl_cons]
    refine HaltsOnly.trans ?_ (ih _)
    split
    · exact ⟨rfl, fun _ => rfl⟩
    · exact haltsOnly_modSlot s j

/-- What a violation leaves: the counters, the monitor's state, halted flags and event flags are all it changes. -/
structure Violated (s u : State) : Prop where
  rest : u = { s with mon := u.mon, slots := u.slots, win := { s.win with flags := u.win.flags } }
  settings : u.mon.reactions = s.mon.reactions ∧ u.mon.window = s.mon.window ∧ u.mon.refusal = s.mon.refusal
  slots : ∀ i, u.slot i = { s.slot i with halted := (u.slot i).halted }

theorem violated_violate (k : Violation) (named : List SlotIx) (s : State) : Violated s (violate k named s) := by
  unfold violate
  dsimp only
  split
  · exact ⟨rfl, ⟨rfl, rfl, rfl⟩, fun _ => rfl⟩
  · obtain ⟨h1, h2⟩ := haltsOnly_haltSlots named { s with mon := s.mon.count k }
    refine ⟨?_, ⟨?_, ?_, ?_⟩, h2⟩
    · conv_lhs => rw [h1]
      rw [h1]
    all_goals rw [h1]; rfl
  · unfold alarmReaction
    split
    · exact ⟨rfl, ⟨rfl, rfl, rfl⟩, fun _ => rfl⟩
    · split <;> exact ⟨rfl, ⟨rfl, rfl, rfl⟩, fun _ => rfl⟩
    · exact ⟨rfl, ⟨rfl, rfl, rfl⟩, fun _ => rfl⟩
  · unfold faultReaction
    split <;> exact ⟨rfl, ⟨rfl, rfl, rfl⟩, fun _ => rfl⟩

/-- A refusal: the completion, the record and the violation. -/
theorem refuses_refuse (t : HostTag) (lba count : Nat) (r : Reason) (named : List SlotIx) (s : State) :
    s.Refuses (refuse t lba count r named s) t lba count r := by
  set v : State := { completionDue { tag := t, ending := .refused } s with
    mon := { s.mon with
      refusal := some { tag := t, lba := lba, count := count, reason := r, number := s.nextRefusal } } } with hv
  have heq : refuse t lba count r named s = match r.violation with | some k => violate k named v | none => v := rfl
  cases hk : r.violation with
  | none =>
    rw [heq, hk]
    exact ⟨rfl, rfl, fun k => by rw [hk]; rfl, ⟨rfl, rfl⟩, fun _ => rfl, rfl, rfl⟩
  | some k =>
    rw [heq, hk]
    dsimp only
    obtain ⟨h1, ⟨h2, h3, h4⟩, h5⟩ := violated_violate k named v
    have hc := violate_counters k named v
    generalize violate k named v = u at *
    refine ⟨by rw [h1]; rfl, by rw [h4], fun j => ?_, ⟨h2, h3⟩, h5, by rw [h1]; rfl, by rw [h1]; rfl⟩
    rw [hc, hk, Option.map_some]
    show (s.mon.counters.set k.ix (min Config.maxCount16 (s.mon.counters[k.ix] + 1)))[j] = _
    by_cases hj : k.ix = j
    · subst hj
      rw [if_pos rfl]
      exact Vector.getElem_set_self _
    · rw [if_neg fun e => hj (Option.some.inj e)]
      exact Vector.getElem_set_ne k.ix.isLt j.isLt fun e => hj (Fin.ext e)

/-! ### Tweaks and the end of a piece (R16, R19, R40, R51) -/

theorem find?_of_first {before after : List LapEntry} {l : LapEntry} {n : Nat} (hl : l.seg = n)
    (hb : ∀ x ∈ before, x.seg ≠ l.seg) :
    (before ++ l :: after).find? (fun e => decide (e.seg = n)) = some l := by
  refine List.find?_eq_some_iff_append.mpr ⟨decide_eq_true hl, before, after, rfl, fun x hx => ?_⟩
  simpa [hl] using hb x hx

theorem tweak_ring {o : Owned} {u : Nat} {laps : List LapEntry} {l : LapEntry} (ho : o.laps = some laps)
    (hf : laps.find? (fun e => decide (e.seg = o.segOf u)) = some l) :
    o.tweak u = { title := o.title, seq := l.lap, unit := u - o.extStart } := by
  unfold Owned.tweak lapOf; rw [ho]; dsimp only; rw [hf]

theorem baseOf_ring {o : Owned} {u : Nat} {laps : List LapEntry} {l : LapEntry} (ho : o.laps = some laps)
    (hf : laps.find? (fun e => decide (e.seg = o.segOf u)) = some l) :
    o.baseOf u = if l.started then .zero else .read := by
  unfold Owned.baseOf; rw [ho]; dsimp only; rw [hf]

theorem endPiece_stays {s : State} {p : Piece} {o : Owned} (hp : p.owned = some o)
    (h : (s.slot o.slot).phase ≠ .draining ∨ 1 < (s.slot o.slot).inFlight ∨ (s.slot o.slot).storeInFlight = true) :
    endPiece p s = s.setSlot o.slot ((s.slot o.slot).pieceEnds o.gen) := by
  have hphase : ((s.slot o.slot).pieceEnds o.gen).phase = (s.slot o.slot).phase ∧
      ((s.slot o.slot).pieceEnds o.gen).inFlight = (s.slot o.slot).inFlight - 1 ∧
      ((s.slot o.slot).pieceEnds o.gen).storeInFlight = (s.slot o.slot).storeInFlight := by
    unfold TitleSlot.pieceEnds
    dsimp only
    split
    · split <;> exact ⟨rfl, rfl, rfl⟩
    · exact ⟨rfl, rfl, rfl⟩
  unfold endPiece
  rw [hp]
  dsimp only
  rw [State.modSlot_eq]
  by_cases hd : (s.slot o.slot).phase ≠ .draining
  · exact drainTest_of_phase (by rw [State.slot_setSlot_same, hphase.1]; exact hd)
  · refine drainTest_stays ?_
    rw [State.slot_setSlot_same, hphase.2.1, hphase.2.2]
    rcases h with h | h | h
    · exact absurd h hd
    · exact .inl (by omega)
    · exact .inr h

theorem pieceEnds_eq (t : TitleSlot) (gen : Nat) : t.pieceEnds gen = { t with
    inFlight := t.inFlight - 1
    retired := match t.retired with
      | none => none
      | some x => if x.gen = gen then (if x.refs ≤ 1 then none else some { x with refs := x.refs - 1 }) else some x } := by
  unfold TitleSlot.pieceEnds
  cases t.retired with
  | none => rfl
  | some x => dsimp only; split <;> rfl

theorem endPiece_leaves {s : State} {p : Piece} {o : Owned} (hp : p.owned = some o)
    (h1 : (s.slot o.slot).phase = .draining) (h2 : (s.slot o.slot).inFlight ≤ 1)
    (h3 : (s.slot o.slot).storeInFlight = false) :
    ((endPiece p s).slot o.slot).phase ≠ .draining ∧ ∀ e ∈ (endPiece p s).map, e.slot ≠ o.slot := by
  have heq : endPiece p s = leaveDraining o.slot (s.setSlot o.slot ((s.slot o.slot).pieceEnds o.gen)) := by
    unfold endPiece
    rw [hp]
    dsimp only
    rw [State.modSlot_eq]
    refine drainTest_leaves ?_ ?_ ?_ <;> rw [State.slot_setSlot_same, pieceEnds_eq]
    · exact h1
    · show (s.slot o.slot).inFlight - 1 = 0
      omega
    · exact h3
  rw [heq]
  exact leaveDraining_left _ _

/-! ### The ring test (R54, R55) -/

theorem touch_laps {t t' : Trial} {k : Nat} {clock : Option Nat} {retired : Bool} (h : t.touch k clock retired = .ok t') :
    t'.laps.map (·.seg) = t.laps.map (·.seg) ++ [k] := by
  have start : ∀ lap, t.start k lap clock retired = .ok t' → t'.laps.map (·.seg) = t.laps.map (·.seg) ++ [k] := by
    intro lap h
    unfold Trial.start at h
    split at h
    · split at h
      · cases h
      · injection h with h; subst h; simp
    · injection h with h; subst h; simp
  unfold Trial.touch at h
  split at h
  · exact start _ h
  · split at h
    · injection h with h; subst h; simp
    · split at h
      · exact start _ h
      · cases h

/-- The lap list of a test names the segments tested, in order. -/
theorem ringTest_laps {clock : Option Nat} {retired : Bool} : ∀ {ks : List Nat} {t t' : Trial},
    ringTest clock retired ks t = .ok t' → t'.laps.map (·.seg) = t.laps.map (·.seg) ++ ks
  | [], _, _, h => by injection h with h; subst h; simp
  | k :: ks, t, t', h => by
    unfold ringTest at h
    split at h
    · cases h
    · rename_i t1 h1
      rw [ringTest_laps h, touch_laps h1, List.append_assoc]; rfl

theorem segsTouched_nodup (g a b : Nat) : (segsTouched g a b).Nodup := List.nodup_range' ..

theorem find?_of_nodup {laps : List LapEntry} (h : (laps.map (·.seg)).Nodup) {l : LapEntry} (hl : l ∈ laps) {n : Nat}
    (hn : l.seg = n) : laps.find? (fun e => decide (e.seg = n)) = some l := by
  obtain ⟨as, bs, rfl⟩ := List.append_of_mem hl
  refine find?_of_first hn fun x hx e => ?_
  rw [List.map_append, List.nodup_append] at h
  exact h.2.2 _ (List.mem_map.mpr ⟨x, hx, rfl⟩) _ (List.mem_map.mpr ⟨l, List.mem_cons_self, rfl⟩) e

/-! ### The trial copy takes effect (R17, R56, R57) -/

/-- A slot after the key step of a rekey. -/
def TitleSlot.rekeyedAt (t : TitleSlot) (n : Nat) : TitleSlot :=
  { t with
    retired := match t.key, t.gen with
      | some x, some g => if t.inFlight = 0 then none else some { key := x, gen := g, refs := t.inFlight }
      | _, _ => none
    key := some ⟨n⟩
    gen := some (nextNumber 65535 (t.gen.getD 0)) }

theorem rekeySlot_eq (i : SlotIx) (s : State) :
    rekeySlot i s = ((s.setSlot i ((s.slot i).rekeyedAt s.draws)).drawn).setFlag .ringRekeyed := rfl

/-- The trial copy of a ring test takes effect in slot i between s and v. -/
structure Tried (tr : Trial) (i : SlotIx) (s v : State) : Prop where
  rest : v = { s with slots := v.slots, win := v.win, draws := v.draws }
  others : ∀ j, j ≠ i → v.slot j = s.slot j
  kept : tr.rekeyed = false → v.win = s.win ∧ v.slot i = { s.slot i with ring := some tr.ring }
  rekeyed : tr.rekeyed = true → v.draws = s.draws + 1 ∧ v.hasFlag .ringRekeyed = true ∧
    v.slot i = { (s.slot i).rekeyedAt s.draws with ring := some tr.ring }

theorem tried_applyTrial {x : Tested} {o : Owned} {tr : Trial} (ho : x.piece.owned = some o) (ht : x.trial = some tr)
    (s : State) : Tried tr o.slot s (applyTrial x s) := by
  have heq : applyTrial x s =
      (if tr.rekeyed then rekeySlot o.slot s else s).modSlot o.slot fun t => { t with ring := some tr.ring } := by
    unfold applyTrial; rw [ho, ht]
  rw [heq]
  cases hr : tr.rekeyed
  · rw [if_neg Bool.false_ne_true]
    refine ⟨rfl, fun j hj => State.slot_modSlot_other _ _ _ _ hj, fun _ => ⟨rfl, State.slot_modSlot_same _ _ _⟩, ?_⟩
    rw [hr]; nofun
  · rw [if_pos rfl, rekeySlot_eq]
    refine ⟨rfl, fun j hj => ?_, by rw [hr]; nofun, fun _ => ⟨rfl, ?_, ?_⟩⟩
    · rw [State.slot_modSlot_other _ _ _ _ hj]
      exact State.slot_setSlot_other _ _ _ _ hj
    · exact hasFlag_setFlag _ _
    · rw [State.slot_modSlot_same]
      exact congrArg (fun z : TitleSlot => { z with ring := some tr.ring }) (State.slot_setSlot_same _ _ _)

/-! ### The admission of a write of a ring (R54, R56, R76) -/

/-- A WRITE in one extent of an ACTIVE ring that the host port takes. -/
structure State.TakesRing (s : State) (t : HostTag) (x0 c : Nat) (e : Extent) (r : Ring) : Prop
    extends s.TakesData t x0 c where
  map : s.MapOk
  mem : e ∈ s.map
  lo : 8 * e.start ≤ x0
  hi : x0 + c ≤ 8 * e.stop
  monitor : s.mon.state ≠ .lockdown
  runs : (s.slot e.slot).halted = false
  active : (s.slot e.slot).phase = .active
  recording : (s.slot e.slot).state = Option.some .recording
  ring : (s.slot e.slot).ring = Option.some r

/-- The segments that a WRITE in an extent of a ring touches. -/
def touchedBy (e : Extent) (r : Ring) (x0 c : Nat) : List Nat :=
  segsTouched r.g (x0 / 8 - e.start) ((x0 + c - 1) / 8 - e.start)

/-- The ring test of a WRITE in an extent of a ring. -/
def State.testOf (s : State) (e : Extent) (r : Ring) (x0 c : Nat) :=
  ringTest s.clock (s.slot e.slot).retired.isSome (touchedBy e r x0 c) { ring := r }

/-- The extent, the title and the segments of a piece of a ring. -/
def State.ringOwned (s : State) (e : Extent) (r : Ring) (tr : Trial) (gen : Nat) : Owned :=
  { slot := e.slot, title := (s.slot e.slot).number.getD 0, extStart := e.start, first := e.first, gen := gen,
    g := r.g, laps := some tr.laps }

def ringPiece (x0 c : Nat) (o : Owned) : Piece := { lba := x0, count := c, owned := some o }

/-- The same before the test. -/
def State.untested (s : State) (e : Extent) : Owned :=
  { slot := e.slot, title := (s.slot e.slot).number.getD 0, extStart := e.start, first := e.first }

variable {s : State} {t : HostTag} {x0 c : Nat} {e : Extent} {r : Ring}

theorem testPieces_ring (h : s.TakesRing t x0 c e r) {z : Except Refused Tested}
    (hz : testRing true s.quiet (pieceIn e x0 c) (s.untested e) (s.slot e.slot) r = z) :
    testPieces true s.quiet [pieceIn e x0 c] = z.map fun x => [x] := by
  have hp : testPiece true s.quiet (pieceIn e x0 c) = z := by
    rw [← hz]
    unfold testPiece pieceIn testProtected
    dsimp only
    rw [if_neg (show ¬ s.quiet.mon.state = .lockdown from h.monitor),
      if_neg (Bool.eq_false_iff.mp (show (s.quiet.slot e.slot).halted = false from h.runs)),
      if_neg (show ¬ (s.quiet.slot e.slot).phase ≠ .active from fun g => g h.active),
      if_neg (fun g => g.2 h.recording), if_neg (fun g => nomatch g.1)]
    rw [show (s.quiet.slot e.slot).ring = some r from h.ring]
    rfl
  unfold testPieces
  rw [hp]
  cases z <;> rfl

/-- The tests of a WRITE of a ring decide whether it is refused or admitted. -/
theorem exec_ringWrite (h : s.TakesRing t x0 c e r) {z : Except Refused Tested}
    (hz : testRing true s.quiet (pieceIn e x0 c) (s.untested e) (s.slot e.slot) r = z) :
    (∀ x, z = .error x → exec (.hostWrite t x0 c) s = .next (pump (refuse t x0 c x.reason x.named s.quiet))) ∧
    (∀ x, z = .ok x → exec (.hostWrite t x0 c) s = .next (pump (admitData true t x0 c [x] s.quiet))) := by
  rw [exec_hostWrite h.toTakesData]
  unfold admitBelow
  rw [show cutPieces (Config.maxPieces + 1) s.quiet.map x0 (x0 + c) = [pieceIn e x0 c] from
    cutPieces_one (n := 3) h.map.sorted h.mem h.some h.lo h.hi]
  dsimp only
  rw [if_neg (show ¬ Config.maxPieces < [pieceIn e x0 c].length from nofun), testPieces_ring h hz]
  exact ⟨fun x hx => by rw [hx]; rfl, fun x hx => by rw [hx]; rfl⟩

/-- A WRITE that fails the ring test is refused with the test's reason (R54, R77). -/
theorem ringWrite_refused (h : s.TakesRing t x0 c e r) {x : Reason} (hx : s.testOf e r x0 c = .error x) :
    ∃ u, exec (.hostWrite t x0 c) s = .next (pump u) ∧ s.quiet.Refuses u t x0 c x := by
  have hz : ∃ named, testRing true s.quiet (pieceIn e x0 c) (s.untested e) (s.slot e.slot) r =
      .error { reason := x, named := named } := by
    unfold testRing
    rw [if_pos rfl, show ringTest s.quiet.clock (s.slot e.slot).retired.isSome
      (pieceSegs r (s.untested e) (pieceIn e x0 c)) { ring := r } = .error x from hx]
    cases x <;> exact ⟨_, rfl⟩
  obtain ⟨named, hz⟩ := hz
  exact ⟨_, (exec_ringWrite h hz).1 _ rfl, refuses_refuse _ _ _ _ _ _⟩

/-! ### What a WRITE with ZERO bases does first (R97 to R99) -/

/-- The state of a merge entry that has not been read. -/
def MergeBase.unread (b : MergeBase) : MergeState := if b = .zero then .zero else .pending

/-- The first entry with a base to be read back is read; those of base ZERO stay as they are. -/
theorem State.WriteBegins.reads {s u : State} {d k : Cmd} (h : s.WriteBegins u d k)
    (hp : ∀ m ∈ d.merges, m.state = m.base.unread) (hn : (d.merges.map (·.unit)).Nodup) (hw : k.waitFor = [])
    {before after : List MergeEntry} {m : MergeEntry} (hk : k.merges = before ++ m :: after) (hm : m.base = .read)
    (hb : ∀ x ∈ before, x.base = .zero) :
    k.state = .mergeRead ∧ u.buffer = s.buffer ∧ m.state = .reading ∧ (∀ x ∈ before, x.state = .zero) ∧
      (∀ x ∈ after, x.state = x.base.unread) ∧
      u.drive = s.drive.queued { who := .host d.tag, op := .mergeRead, lba := 8 * m.unit, count := 8 } := by
  have hread : (m.base.unread) = .pending := by rw [hm]; rfl
  cases hnext : d.nextMerge with
  | none =>
    have hd := (h.now hw hnext).2.1 ▸ hk
    have hmem : m ∈ d.merges := by rw [hd]; simp
    exact absurd ((hp m hmem).trans hread) (by simpa using List.find?_eq_none.mp hnext m hmem)
  | some e =>
    obtain ⟨h1, h2, h3, h4⟩ := h.merge hw e hnext
    rw [h3] at hk
    unfold Cmd.setMerge at hk
    obtain ⟨b', r', hd, rfl, hr⟩ := List.map_eq_append_iff.mp hk
    obtain ⟨m', a', rfl, rfl, rfl⟩ := List.map_eq_cons_iff.mp hr
    have base : ∀ x : MergeEntry, (if x.unit = e.unit then { x with state := .reading } else x).base = x.base :=
      fun x => by split <;> rfl
    have hzero : ∀ x ∈ b', x.state = .zero := fun x hx => by
      have hxb := hb _ (List.mem_map.mpr ⟨x, hx, rfl⟩)
      rw [base] at hxb
      rw [hp x (by rw [hd]; simp [hx]), hxb]; rfl
    rw [base] at hm hread
    have hpend : m'.state = .pending := (hp m' (by rw [hd]; simp)).trans hread
    have he : m' = e := by
      have : d.nextMerge = some m' := List.find?_eq_some_iff_append.mpr
        ⟨decide_eq_true hpend, b', a', hd, fun x hx => by simp [hzero x hx]⟩
      exact Option.some.inj (this.symm.trans hnext)
    subst he
    rw [hd, List.map_append, List.map_cons, List.nodup_append, List.nodup_cons] at hn
    obtain ⟨_, ⟨hna, _⟩, hnb⟩ := hn
    refine ⟨h1, h2, by rw [if_pos rfl], fun x hx => ?_, fun x hx => ?_, by rw [if_pos rfl]; exact h4⟩
    · obtain ⟨y, hy, rfl⟩ := List.mem_map.mp hx
      rw [if_neg (hnb _ (List.mem_map.mpr ⟨y, hy, rfl⟩) _ List.mem_cons_self)]
      exact hzero y hy
    · obtain ⟨y, hy, rfl⟩ := List.mem_map.mp hx
      rw [if_neg fun e => hna (List.mem_map.mpr ⟨y, hy, e⟩)]
      exact hp y (by rw [hd]; simp [hy])

/-- A WRITE whose merge units are all of base ZERO sends its first run. -/
theorem State.WriteBegins.runs {s u : State} {d k : Cmd} (h : s.WriteBegins u d k)
    (hp : ∀ m ∈ d.merges, m.state = m.base.unread) (hw : k.waitFor = []) (hz : ∀ m ∈ k.merges, m.base = .zero) :
    k.state = .active ∧ (∀ m ∈ k.merges, m.state = .zero) ∧ ∀ x, k.runs.head? = some x →
      u.drive = s.drive.queued { who := .host d.tag, op := .write, lba := x.lba, count := x.len } := by
  have hd : ∀ m ∈ d.merges, m.state = .zero := fun m hm => by
    obtain ⟨x, hx, hu⟩ : ∃ x ∈ k.merges, x.base = m.base := by
      by_cases hn : d.nextMerge = none
      · exact ⟨m, (h.now hw hn).2.1 ▸ hm, rfl⟩
      · obtain ⟨e, he⟩ := Option.ne_none_iff_exists'.mp hn
        refine ⟨if m.unit = e.unit then { m with state := .reading } else m, ?_, by split <;> rfl⟩
        rw [(h.merge hw e he).2.2.1]
        exact List.mem_map.mpr ⟨m, hm, rfl⟩
    rw [hp m hm, ← hu, hz x hx]; rfl
  have hn : d.nextMerge = none := List.find?_eq_none.mpr fun m hm => by simp [hd m hm]
  obtain ⟨h1, h2, h3⟩ := h.now hw hn
  exact ⟨h1, fun m hm => hd m (h2 ▸ hm), h3⟩

/-- The admission of a WRITE whose ring test passes (R56, R78). -/
theorem ringWrite_admitted (h : s.TakesRing t x0 c e r) {tr : Trial} (htr : s.testOf e r x0 c = .ok tr) :
    ∃ v u k o, exec (.hostWrite t x0 c) s = .next (pump u) ∧ Tried tr e.slot s.quiet v ∧
      o = s.ringOwned e r tr ((v.slot e.slot).gen.getD 0) ∧
      (raiseFlight (ringPiece x0 c o) v).Enters u (s.dataCmd true t x0 c [ringPiece x0 c o]) k ∧
      (raiseFlight (ringPiece x0 c o) v).WriteBegins u (s.dataCmd true t x0 c [ringPiece x0 c o]) k ∧
      k.runs = unitRuns (x0 / 8) ((x0 + c - 1) / 8) := by
  set x : Tested := { piece := ringPiece x0 c (s.ringOwned e r tr 0), trial := some tr } with hx
  have hz : testRing true s.quiet (pieceIn e x0 c) (s.untested e) (s.slot e.slot) r = .ok x := by
    unfold testRing
    rw [if_pos rfl, show ringTest s.quiet.clock (s.slot e.slot).retired.isSome (pieceSegs r (s.untested e) (pieceIn e x0 c))
      { ring := r } = .ok tr from htr]
    rfl
  set v := applyTrial x s.quiet with hv
  have htried : Tried tr e.slot s.quiet v := tried_applyTrial (x := x) rfl rfl s.quiet
  set o := s.ringOwned e r tr ((v.slot e.slot).gen.getD 0) with ho
  set d := s.dataCmd true t x0 c [ringPiece x0 c o] with hd
  have hexec : exec (.hostWrite t x0 c) s = .next (pump (enterTable d (raiseFlight (ringPiece x0 c o) v))) := by
    rw [(exec_ringWrite h hz).2 x rfl, admitData_eq]
    dsimp only
    rw [countExpired_none (.inl rfl)]
    rfl
  have hruns : d.runs = unitRuns (x0 / 8) ((x0 + c - 1) / 8) := by
    have hrow : InRow x0 (x0 + c) [ringPiece x0 c o] := ⟨rfl, h.some, Nat.le_refl _, fun e => absurd rfl e, rfl⟩
    refine ((runsOf_write _).trans (runs_inRow hrow (List.cons_ne_nil _ _))).trans ?_
    exact runsOver_pieceIn e x0 c h.some
  have hf : (raiseFlight (ringPiece x0 c o) v).fresh d.tag := by
    intro y hy
    rw [raiseFlight_rest, htried.rest] at hy
    exact fresh_of_tagTest h.tag y hy
  obtain ⟨k, hk, hb⟩ := enterTable_write hf rfl nofun rfl
    (by rw [hruns, ← runsOver_pieceIn e x0 c h.some]; exact runsOver_head _ _)
  exact ⟨v, _, k, o, hexec, htried, rfl, hk, hb, by rw [hk.same]; exact hruns⟩

/-- The merge list of a WRITE in one extent of a ring (R96 to R98). -/
theorem ringMerges (s : State) (t : HostTag) (o : Owned) (hc : 1 ≤ c) :
    let d := s.dataCmd true t x0 c [ringPiece x0 c o]
    let a := x0 / 8
    let b := (x0 + c - 1) / 8
    d.merges.map (·.unit) = ((if x0 % 8 ≠ 0 ∨ (a = b ∧ (x0 + c) % 8 ≠ 0) then [a] else []) ++
      if a ≠ b ∧ (x0 + c) % 8 ≠ 0 then [b] else []) ∧
    (d.merges.map (·.unit)).Nodup ∧ ∀ m ∈ d.merges, m = d.entryOf m.unit o := by
  intro d a b
  have hrow : InRow x0 (x0 + c) [ringPiece x0 c o] := ⟨rfl, hc, Nat.le_refl _, fun e => absurd rfl e, rfl⟩
  refine ⟨?_, mergeList_nodup d, fun m hm => ?_⟩
  · have := mergeList_units_row (c := d) hrow (p := true) (q := true) rfl rfl
    simp only [true_and] at this
    exact this
  · obtain ⟨o', ho', heq⟩ := mem_mergeList (c := d) hm
    obtain ⟨p, hp, hpo⟩ := Option.bind_eq_some_iff.mp ho'
    obtain rfl := List.mem_singleton.mp (pieceOf_some hp).1
    obtain rfl := Option.some.inj hpo
    exact heq

/-- The merge unit of a segment: its base and its tweak, by the lap list (R51, R97). -/
theorem entry_ring {d : Cmd} {tr : Trial} {gen : Nat} {u : Nat} (hn : (tr.laps.map (·.seg)).Nodup) :
    ∀ l ∈ tr.laps, l.seg = (u - e.start) / r.g →
      (d.entryOf u (s.ringOwned e r tr gen)).base = (if l.started then .zero else .read) ∧
      (d.entryOf u (s.ringOwned e r tr gen)).tweak =
        { title := (s.slot e.slot).number.getD 0, seq := l.lap, unit := u - e.start } := fun l hl hs =>
  have hf : tr.laps.find? (fun x => decide (x.seg = (s.ringOwned e r tr gen).segOf u)) = some l := find?_of_nodup hn hl hs
  ⟨baseOf_ring rfl hf, tweak_ring rfl hf⟩

theorem ownedOn_ringPiece (x0 c : Nat) (o : Owned) (i : SlotIx) :
    (ownedOn [ringPiece x0 c o] i).length = if o.slot = i then 1 else 0 := by
  unfold ownedOn ringPiece
  by_cases h : o.slot = i <;> simp [h]

theorem raiseFlight_ringPiece {o : Owned} {x0 c : Nat} (v : State) :
    (raiseFlight (ringPiece x0 c o) v).slot o.slot = { v.slot o.slot with inFlight := (v.slot o.slot).inFlight + 1 } ∧
      ∀ j, j ≠ o.slot → (raiseFlight (ringPiece x0 c o) v).slot j = v.slot j := by
  refine ⟨?_, fun j hj => ?_⟩
  · rw [raiseFlight_slot, ownedOn_ringPiece, if_pos rfl]
  · rw [raiseFlight_slot, ownedOn_ringPiece, if_neg (Ne.symm hj)]; rfl

theorem State.Enters.slot {s u : State} {d k : Cmd} (h : s.Enters u d k) (i : SlotIx) : u.slot i = s.slot i := by
  unfold State.slot; rw [h.rest]

/-- The slot of a ring after the admission of a write (R56, R57). -/
theorem Tried.slot {tr : Trial} {i : SlotIx} {s v : State} (h : Tried tr i s v) :
    (tr.rekeyed = false → (v.slot i).gen = (s.slot i).gen) ∧
    (tr.rekeyed = true → (v.slot i).gen = some (nextNumber 65535 ((s.slot i).gen.getD 0))) :=
  ⟨fun hr => by rw [(h.kept hr).2], fun hr => by rw [(h.rekeyed hr).2.2]; rfl⟩

theorem rekeyedAt_retired {t : TitleSlot} {n : Nat} {x : Key} {g : Nat} (hx : t.key = some x) (hg : t.gen = some g) :
    (t.rekeyedAt n).retired = if t.inFlight = 0 then none else some { key := x, gen := g, refs := t.inFlight } := by
  unfold TitleSlot.rekeyedAt; rw [hx, hg]

/-- Settles O31: tweaks and ends of pieces by their rules, the refusals by the ring test, and the admission. -/
theorem ringWriteAdmitted : Obligations.RingWriteAdmitted := by
  refine ⟨fun o u ho => ?_, fun o u before l after ho hl hb => ?_, fun s p hp => ?_,
    fun s p o hp => ⟨fun h => ?_, fun h1 h2 h3 => ?_⟩,
    fun s t x0 c e r htakes htag hmap he h1 h2 hlo hhi hbelow hm hh hp hs hr => ?_⟩
  · unfold Owned.tweak; rw [ho]
  · exact tweak_ring ho (find?_of_first hl hb)
  · unfold endPiece; rw [hp]
  · rw [endPiece_stays hp h, pieceEnds_eq]; rfl
  · exact endPiece_leaves hp h1 h2 h3
  · intro a b touched test head tail
    have h : s.TakesRing t x0 c e r := ⟨⟨htakes, htag, h1, h2, hbelow⟩, hmap, he, hlo, hhi, hm, hh, hp, hs, hr⟩
    refine ⟨fun tr htr => ?_, ringWrite_refused h, ringWrite_refused h⟩
    have hsegs : tr.laps.map (·.seg) = touched := ringTest_laps htr
    have hnd : (tr.laps.map (·.seg)).Nodup := hsegs ▸ segsTouched_nodup _ _ _
    obtain ⟨v, u, k, o, hexec, hv, ho, hk, hb, hruns⟩ := ringWrite_admitted h htr
    have hslot : o.slot = e.slot := by rw [ho]; rfl
    obtain ⟨hunits, hnodup, hentry⟩ := ringMerges (x0 := x0) (c := c) s t o h1
    set d := s.dataCmd true t x0 c [ringPiece x0 c o] with hd
    set w := raiseFlight (ringPiece x0 c o) v with hw
    have hwv : w = { s.quiet with slots := w.slots, win := v.win, draws := v.draws } :=
      (raiseFlight_rest _ v).trans (congrArg (fun z : State => { z with slots := w.slots }) hv.rest)
    have hu : u = { s.quiet with slots := w.slots, win := v.win, draws := v.draws, table := u.table, buffer := u.buffer,
                                 stamp := u.stamp, drive := { s.drive with queue := u.drive.queue } } :=
      hk.rest.trans (congrArg (fun z : State =>
        { z with table := u.table, buffer := u.buffer, stamp := u.stamp,
                 drive := { z.drive with queue := u.drive.queue } }) hwv)
    obtain ⟨hflight, hothers⟩ := raiseFlight_ringPiece (o := o) (x0 := x0) (c := c) v
    rw [hslot] at hflight hothers
    have huslot : u.slot e.slot = { v.slot e.slot with inFlight := (v.slot e.slot).inFlight + 1 } :=
      (hk.slot _).trans hflight
    have hgen : o.gen = (v.slot e.slot).gen.getD 0 := by rw [ho]; rfl
    have hstate : ∀ m ∈ d.merges, m.state = m.base.unread := fun m hm => by
      rw [hentry m hm]
      show (if o.baseOf m.unit = .read then MergeState.pending else .zero) = (o.baseOf m.unit).unread
      cases o.baseOf m.unit <;> rfl
    have hdrive : w.drive = s.drive ∧ w.buffer = s.buffer := by rw [hwv]; exact ⟨rfl, rfl⟩
    obtain ⟨hkunits, hkmem⟩ := hb.merges
    refine ⟨u, k, o, hexec, hk.cmd, by rw [hk.same]; rfl, by rw [hk.same]; rfl, by rw [hk.same]; rfl, by rw [hk.same]; rfl,
      by rw [ho]; rfl, hsegs, by rw [ho]; rfl, by rw [ho]; rfl, hslot, by rw [ho]; rfl, by rw [ho]; rfl, by rw [hu]; rfl,
      by rw [hu]; rfl, fun j hj => ?_, hruns, hkunits.trans hunits, fun m hm => ?_, fun x => ?_, fun hn => ?_,
      fun hn before m after hms hmb hbz => ?_, fun hn hz => ?_, fun hrk => ?_, fun hrk => ?_⟩
    · rw [hk.slot, hothers j hj, hv.others j hj]; rfl
    · obtain ⟨m', hm', st, rfl⟩ := hkmem m hm
      rw [hentry m' hm']
      refine ⟨rfl, rfl, rfl, fun l hl hs => ?_⟩
      have := entry_ring (s := s) (e := e) (r := r) (d := d) (gen := (v.slot e.slot).gen.getD 0) (u := m'.unit) hnd l hl hs
      rw [← ho] at this
      refine ⟨this.1, this.2.trans ?_⟩
      rw [ho]; rfl
    · have hkw : k.waitFor = s.waitSet (Machine.dataCmd true t x0 c [ringPiece x0 c o]) := by rw [hk.same]; rfl
      have hmeet : ∀ y : Nat × Nat, piecesMeet [ringPiece x0 c o] y ↔ y.1 ≤ b ∧ a ≤ y.2 := fun y => by
        unfold piecesMeet ringPiece; simp; rfl
      rw [hkw, mem_waitSet]
      simp only [show (Machine.dataCmd true t x0 c [ringPiece x0 c o]).kind = .write from rfl, or_true, true_and,
        show (Machine.dataCmd true t x0 c [ringPiece x0 c o]).pieces = [ringPiece x0 c o] from rfl, hmeet]
    · obtain ⟨g1, g2, g3, g4⟩ := hb.later hn
      exact ⟨g1, g2.trans hdrive.1, g3.trans hdrive.2, fun m hm => hstate m (g4 ▸ hm)⟩
    · obtain ⟨g1, g2, g3, g4, g5, g6⟩ := hb.reads hstate hnodup hn hms hmb hbz
      exact ⟨g1, g2.trans hdrive.2, g3, g4, g5, by rw [g6, hdrive.1]; rfl⟩
    · obtain ⟨g1, g2, g3⟩ := hb.runs hstate hn hz
      exact ⟨g1, g2, fun x hx => by rw [g3 x hx, hdrive.1]; rfl⟩
    · obtain ⟨g1, g2⟩ := hv.kept hrk
      refine ⟨by rw [hgen, hv.slot.1 hrk]; rfl, by rw [hu]; exact g1, ?_⟩
      rw [huslot, g2]; rfl
    · obtain ⟨g1, g2, g3⟩ := hv.rekeyed hrk
      have hg := hv.slot.2 hrk
      have hog : o.gen = nextNumber 65535 ((s.slot e.slot).gen.getD 0) := by rw [hgen, hg]; rfl
      refine ⟨by rw [huslot, g3]; rfl, by rw [hu]; exact g1, ?_, hog, by rw [huslot, g3], ?_, by rw [huslot, g3]; rfl,
        fun x g hx hg => ?_⟩
      · rw [huslot, hog]; exact hg
      · have : u.hasFlag .ringRekeyed = v.hasFlag .ringRekeyed := by rw [hu]; rfl
        rw [this]; exact g2
      · rw [huslot, g3]
        exact rekeyedAt_retired (n := s.draws) hx hg

end Sys2Proof.Machine
end

section
/-!
SUPPORT. The sectors that the model lays out: what their fields show, and which bytes are zeros (section 11.9).
-/

namespace Sys2Proof.Machine

/-! ### Fields of a layout -/

/-- Two fields share no byte. -/
def apart (f g : Nat × Nat × Nat) : Bool := decide (f.1 + f.2.1 ≤ g.1) || decide (g.1 + g.2.1 ≤ f.1)

/-- Fields that lie in the sector and share no byte. -/
def layable : List (Nat × Nat × Nat) → Bool
  | [] => true
  | f :: fs => decide (f.1 + f.2.1 ≤ 512) && fs.all (apart f) && layable fs

theorem layable_cons (f : Nat × Nat × Nat) (fs : List (Nat × Nat × Nat)) : layable (f :: fs) = true ↔
    f.1 + f.2.1 ≤ 512 ∧ fs.all (apart f) = true ∧ layable fs = true := by
  show (decide (f.1 + f.2.1 ≤ 512) && fs.all (apart f) && layable fs) = true ↔ _
  rw [Bool.and_eq_true, Bool.and_eq_true, decide_eq_true_eq, and_assoc]

/-- No field has a byte of lo … hi − 1. -/
def clearOf (lo hi : Nat) (fs : List (Nat × Nat × Nat)) : Bool := fs.all fun f => apart (lo, hi - lo, 0) f

/-- Bit i of a layout is set by this field. -/
def setsBit (i : Nat) (f : Nat × Nat × Nat) : Bool :=
  decide (8 * f.1 ≤ i) && decide (i < 8 * f.1 + 8 * f.2.1) && f.2.2.testBit (i - 8 * f.1)

theorem testBit_placed (f : Nat × Nat × Nat) (i : Nat) :
    ((f.2.2 % 2 ^ (8 * f.2.1)) <<< (8 * f.1)).testBit i = setsBit i f := by
  unfold setsBit
  rw [Nat.testBit_shiftLeft, Nat.testBit_mod_two_pow]
  by_cases h : 8 * f.1 ≤ i
  · have e : decide (i < 8 * f.1 + 8 * f.2.1) = decide (i - 8 * f.1 < 8 * f.2.1) := decide_eq_decide.mpr (by omega)
    simp [h, e]
  · simp [h]

theorem testBit_layout (fs : List (Nat × Nat × Nat)) (i : Nat) :
    (layout fs).toNat.testBit i = (decide (i < 4096) && fs.any (setsBit i)) := by
  have fold : ∀ (fs : List (Nat × Nat × Nat)) (a : Nat),
      (fs.foldl (fun a f => a ||| ((f.2.2 % 2 ^ (8 * f.2.1)) <<< (8 * f.1))) a).testBit i =
        (a.testBit i || fs.any (setsBit i)) := by
    intro fs
    induction fs with
    | nil => intro a; simp
    | cons f fs ih => intro a; rw [List.foldl_cons, ih, Nat.testBit_or, testBit_placed, List.any_cons, Bool.or_assoc]
  unfold layout
  rw [BitVec.testBit_toNat, BitVec.getLsbD_ofNat, fold, Nat.zero_testBit, Bool.false_or]

theorem testBit_field (x : Sector) (off n j : Nat) :
    (Sector.field x off n).testBit j = (decide (j < 8 * n) && x.toNat.testBit (8 * off + j)) := by
  unfold Sector.field
  rw [Nat.testBit_mod_two_pow, Nat.testBit_shiftRight]

theorem setsBit_apart {f g : Nat × Nat × Nat} {j : Nat} (h : apart f g = true) (hj : j < 8 * f.2.1) :
    setsBit (8 * f.1 + j) g = false := by
  unfold apart at h
  rw [Bool.or_eq_true, decide_eq_true_eq, decide_eq_true_eq] at h
  unfold setsBit
  by_cases h1 : 8 * g.1 ≤ 8 * f.1 + j
  · rw [decide_eq_false (show ¬ 8 * f.1 + j < 8 * g.1 + 8 * g.2.1 by omega)]; simp
  · rw [decide_eq_false h1]; rfl

theorem setsBit_own {f : Nat × Nat × Nat} {j : Nat} (hj : j < 8 * f.2.1) :
    setsBit (8 * f.1 + j) f = f.2.2.testBit j := by
  unfold setsBit
  rw [decide_eq_true (show 8 * f.1 ≤ 8 * f.1 + j by omega),
    decide_eq_true (show 8 * f.1 + j < 8 * f.1 + 8 * f.2.1 by omega), Nat.add_sub_cancel_left]
  rfl

theorem apart_comm (f g : Nat × Nat × Nat) : apart f g = apart g f := Bool.or_comm _ _

/-- A bit of a field of a layout is the field's own. -/
theorem any_setsBit {f : Nat × Nat × Nat} {j : Nat} (hj : j < 8 * f.2.1) : ∀ {fs : List (Nat × Nat × Nat)},
    layable fs = true → f ∈ fs → fs.any (setsBit (8 * f.1 + j)) = f.2.2.testBit j
  | g :: fs, h, hm => by
    obtain ⟨_, hg, hl⟩ := (layable_cons g fs).mp h
    rw [List.all_eq_true] at hg
    rw [List.any_cons]
    rcases List.mem_cons.mp hm with rfl | hm
    · rw [setsBit_own hj, List.any_eq_false.mpr fun x hx => by rw [setsBit_apart (hg x hx) hj]; nofun, Bool.or_false]
    · rw [setsBit_apart ((apart_comm f g).trans (hg f hm)) hj, any_setsBit hj hl hm, Bool.false_or]

theorem layable_fits {f : Nat × Nat × Nat} : ∀ {fs : List (Nat × Nat × Nat)}, layable fs = true → f ∈ fs →
    f.1 + f.2.1 ≤ 512
  | g :: fs, h, hm => by
    obtain ⟨hg, _, hl⟩ := (layable_cons g fs).mp h
    rcases List.mem_cons.mp hm with rfl | hm
    · exact hg
    · exact layable_fits hl hm

/-- A layout shows its fields. -/
theorem shows_layout {fs : List (Nat × Nat × Nat)} (h : layable fs = true) : shows (layout fs) fs := by
  intro f hf
  refine Nat.eq_of_testBit_eq fun j => ?_
  have hfit := layable_fits h hf
  rw [testBit_field, testBit_layout, Nat.testBit_mod_two_pow]
  by_cases hj : j < 8 * f.2.1
  · rw [decide_eq_true hj, decide_eq_true (show 8 * f.1 + j < 4096 by omega), any_setsBit hj h hf]; rfl
  · rw [decide_eq_false hj]; rfl

/-- Fields before byte n, and fields from it on. -/
theorem layable_append {n : Nat} : ∀ {fs gs : List (Nat × Nat × Nat)}, layable fs = true → layable gs = true →
    (fs.all fun f => decide (f.1 + f.2.1 ≤ n)) = true → (gs.all fun g => decide (n ≤ g.1)) = true →
    layable (fs ++ gs) = true
  | [], _, _, hg, _, _ => hg
  | f :: fs, gs, hf, hg, h1, h2 => by
    obtain ⟨hfit, hfs, hl⟩ := (layable_cons f fs).mp hf
    rw [List.all_cons, Bool.and_eq_true, decide_eq_true_eq] at h1
    have hgs : gs.all (apart f) = true := List.all_eq_true.mpr fun g hm => by
      have := of_decide_eq_true (List.all_eq_true.mp h2 g hm)
      unfold apart
      rw [decide_eq_true (show f.1 + f.2.1 ≤ g.1 by omega)]
      rfl
    exact (layable_cons f (fs ++ gs)).mpr ⟨hfit, by rw [List.all_append, hfs, hgs]; rfl, layable_append hl hg h1.2 h2⟩

/-- The bytes that no field of a layout has are zeros. -/
theorem zeros_layout {fs : List (Nat × Nat × Nat)} {lo hi : Nat} (h : clearOf lo hi fs = true) :
    zeros (layout fs) lo hi := by
  intro b h1 h2
  refine Nat.eq_of_testBit_eq fun j => ?_
  rw [testBit_field, testBit_layout, Nat.zero_testBit]
  by_cases hj : j < 8
  · rw [List.any_eq_false.mpr, Bool.and_false, Bool.and_false]
    intro f hf
    have ha : apart (lo, hi - lo, 0) f = true := List.all_eq_true.mp h f hf
    have : setsBit (8 * lo + (8 * (b - lo) + j)) f = false :=
      setsBit_apart ha (show 8 * (b - lo) + j < 8 * (hi - lo) by omega)
    rw [show 8 * b + j = 8 * lo + (8 * (b - lo) + j) by omega, this]
    nofun
  · rw [decide_eq_false (by omega)]; rfl

theorem zeros_zero (lo hi : Nat) : zeros Sector.zero lo hi := by
  intro b _ _
  refine Nat.eq_of_testBit_eq fun j => ?_
  rw [testBit_field, Nat.zero_testBit, show Sector.zero = 0#4096 from rfl, BitVec.testBit_toNat, BitVec.getLsbD_zero,
    Bool.and_false]

theorem shows_nil (x : Sector) : shows x [] ↔ True := by simp [shows]

theorem shows_cons (x : Sector) (f : Nat × Nat × Nat) (fs : List (Nat × Nat × Nat)) :
    shows x (f :: fs) ↔ Sector.field x f.1 f.2.1 = f.2.2 % 2 ^ (8 * f.2.1) ∧ shows x fs := List.forall_mem_cons

theorem shows_append (x : Sector) (fs gs : List (Nat × Nat × Nat)) :
    shows x (fs ++ gs) ↔ shows x fs ∧ shows x gs := List.forall_mem_append

/-! ### The command sector (R192) -/

theorem testBit_readBack (r : Sector) (i : Nat) :
    (recReadBack r).toNat.testBit i = (decide (i < 3840) && r.toNat.testBit i) := by
  unfold recReadBack recCovered
  rw [BitVec.testBit_toNat, BitVec.getLsbD_setWidth, BitVec.getLsbD_setWidth, BitVec.testBit_toNat]
  by_cases h : i < 3840
  · rw [decide_eq_true h, decide_eq_true (show i < 4096 by omega), Bool.true_and]
  · rw [decide_eq_false h, Bool.false_and, Bool.and_false]

theorem readBack_zeros (r : Sector) : zeros (recReadBack r) 480 512 := by
  intro b h1 h2
  refine Nat.eq_of_testBit_eq fun j => ?_
  rw [testBit_field, testBit_readBack, Nat.zero_testBit, decide_eq_false (show ¬ 8 * b + j < 3840 by omega),
    Bool.false_and, Bool.and_false]

theorem readBack_field (r : Sector) {b : Nat} (hb : b < 480) : Sector.field (recReadBack r) b 1 = Sector.field r b 1 := by
  refine Nat.eq_of_testBit_eq fun j => ?_
  rw [testBit_field, testBit_field, testBit_readBack]
  by_cases hj : j < 8 * 1
  · rw [decide_eq_true (show 8 * b + j < 3840 by omega), Bool.true_and]
  · rw [decide_eq_false hj]; rfl

end Sys2Proof.Machine
end

section
/-!
SUPPORT, and O11. The control window: what each of its sectors shows, and that none shows a key (R4, R65, R133, R177, R192,
R198 to R200, R202).
-/

namespace Sys2Proof.Machine

theorem markCode_eq (b : Bool) : markCode b = b.toNat := by cases b <;> rfl

theorem inState_eq (s : State) (st : CmdState) : s.inState st = s.howMany st :=
  List.countP_eq_length_filter.symm

/-! ### The sectors of the window by their place (R192) -/

theorem windowSector_eq (s : State) (k : Nat) : s.windowSector (s.windowBase + k) =
    if k = 0 then s.win.last.elim Sector.zero recReadBack
    else if k = 1 then s.win.reply.elim Sector.zero Reply.sector
    else if k = 2 then s.partStatus
    else (slotOfNat (k - 3)).elim Sector.zero s.slotStatus := by
  unfold State.windowSector
  rw [Nat.add_sub_cancel_left]
  dsimp only
  cases s.win.last <;> cases s.win.reply <;> cases slotOfNat (k - 3) <;> rfl

theorem windowSector_command (s : State) : s.windowSector s.windowBase = s.win.last.elim Sector.zero recReadBack := by
  have h := windowSector_eq s 0
  rwa [Nat.add_zero, if_pos rfl] at h

theorem windowSector_slot (s : State) (i : SlotIx) : s.windowSector (s.windowBase + 3 + i.val) = s.slotStatus i := by
  rw [Nat.add_assoc, windowSector_eq, if_neg (by omega), if_neg (by omega), if_neg (by omega),
    slotOfNat_val (show 3 + i.val - 3 = i.val by omega)]
  rfl

theorem windowSector_last (s : State) {n : Nat} (h : 11 ≤ n) : s.windowSector (s.windowBase + n) = Sector.zero := by
  rw [windowSector_eq, if_neg (by omega), if_neg (by omega), if_neg (by omega)]
  unfold slotOfNat
  rw [dif_neg (by omega)]
  rfl

/-! ### The reply (R198) -/

/-- The fields of a reply. -/
def Reply.fields (p : Reply) : List (Nat × Nat × Nat) :=
  [(0, 4, p.request), (4, 1, p.code), (5, 1, p.result.code), (6, 1, p.slot), (8, 8, p.nonce.toNat),
    (16, 4, p.number)] ++ p.details.fields

theorem reply_layable (p : Reply) : layable p.fields = true := by
  unfold Reply.fields; cases p.details <;> rfl

theorem reply_clear (p : Reply) : clearOf 7 8 p.fields = true ∧ clearOf 64 512 p.fields = true ∧
    (p.details = .none → clearOf 20 64 p.fields = true) := by
  refine ⟨?_, ?_, fun h => by unfold Reply.fields; rw [h]; rfl⟩
  all_goals unfold Reply.fields; cases p.details <;> rfl

/-! ### The part status (R199) -/

/-- The fields of the last refusal. -/
def RefusalRecord.fields (r : RefusalRecord) : List (Nat × Nat × Nat) :=
  [(64, 2, r.number), (66, 1, tagCode r.tag), (67, 1, r.reason.code), (68, 8, r.lba), (76, 4, r.count)]

/-- The fields of the part status sector. -/
def State.partFields (s : State) : List (Nat × Nat × Nat) :=
    [(0, 1, s.phase.code), (1, 1, markCode s.clock.isSome), (2, 1, s.mon.state.code), (3, 1, markCode s.cat.sweeping),
     (4, 4, s.clock.getD 0), (8, 8, s.win.nonce.toNat), (16, 2, s.win.flags.toNat), (18, 2, s.mon.alarmed.toNat),
     (20, 4, s.remaining), (24, 4, s.mon.window)]
    ++ kindFields 28 1 (s.mon.reactions.map Reaction.code)
    ++ [(38, 1, s.buffer.ceiling), (39, 1, s.win.readPolicy.code), (40, 1, s.win.writePolicy.code),
        (41, 1, s.win.deallocatePolicy.code), (42, 1, s.framesInUse), (43, 1, markCode s.stalled)]
    ++ kindFields 44 2 s.mon.counters
    ++ s.mon.refusal.elim [] RefusalRecord.fields
    ++ [(80, 1, 29 - s.table.length), (81, 1, s.inState .waitOverlap), (82, 1, s.inState .waitControl),
        (83, 1, s.inState .mergeRead), (84, 1, s.inState .active), (85, 1, s.inState .ending + s.inState .failed),
        (86, 1, markCode s.win.executing.isSome), (87, 1, s.cat.flights.length),
        (88, 4, s.win.executing.elim 0 fun e => recRequest e.record),
        (92, 4, s.cat.queue.length), (96, 2, s.cat.progress), (98, 2, s.cat.erased),
        (100, 4, s.win.reply.elim 0 Reply.number),
        (104, 8, s.presented), (112, 8, s.driveCapacity), (120, 2, s.epoch)]

theorem partStatus_eq (s : State) : s.partStatus = layout s.partFields := by
  unfold State.partStatus State.partFields
  cases s.mon.refusal <;> cases s.win.executing <;> cases s.win.reply <;> rfl

theorem part_layable (s : State) : layable s.partFields = true := by
  unfold State.partFields; cases s.mon.refusal <;> rfl

theorem mem_kindFields {base width : Nat} {v : Vector Nat 10} (k : Fin 10) :
    (base + width * k.val, width, v[k]) ∈ kindFields base width v := by
  unfold kindFields
  refine List.mem_map.mpr ⟨k.val, List.mem_range.mpr k.isLt, ?_⟩
  simp

/-- The part status shows its fields, and zeros between and after them. -/
theorem part_shows (s : State) : shows (s.windowSector (s.windowBase + 2)) s.partFields ∧
    ∀ lo hi, clearOf lo hi s.partFields = true → zeros (s.windowSector (s.windowBase + 2)) lo hi := by
  have h : s.windowSector (s.windowBase + 2) = layout s.partFields := (windowSector_eq s 2).trans (partStatus_eq s)
  rw [h]
  exact ⟨shows_layout (part_layable s), fun lo hi => zeros_layout⟩

/-- The fields of fixed value, the fields that may read as zeros, the reactions, the counters and the refusal. -/
theorem part_parts {s : State} {x : Sector} (h : shows x s.partFields) :
    shows x [(0, 1, s.phase.code), (1, 1, s.clock.isSome.toNat), (2, 1, s.mon.state.code),
      (3, 1, s.cat.sweeping.toNat), (4, 4, s.clock.getD 0), (8, 8, s.win.nonce.toNat), (16, 2, s.win.flags.toNat),
      (18, 2, s.mon.alarmed.toNat), (24, 4, s.mon.window), (38, 1, s.buffer.ceiling), (39, 1, s.win.readPolicy.code),
      (40, 1, s.win.writePolicy.code), (41, 1, s.win.deallocatePolicy.code), (42, 1, s.buffer.frames.length),
      (80, 1, 29 - s.table.length), (81, 1, s.howMany .waitOverlap), (82, 1, s.howMany .waitControl),
      (83, 1, s.howMany .mergeRead), (84, 1, s.howMany .active), (85, 1, s.howMany .ending + s.howMany .failed),
      (86, 1, s.win.executing.isSome.toNat), (87, 1, s.cat.flights.length), (92, 4, s.cat.queue.length),
      (96, 2, s.cat.progress), (98, 2, s.cat.erased), (104, 8, s.presented), (112, 8, s.driveCapacity)] ∧
    shows x [(20, 4, s.remaining), (43, 1, s.stalled.toNat), (88, 4, s.win.executing.elim 0 fun e => recRequest e.record),
      (100, 4, s.win.reply.elim 0 Reply.number), (120, 2, s.epoch)] ∧
    shows x (kindFields 28 1 (s.mon.reactions.map Reaction.code)) ∧ shows x (kindFields 44 2 s.mon.counters) ∧
    shows x (s.mon.refusal.elim [] RefusalRecord.fields) := by
  unfold State.partFields State.framesInUse at h
  simp only [shows_append, shows_cons, shows_nil, markCode_eq, inState_eq] at h ⊢
  simp only [h, and_self]

/-! ### The time remaining (R177) -/

theorem timeLeft_le (length since : Nat) : ∀ n, timeLeft length since n ≤ length
  | 0 => Nat.le_of_lt_succ (Nat.mod_lt _ (Nat.succ_pos _))
  | n + 1 => (Nat.min_le_left _ _).trans (timeLeft_le length since n)

theorem remaining_le {s : State} {d : Deadline} (h : s.mon.deadline = some d) : s.remaining ≤ d.length := by
  unfold State.remaining; rw [h]; exact timeLeft_le _ _ _

/-- The time remaining does not grow at the next read. -/
theorem remaining_next {s : State} {d : Deadline} (h : s.mon.deadline = some d) (hd : d.since ≤ s.freeReads) :
    ({ s with freeReads := s.freeReads + 1 } : State).remaining ≤ s.remaining := by
  unfold State.remaining
  dsimp only
  rw [h]
  dsimp only
  rw [Nat.sub_add_comm hd]
  exact Nat.min_le_left _ _

/-! ### The slot status (R65, R200) -/

/-- The fields of the oldest readable segment. -/
def Ring.oldFields (r : Ring) (k : Nat) : List (Nat × Nat × Nat) :=
  [(47, 1, 1), (48, 1, k)] ++ (r.seg k).firstWrite.elim [] fun f => [(49, 1, 1), (56, 4, f)]

theorem ringFields_eq (r : Ring) (clock : Option Nat) : r.fields clock =
    [(36, 4, r.size), (40, 4, r.g), (44, 1, r.m), (52, 2, r.lapCounter), (54, 2, r.retention)]
    ++ r.head.elim [] (fun h => [(45, 1, 1), (46, 1, h), (50, 2, (r.seg h).lap)])
    ++ (r.oldestReadable clock).elim [] r.oldFields := by
  unfold Ring.fields
  cases r.head <;> cases r.oldestReadable clock with
  | none => rfl
  | some k => unfold Option.elim Ring.oldFields; dsimp only; cases (r.seg k).firstWrite <;> rfl

/-- The fields of a slot status sector before the ring's. -/
def TitleSlot.headFields (t : TitleSlot) (i : Nat) : List (Nat × Nat × Nat) :=
    [(0, 1, i), (1, 1, t.phase.code), (2, 1, kindCode t.kind), (3, 1, stateCode t.state), (4, 1, classCode t.cls),
     (5, 1, drainCode t.drain), (6, 1, markCode t.halted), (7, 1, markCode t.dirty), (8, 1, markCode t.storeInFlight),
     (9, 1, markCode t.expiry.isSome), (10, 1, markCode t.retired.isSome), (12, 2, t.number.getD 0),
     (14, 2, t.gen.getD 0)]
    ++ t.retired.elim [] (fun x => [(16, 2, x.gen), (18, 2, x.refs)])
    ++ [(20, 2, t.inFlight), (22, 2, t.extentCount), (24, 4, t.expiry.getD 0), (28, 4, t.nextUnit), (32, 4, t.lastChanger)]

/-- The fields of the slot's ring. -/
def TitleSlot.ringFields (t : TitleSlot) (clock : Option Nat) : List (Nat × Nat × Nat) :=
  t.ring.elim [] fun r => r.fields clock

theorem slotStatus_eq (s : State) (i : SlotIx) :
    s.slotStatus i = layout ((s.slot i).headFields i.val ++ (s.slot i).ringFields s.clock) := by
  unfold State.slotStatus TitleSlot.headFields TitleSlot.ringFields
  dsimp only
  cases (s.slot i).retired <;> cases (s.slot i).ring <;> rfl

theorem slotHead_layable (t : TitleSlot) (i : Nat) : layable (t.headFields i) = true ∧
    ((t.headFields i).all fun f => decide (f.1 + f.2.1 ≤ 36)) = true := by
  unfold TitleSlot.headFields; cases t.retired <;> exact ⟨rfl, rfl⟩

theorem ring_layable (r : Ring) (clock : Option Nat) : layable (r.fields clock) = true ∧
    ((r.fields clock).all fun f => decide (36 ≤ f.1)) = true ∧ clearOf 60 512 (r.fields clock) = true ∧
    clearOf 16 20 (r.fields clock) = true := by
  rw [ringFields_eq]
  cases r.head <;> cases r.oldestReadable clock with
  | none => exact ⟨rfl, rfl, rfl, rfl⟩
  | some k =>
    unfold Option.elim Ring.oldFields
    dsimp only
    cases (r.seg k).firstWrite <;> exact ⟨rfl, rfl, rfl, rfl⟩

theorem slotRing_layable (t : TitleSlot) (clock : Option Nat) : layable (t.ringFields clock) = true ∧
    ((t.ringFields clock).all fun f => decide (36 ≤ f.1)) = true ∧ clearOf 60 512 (t.ringFields clock) = true ∧
    clearOf 16 20 (t.ringFields clock) = true := by
  unfold TitleSlot.ringFields
  cases t.ring with
  | none => exact ⟨rfl, rfl, rfl, rfl⟩
  | some r => exact ring_layable r clock

theorem slotHead_clear (t : TitleSlot) (i : Nat) {lo hi : Nat} (h : 36 ≤ lo) : clearOf lo hi (t.headFields i) = true :=
  List.all_eq_true.mpr fun f hf => by
    have := of_decide_eq_true (List.all_eq_true.mp (slotHead_layable t i).2 f hf)
    unfold apart
    rw [decide_eq_true (show f.1 + f.2.1 ≤ (lo, hi - lo, 0).1 by dsimp only; omega), Bool.or_true]

/-- The slot status shows its fields; the bytes that none of them has are zeros. -/
theorem slot_shows (s : State) (i : SlotIx) :
    shows (s.windowSector (s.windowBase + 3 + i.val)) ((s.slot i).headFields i.val) ∧
    shows (s.windowSector (s.windowBase + 3 + i.val)) ((s.slot i).ringFields s.clock) ∧
    ∀ lo hi, clearOf lo hi ((s.slot i).headFields i.val) = true →
      clearOf lo hi ((s.slot i).ringFields s.clock) = true → zeros (s.windowSector (s.windowBase + 3 + i.val)) lo hi := by
  rw [windowSector_slot, slotStatus_eq]
  obtain ⟨h1, h2⟩ := slotHead_layable (s.slot i) i.val
  obtain ⟨h3, h4, _⟩ := slotRing_layable (s.slot i) s.clock
  have hs := (shows_append _ _ _).mp (shows_layout (layable_append h1 h3 h2 h4))
  refine ⟨hs.1, hs.2, fun lo hi c1 c2 => zeros_layout ?_⟩
  unfold clearOf at c1 c2 ⊢
  rw [List.all_append, c1, c2]
  rfl

theorem slot_parts {t : TitleSlot} {i : Nat} {x : Sector} (h : shows x (t.headFields i)) :
    shows x [(0, 1, i), (1, 1, t.phase.code), (2, 1, kindCode t.kind), (3, 1, stateCode t.state),
      (4, 1, classCode t.cls), (5, 1, drainCode t.drain), (6, 1, t.halted.toNat), (7, 1, t.dirty.toNat),
      (8, 1, t.storeInFlight.toNat), (9, 1, t.expiry.isSome.toNat), (10, 1, t.retired.isSome.toNat),
      (12, 2, t.number.getD 0), (14, 2, t.gen.getD 0), (20, 2, t.inFlight), (22, 2, t.extentCount),
      (24, 4, t.expiry.getD 0), (28, 4, t.nextUnit), (32, 4, t.lastChanger)] ∧
    shows x (t.retired.elim [] fun y => [(16, 2, y.gen), (18, 2, y.refs)]) := by
  unfold TitleSlot.headFields at h
  simp only [shows_append, shows_cons, shows_nil, markCode_eq] at h ⊢
  simp only [h, and_self]

/-! ### The oldest readable segment (R65) -/

theorem oldest_none {r : Ring} {clock : Option Nat} {h : Nat} (hh : r.head = some h)
    (ha : ∀ k ∈ r.byAge h, (r.seg k).readable clock = false) : r.oldestReadable clock = none := by
  unfold Ring.oldestReadable
  rw [hh]
  exact List.find?_eq_none.mpr fun k hk => by rw [ha k hk]; nofun

theorem oldest_some {r : Ring} {clock : Option Nat} {h k : Nat} {older younger : List Nat} (hh : r.head = some h)
    (ha : r.byAge h = older ++ k :: younger) (hk : (r.seg k).readable clock = true)
    (ho : ∀ j ∈ older, (r.seg j).readable clock = false) : r.oldestReadable clock = some k := by
  unfold Ring.oldestReadable
  rw [hh]
  exact List.find?_eq_some_iff_append.mpr ⟨hk, older, younger, ha, fun j hj => by rw [ho j hj]; rfl⟩

/-! ### No key (R4, R133) -/

theorem withoutKeys_slot (s : State) (i : SlotIx) : s.withoutKeys.slot i =
    { s.slot i with key := none, retired := (s.slot i).retired.map fun x => { x with key := ⟨0⟩ } } := by
  unfold State.slot State.withoutKeys
  simp

theorem withoutKeys_partStatus (s : State) : s.withoutKeys.partStatus = s.partStatus := by
  rw [partStatus_eq, partStatus_eq]
  have hf : s.withoutKeys.cat.flights.length = s.cat.flights.length := List.length_map _
  have hc : ∀ st, s.withoutKeys.inState st = s.inState st := fun _ => rfl
  have hv : s.withoutKeys.remaining = s.remaining ∧ s.withoutKeys.framesInUse = s.framesInUse ∧
      s.withoutKeys.stalled = s.stalled ∧ s.withoutKeys.presented = s.presented ∧
      s.withoutKeys.driveCapacity = s.driveCapacity ∧ s.withoutKeys.epoch = s.epoch := ⟨rfl, rfl, rfl, rfl, rfl, rfl⟩
  unfold State.partFields
  simp only [hf, hc, hv]
  simp only [State.withoutKeys]

theorem withoutKeys_slotStatus (s : State) (i : SlotIx) : s.withoutKeys.slotStatus i = s.slotStatus i := by
  rw [slotStatus_eq, slotStatus_eq, withoutKeys_slot]
  unfold TitleSlot.headFields TitleSlot.ringFields
  cases (s.slot i).retired <;> rfl

theorem withoutKeys_windowSector (s : State) (lba : Nat) : s.withoutKeys.windowSector lba = s.windowSector lba := by
  unfold State.windowSector
  rw [withoutKeys_partStatus, show s.withoutKeys.slotStatus = s.slotStatus from funext (withoutKeys_slotStatus s),
    show s.withoutKeys.windowBase = s.windowBase from rfl, show s.withoutKeys.win = s.win from rfl]

/-! ### The obligation -/

theorem shows_one {x : Sector} {off n v : Nat} (h : shows x [(off, n, v)]) : Sector.field x off n = v % 2 ^ (8 * n) :=
  h _ List.mem_cons_self

/-- The bytes of a field whose value is 0. -/
theorem zeros_of_shows {x : Sector} {off n : Nat} (h : shows x [(off, n, 0)]) : zeros x off (off + n) := by
  intro b h1 h2
  refine Nat.eq_of_testBit_eq fun j => ?_
  rw [testBit_field, Nat.zero_testBit]
  by_cases hj : j < 8 * 1
  · have hf : (Sector.field x off n).testBit (8 * (b - off) + j) = false := by
      rw [shows_one h, Nat.zero_mod, Nat.zero_testBit]
    rw [testBit_field, decide_eq_true (show 8 * (b - off) + j < 8 * n by omega), Bool.true_and,
      show 8 * off + (8 * (b - off) + j) = 8 * b + j by omega] at hf
    rw [hf, Bool.and_false]
  · rw [decide_eq_false hj]; rfl

/-- What the reply sector shows (R198). -/
theorem reply_shown {s : State} {p : Reply} (hp : s.win.reply = some p) :
    s.windowSector (s.windowBase + 1) = layout p.fields := by
  rw [windowSector_eq, if_neg Nat.one_ne_zero, if_pos rfl, hp]; rfl

theorem stalled_of {s : State} {t : HostTag} (h : s.drive.hold = some (.stall t)) : s.stalled = true := by
  unfold State.stalled; rw [h]

theorem stalled_not {s : State} (h : ∀ t, s.drive.hold ≠ some (.stall t)) : s.stalled = false := by
  unfold State.stalled
  split
  · rename_i t ht; exact absurd ht (h t)
  · rfl
  · rfl

theorem epoch_of {s : State} {e : Nat} (h : s.cat.header = .valid e) : s.epoch = e := by
  unfold State.epoch; rw [h]

theorem epoch_not {s : State} (h : ∀ e, s.cat.header ≠ .valid e) : s.epoch = 0 := by
  unfold State.epoch
  cases hh : s.cat.header with
  | valid e => exact absurd hh (h e)
  | _ => rfl

/-- What the part status shows of the refusal, the stall, the command in execution, the last reply, the epoch and the
alarm window (R199). -/
theorem part_optional (s : State) : let x := s.windowSector (s.windowBase + 2)
    (s.mon.refusal = none → zeros x 64 80) ∧
    (∀ r, s.mon.refusal = some r → shows x r.fields) ∧
    shows x [(43, 1, s.stalled.toNat)] ∧ shows x [(88, 4, s.win.executing.elim 0 fun e => recRequest e.record)] ∧
    shows x [(100, 4, s.win.reply.elim 0 Reply.number)] ∧ shows x [(120, 2, s.epoch)] ∧
    Sector.field x 20 4 = s.remaining % 2 ^ 32 := by
  intro x
  obtain ⟨h1, h2⟩ := part_shows s
  obtain ⟨_, h4, _, _, h5⟩ := part_parts h1
  simp only [shows_cons, shows_nil, and_true] at h4 ⊢
  obtain ⟨e1, e2, e3, e4, e5⟩ := h4
  refine ⟨fun h => h2 _ _ ?_, fun r h => ?_, e2, e3, e4, e5, e1⟩
  · unfold State.partFields; rw [h]; rfl
  · rw [h] at h5; exact h5

/-- What the sector of a slot shows of its ring (R65, R200). -/
theorem ring_shown {s : State} {i : SlotIx} {r : Ring} (hr : (s.slot i).ring = some r) :
    let x := s.windowSector (s.windowBase + 3 + i.val)
    shows x [(36, 4, r.size), (40, 4, r.g), (44, 1, r.m), (52, 2, r.lapCounter), (54, 2, r.retention)] ∧
    shows x (r.head.elim [] fun h => [(45, 1, 1), (46, 1, h), (50, 2, (r.seg h).lap)]) ∧
    shows x ((r.oldestReadable s.clock).elim [] r.oldFields) ∧
    ∀ lo hi, 36 ≤ lo → clearOf lo hi (r.fields s.clock) = true → zeros x lo hi := by
  intro x
  obtain ⟨_, h1, h2⟩ := slot_shows s i
  have he : (s.slot i).ringFields s.clock = r.fields s.clock := by unfold TitleSlot.ringFields; rw [hr]; rfl
  rw [he] at h1 h2
  rw [ringFields_eq, shows_append, shows_append] at h1
  exact ⟨h1.1.1, h1.1.2, h1.2, fun lo hi hlo => h2 lo hi (slotHead_clear _ _ hlo)⟩

/-- Settles O11: no key is shown; then the sectors in their order, and ALERT. -/
theorem keysHidden : Obligations.KeysHidden := by
  refine ⟨withoutKeys_windowSector, fun s => ⟨fun h => ?_, fun r hr => ?_⟩, fun s => ⟨fun h => ?_, fun p hp => ?_⟩,
    fun s => ?_, fun s i => ?_, fun s n h1 _ => ?_, fun s => ?_⟩
  · rw [windowSector_command, h]
    exact zeros_zero _ _
  · rw [windowSector_command, hr]
    exact ⟨readBack_zeros r, fun b hb => readBack_field r hb⟩
  · rw [windowSector_eq, if_neg Nat.one_ne_zero, if_pos rfl, h]
    exact zeros_zero _ _
  · obtain ⟨c1, c2, c3⟩ := reply_clear p
    have hs := shows_layout (reply_layable p)
    rw [← reply_shown hp] at hs
    unfold Reply.fields at hs
    rw [shows_append] at hs
    obtain ⟨hb, hd⟩ := hs
    refine ⟨reply_shown hp ▸ zeros_layout c1, reply_shown hp ▸ zeros_layout c2, hb,
      fun h => reply_shown hp ▸ zeros_layout (c3 h),
      fun _ _ _ h => ?_, fun _ _ h => ?_, fun _ h => ?_, fun _ _ _ _ h => ?_, fun _ h => ?_, fun _ _ h => ?_, fun _ h => ?_⟩
    all_goals
      rw [h] at hd
      simpa only [Details.fields, markCode_eq] using hd
  · obtain ⟨h1, h2⟩ := part_shows s
    obtain ⟨hfix, _, hre, hco, _⟩ := part_parts h1
    obtain ⟨o1, o2, o3, o4, o5, o6, o7⟩ := part_optional s
    refine ⟨h2 _ _ ?_, hfix, fun k => ?_, o1, o2, fun ⟨t, ht⟩ => ?_, fun ht => ?_, fun h => ?_, fun e h => ?_, fun h => ?_,
      fun p h => ?_, fun e h => ?_, fun h => ?_, fun h => ?_, fun d hd hlen => ?_⟩
    · unfold State.partFields; cases s.mon.refusal <;> rfl
    · have hk := hre _ (mem_kindFields k)
      rw [shows_cons, shows_cons, shows_nil, and_true]
      refine ⟨?_, hco _ (mem_kindFields k)⟩
      rw [Nat.one_mul] at hk
      refine hk.trans (congrArg (· % 2 ^ (8 * 1)) ?_)
      exact Vector.getElem_map Reaction.code k.isLt
    · rwa [stalled_of ht] at o3
    · rw [stalled_not ht] at o3; exact zeros_of_shows o3
    · rw [h] at o4; exact zeros_of_shows o4
    · rw [h] at o4; exact o4
    · rw [h] at o5; exact zeros_of_shows o5
    · rw [h] at o5; exact o5
    · rwa [epoch_of h] at o6
    · rw [epoch_not h] at o6; exact zeros_of_shows o6
    · have hz : s.remaining = 0 := by unfold State.remaining; rw [h]
      refine zeros_of_shows (n := 4) (shows_cons _ _ _ |>.mpr ⟨?_, (shows_nil _).mpr trivial⟩)
      rw [hz] at o7; exact o7
    · obtain ⟨_, _, _, _, _, _, n7⟩ := part_optional { s with freeReads := s.freeReads + 1 }
      have hle := remaining_le hd
      have hle' := remaining_le (s := { s with freeReads := s.freeReads + 1 }) hd
      rw [Nat.mod_eq_of_lt (by omega)] at o7 n7
      refine ⟨o7.trans_le hle, fun hf => ?_⟩
      rw [o7]
      exact n7.trans_le (remaining_next hd hf)
  · obtain ⟨h1, h2, h3⟩ := slot_shows s i
    obtain ⟨p1, p2⟩ := slot_parts h1
    obtain ⟨_, _, c1, c2⟩ := slotRing_layable (s.slot i) s.clock
    refine ⟨h3 _ _ (slotHead_clear _ _ (by omega)) c1, p1, fun h => ?_, fun x h => ?_, fun h => ?_, fun r hr => ?_⟩
    · exact h3 _ _ (by unfold TitleSlot.headFields; rw [h]; rfl) c2
    · rw [h] at p2; exact p2
    · exact h3 _ _ (slotHead_clear _ _ (Nat.le_refl _)) (by unfold TitleSlot.ringFields; rw [h]; rfl)
    · obtain ⟨r1, r2, r3, r4⟩ := ring_shown hr
      rw [ringFields_eq] at r4
      refine ⟨r1, fun h => ?_, fun h hh => ?_⟩
      · have ho : r.oldestReadable s.clock = none := by unfold Ring.oldestReadable; rw [h]
        rw [h, ho] at r4
        exact ⟨r4 _ _ (by omega) rfl, r4 _ _ (by omega) rfl⟩
      · rw [hh] at r2 r4
        refine ⟨r2, fun ha => ?_, fun younger k older ha hk ho => ?_⟩
        · rw [oldest_none hh ha] at r4
          exact ⟨r4 _ _ (by omega) rfl, r4 _ _ (by omega) rfl⟩
        · rw [oldest_some hh ha hk ho] at r3 r4
          unfold Option.elim Ring.oldFields at r3 r4
          dsimp only at r3 r4
          rw [shows_append] at r3
          refine ⟨r3.1, fun hf => ?_, fun f hf => ?_⟩
          · rw [hf] at r4
            exact ⟨r4 _ _ (by omega) rfl, r4 _ _ (by omega) rfl⟩
          · rw [hf] at r3; exact r3.2
  · rw [windowSector_last s h1]; exact zeros_zero _ _
  · unfold State.alert
    simp [or_assoc]

end Sys2Proof.Machine
end

section
/-!
SUPPORT. The extent map as a list: what keeps it sorted, disjoint, not empty and below the control window (R29, R30,
R34, R36).
-/

namespace Sys2Proof.Machine

/-! ### Runs of units that meet -/

theorem sharesUnit_false {a la b lb : Nat} : sharesUnit a la b lb = false ↔ b + lb ≤ a ∨ a + la ≤ b := by
  unfold sharesUnit
  rw [← Bool.decide_and, decide_eq_false_iff_not]
  omega

theorem sharesUnit_comm (a la b lb : Nat) : sharesUnit a la b lb = sharesUnit b lb a la := Bool.and_comm _ _

theorem meets_eq_none {map : List Extent} {a k : Nat} :
    meets map a k = none ↔ ∀ e ∈ map, sharesUnit a k e.start e.len = false := by
  simp [meets]

/-! ### Lists of extents (R29, R30) -/

/-- A list of extents is sorted and disjoint, and its extents are not empty and end at unit w or below. -/
structure MapUpTo (w : Nat) (m : List Extent) : Prop where
  sorted : m.Pairwise fun a b => a.stop ≤ b.start
  held : ∀ e ∈ m, 1 ≤ e.len ∧ e.stop ≤ w

theorem State.mapOk_iff {s : State} : s.MapOk ↔ MapUpTo s.windowUnit s.map :=
  ⟨fun ⟨h1, h2⟩ => ⟨h1, h2⟩, fun ⟨h1, h2⟩ => ⟨h1, h2⟩⟩

theorem MapUpTo.sublist {w : Nat} {m m' : List Extent} (h : MapUpTo w m) (hm : m'.Sublist m) : MapUpTo w m' :=
  ⟨h.sorted.sublist hm, fun e he => h.held e (hm.subset he)⟩

/-- Below unit 0 there is no extent. -/
theorem MapUpTo.eq_nil {m : List Extent} (h : MapUpTo 0 m) : m = [] := by
  refine List.eq_nil_iff_forall_not_mem.mpr fun e he => ?_
  obtain ⟨h1, h2⟩ := h.held e he
  unfold Extent.stop at h2
  omega

theorem mem_insertExtent {e x : Extent} {m : List Extent} : x ∈ insertExtent e m ↔ x = e ∨ x ∈ m := by
  rw [(insertExtent_perm e m).mem_iff, List.mem_cons]

/-- An extent that meets none enters at its place. -/
theorem insertExtent_sorted {e : Extent} (he : 1 ≤ e.len) : ∀ {m : List Extent},
    (m.Pairwise fun a b => a.stop ≤ b.start) → (∀ x ∈ m, 1 ≤ x.len) →
    (∀ x ∈ m, sharesUnit e.start e.len x.start x.len = false) →
    (insertExtent e m).Pairwise fun a b => a.stop ≤ b.start
  | [], _, _, _ => List.pairwise_singleton _ _
  | x :: xs, hs, hl, hf => by
    obtain ⟨hx, hxs⟩ := List.pairwise_cons.mp hs
    have apart : ∀ y ∈ x :: xs, y.stop ≤ e.start ∨ e.stop ≤ y.start := fun y hy => sharesUnit_false.mp (hf y hy)
    have long : ∀ y ∈ x :: xs, y.start < y.stop := fun y hy => Nat.lt_add_of_pos_right (hl y hy)
    have hxl := long x List.mem_cons_self
    have hel : e.start < e.stop := Nat.lt_add_of_pos_right he
    unfold insertExtent
    split
    · refine List.pairwise_cons.mpr ⟨fun y hy => ?_, hs⟩
      have hxy : x.start ≤ y.start := by
        rcases List.mem_cons.mp hy with rfl | hy
        · exact Nat.le_refl _
        · have := hx y hy; omega
      have := apart y hy
      have := long y hy
      omega
    · refine List.pairwise_cons.mpr ⟨fun y hy => ?_, insertExtent_sorted he hxs
        (fun y hy => hl y (List.mem_cons_of_mem _ hy)) fun y hy => hf y (List.mem_cons_of_mem _ hy)⟩
      rcases mem_insertExtent.mp hy with rfl | hy
      · have := apart x List.mem_cons_self
        omega
      · exact hx y hy

theorem MapUpTo.insertExtent {w : Nat} {m : List Extent} (h : MapUpTo w m) {e : Extent} (h1 : 1 ≤ e.len)
    (h2 : e.stop ≤ w) (hf : ∀ x ∈ m, sharesUnit e.start e.len x.start x.len = false) :
    MapUpTo w (insertExtent e m) := by
  refine ⟨insertExtent_sorted h1 h.sorted (fun x hx => (h.held x hx).1) hf, fun x hx => ?_⟩
  rcases mem_insertExtent.mp hx with rfl | hx
  · exact ⟨h1, h2⟩
  · exact h.held x hx

/-- The extents of a record that fit the map and do not meet each other enter it (R36). -/
theorem MapUpTo.insertExtents {w : Nat} (i : SlotIx) : ∀ {es : List RecExtent} {m : List Extent}, MapUpTo w m →
    soundExtents es →
    (∀ e ∈ es, (∀ x ∈ m, sharesUnit e.start e.len x.start x.len = false) ∧ e.start + e.len ≤ w) →
    MapUpTo w (insertExtents i es m)
  | [], _, h, _, _ => h
  | e :: es, m, h, ⟨hl, hp⟩, hf => by
    obtain ⟨hpe, hpes⟩ := List.pairwise_cons.mp hp
    obtain ⟨he1, he2⟩ := hf e List.mem_cons_self
    have step := h.insertExtent (e := { start := e.start, len := e.len, slot := i, first := e.first })
      (hl e List.mem_cons_self) he2 he1
    show MapUpTo w (Machine.insertExtents i es (Machine.insertExtent _ m))
    refine MapUpTo.insertExtents i step ⟨fun x hx => hl x (List.mem_cons_of_mem _ hx), hpes⟩ fun y hy => ?_
    obtain ⟨hy1, hy2⟩ := hf y (List.mem_cons_of_mem _ hy)
    refine ⟨fun x hx => ?_, hy2⟩
    rcases mem_insertExtent.mp hx with rfl | hx
    · rw [sharesUnit_comm]; exact hpe y hy
    · exact hy1 x hx

/-- An extent that a run of units follows is lengthened by it (R34). -/
theorem MapUpTo.lengthen {w : Nat} {m : List Extent} (h : MapUpTo w m) {e : Extent} {k : Nat} (hw : e.stop + k ≤ w)
    (hf : ∀ x ∈ m, sharesUnit e.stop k x.start x.len = false) :
    MapUpTo w (m.map fun x => if x = e then { x with len := x.len + k } else x) := by
  have start : ∀ x : Extent, (if x = e then { x with len := x.len + k } else x).start = x.start := fun x => by
    split <;> rfl
  have stop : ∀ x : Extent, (if x = e then { x with len := x.len + k } else x).stop =
      if x = e then x.stop + k else x.stop := fun x => by
    unfold Extent.stop
    split
    · exact (Nat.add_assoc _ _ _).symm
    · rfl
  refine ⟨List.pairwise_map.mpr (h.sorted.imp_of_mem fun {x y} _ hy hxy => ?_), fun x hx => ?_⟩
  · rw [start, stop]
    split
    · rename_i hxe
      have hyl := (h.held y hy).1
      have := sharesUnit_false.mp (hf y hy)
      rw [hxe] at hxy ⊢
      omega
    · exact hxy
  · obtain ⟨y, hy, rfl⟩ := List.mem_map.mp hx
    obtain ⟨h1, h2⟩ := h.held y hy
    rw [stop]
    split
    · rename_i hye
      exact ⟨Nat.le_add_right_of_le h1, by rw [hye]; exact hw⟩
    · exact ⟨h1, h2⟩

theorem grows_some {map : List Extent} {i : SlotIx} {a : Nat} {e : Extent} :
    grows map i a = some e ↔ (slotExtents map i).getLast? = some e ∧ e.stop = a := by
  unfold grows lastExtent
  cases (slotExtents map i).getLast? with
  | none => simp
  | some x =>
    dsimp only
    by_cases h : x.stop = a
    · rw [if_pos h, Option.some.injEq]
      exact ⟨fun e => ⟨e, e ▸ h⟩, fun e => e.1⟩
    · rw [if_neg h, Option.some.injEq]
      exact ⟨nofun, fun e => absurd (e.1 ▸ e.2) h⟩

/-- A run that meets no extent joins the map (R34). -/
theorem MapUpTo.addRun {w : Nat} {m : List Extent} (h : MapUpTo w m) {a k : Nat} (i : SlotIx) (n : Nat) (hk : 1 ≤ k)
    (hw : a + k ≤ w) (hf : ∀ e ∈ m, sharesUnit a k e.start e.len = false) : MapUpTo w (addRun m i a k n) := by
  unfold Machine.addRun
  split
  · rename_i e he
    obtain ⟨_, rfl⟩ := grows_some.mp he
    exact h.lengthen hw hf
  · exact h.insertExtent hk hw hf

end Sys2Proof.Machine
end

section
/-!
SUPPORT. `KeepsMap s t`: the extent map stays sorted, disjoint, not empty and below the control window in going from s
to t. Each operation of a step keeps it so (R11, R29, R30, R36).
-/

namespace Sys2Proof.Machine

/-! ### Changes that keep the map -/

/-- In going from s to t the map stays sorted, disjoint, not empty and below the control window (R29, R30). -/
def KeepsMap (s t : State) : Prop := s.MapOk → t.MapOk

namespace KeepsMap

theorem refl (s : State) : KeepsMap s s := id

theorem trans {s t u : State} (h : KeepsMap s t) (k : KeepsMap t u) : KeepsMap s u := fun hs => k (h hs)

theorem foldl {α : Type} {f : State → α → State} (hf : ∀ s a, KeepsMap s (f s a)) :
    ∀ (l : List α) (s : State), KeepsMap s (l.foldl f s)
  | [], s => .refl s
  | a :: l, s => (hf s a).trans (foldl hf l (f s a))

/-- Extents that leave the map leave it so. -/
theorem of_sublist {s t : State} (hm : t.map.Sublist s.map) (hi : t.identity = s.identity) : KeepsMap s t := by
  have hw : t.windowUnit = s.windowUnit := by
    unfold State.windowUnit State.windowBase State.presented State.topUnit State.driveCapacity; rw [hi]
  intro h
  rw [State.mapOk_iff] at h ⊢
  rw [hw]
  exact h.sublist hm

theorem of_same {s t : State} (hm : t.map = s.map) (hi : t.identity = s.identity) : KeepsMap s t :=
  of_sublist (by rw [hm]) hi

end KeepsMap

theorem TMove.map_sublist {s t : State} (h : TMove s t) : t.map.Sublist s.map := by
  cases h with
  | map m hm => exact hm
  | _ => exact .refl _

theorem Traffic.keepsMap {s t : State} (h : Traffic s t) : KeepsMap s t := by
  induction h with
  | refl => exact .refl _
  | tail _ m ih => exact ih.trans (.of_sublist m.map_sublist m.keeps.identity)

theorem State.ServiceWork.keepsMap {s t : State} (h : s.ServiceWork t) : KeepsMap s t :=
  .of_same h.map (by rw [h.rest])

theorem Begun.keepsMap {s t : State} (h : Begun s t) : KeepsMap s t := by
  unfold Begun at h
  exact .of_same (by rw [h]) (by rw [h])

theorem Violated.keepsMap {s t : State} (h : Violated s t) : KeepsMap s t := .of_same (by rw [h.rest]) (by rw [h.rest])

theorem LoadOver.keepsMap {s t : State} (h : LoadOver s t) : KeepsMap s t := .of_same h.map (by rw [h.rest])

theorem keepsMap_drawNonce (s : State) : KeepsMap s s.drawNonce := .of_same rfl rfl
theorem keepsMap_drawn (s : State) : KeepsMap s s.drawn := .of_same rfl rfl
theorem keepsMap_setFlag (s : State) (f : EventFlag) : KeepsMap s (s.setFlag f) := .of_same rfl rfl
theorem keepsMap_setSlot (s : State) (i : SlotIx) (x : TitleSlot) : KeepsMap s (s.setSlot i x) := .of_same rfl rfl
theorem keepsMap_modSlot (s : State) (i : SlotIx) (f : TitleSlot → TitleSlot) : KeepsMap s (s.modSlot i f) :=
  .of_same rfl rfl

/-! ### The monitor, refusals and expiry (chapters 9 and 10) -/

theorem keepsMap_violate (k : Violation) (named : List SlotIx) (s : State) : KeepsMap s (violate k named s) :=
  (violated_violate k named s).keepsMap

theorem keepsMap_refuse (t : HostTag) (lba count : Nat) (r : Reason) (named : List SlotIx) (s : State) :
    KeepsMap s (refuse t lba count r named s) := by
  have h := refuses_refuse t lba count r named s
  exact .of_same (by rw [h.rest]) (by rw [h.rest])

theorem keepsMap_refuseAt (t : HostTag) (r : Reason) (range : Option Range) (s : State) :
    KeepsMap s (refuseAt t r range s) := by
  unfold refuseAt; split <;> exact keepsMap_refuse _ _ _ _ _ _

theorem keepsMap_catalogueDamaged (s : State) : KeepsMap s (catalogueDamaged s) :=
  (keepsMap_violate _ _ _).trans (keepsMap_setFlag _ _)

theorem keepsMap_expireSlot (i : SlotIx) (s : State) : KeepsMap s (expireSlot i s) := by
  unfold expireSlot startDrain; split
  · exact ((keepsMap_setFlag _ _).trans (keepsMap_modSlot _ _ _)).trans (traffic_drainTest _ _).keepsMap
  · exact .refl s

theorem keepsMap_expiryTest (s : State) : KeepsMap s (expiryTest s) :=
  .foldl (fun s i => keepsMap_expireSlot i s) _ s

theorem keepsMap_enterActive (i : SlotIx) (s : State) : KeepsMap s (enterActive i s) :=
  (keepsMap_modSlot _ _ _).trans (keepsMap_expireSlot _ _)

/-- A change of a slot that is stored, and a command that waits for the store. -/
theorem keepsMap_changeAndStore (i : SlotIx) (n : Nat) (f : TitleSlot → TitleSlot) (s : State) :
    KeepsMap s (changeAndStore i n f s) := by
  rw [changeAndStore_eq]
  exact (keepsMap_setSlot _ _ _).trans (serviceWork_requestOp _ _ _ _).keepsMap

theorem keepsMap_storeChange (st : Stage) (i : SlotIx) (n : Nat) (f : TitleSlot → TitleSlot) (s : State) :
    KeepsMap s (setStage st (changeAndStore i n f s)) :=
  (keepsMap_changeAndStore i n f s).trans (traffic_setStage _ _).keepsMap

theorem keepsMap_enterIdle (i : SlotIx) (s : State) : KeepsMap s (enterIdle i s) := (traffic_enterIdle i s).keepsMap

/-! ### Admission (chapter 4) -/

theorem keepsMap_enterTable (c : Cmd) (s : State) : KeepsMap s (enterTable c s) := (begun_enterTable c s).keepsMap

theorem keepsMap_applyTrial (x : Tested) (s : State) : KeepsMap s (applyTrial x s) := by
  unfold applyTrial rekeySlot
  split
  · split <;> exact .of_same rfl rfl
  · exact .refl s

theorem keepsMap_countExpired (c : Cmd) (s : State) : KeepsMap s (countExpired c s) := by
  unfold countExpired; split
  · exact keepsMap_violate _ _ _
  · exact .refl s

theorem keepsMap_admitData (write : Bool) (t : HostTag) (lba count : Nat) (xs : List Tested) (s : State) :
    KeepsMap s (admitData write t lba count xs s) := by
  rw [admitData_eq]
  dsimp only
  refine KeepsMap.trans ?_ (keepsMap_enterTable _ _)
  refine KeepsMap.trans ?_ (keepsMap_countExpired _ _)
  refine (KeepsMap.foldl (fun s x => keepsMap_applyTrial x s) xs s).trans (.foldl (fun s p => ?_) _ _)
  exact .of_same (by rw [raiseFlight_rest]) (by rw [raiseFlight_rest])

theorem keepsMap_admitBelow (write : Bool) (t : HostTag) (lba count : Nat) (s : State) :
    KeepsMap s (admitBelow write t lba count s) := by
  unfold admitBelow
  dsimp only
  split
  · exact keepsMap_refuse _ _ _ _ _ _
  · split
    · exact keepsMap_refuse _ _ _ _ _ _
    · exact keepsMap_admitData _ _ _ _ _ _

theorem keepsMap_admitRange (write : Bool) (t : HostTag) (lba count : Nat) (s : State) :
    KeepsMap s (admitRange write t lba count s) := by
  unfold admitRange
  split
  · exact keepsMap_refuse _ _ _ _ _ _
  · split
    · split
      · split
        · exact .of_same rfl rfl
        · exact keepsMap_refuse _ _ _ _ _ _
      · split
        · exact keepsMap_enterTable _ _
        · exact keepsMap_refuse _ _ _ _ _ _
    · exact keepsMap_admitBelow _ _ _ _ _

theorem keepsMap_takeKind (a : Arrival) (s : State) : KeepsMap s (takeKind a s) := by
  unfold takeKind
  split
  · exact keepsMap_admitRange _ _ _ _ _
  · exact keepsMap_admitRange _ _ _ _ _
  · exact .of_same rfl rfl
  · exact keepsMap_enterTable _ _
  · split <;> [exact keepsMap_refuseAt _ _ _ _; exact keepsMap_enterTable _ _]
  · split <;> [exact keepsMap_refuseAt _ _ _ _; exact keepsMap_enterTable _ _]
  · exact keepsMap_refuseAt _ _ _ _

theorem keepsMap_takeCommand (a : Arrival) (s : State) : KeepsMap s (takeCommand a s) := by
  unfold takeCommand; split
  · exact keepsMap_refuseAt _ _ _ _
  · exact keepsMap_takeKind _ _

theorem keepsMap_arriveAndPump (a : Arrival) (s : State) : KeepsMap s (arriveAndPump a s) := by
  refine KeepsMap.trans ?_ (traffic_pump _).keepsMap
  unfold arrive
  split
  · split
    · exact .of_same rfl rfl
    · exact keepsMap_takeCommand _ _
  · exact .refl s

theorem keepsMap_takeHeldList : ∀ (as : List Arrival) (s : State), KeepsMap s (takeHeldList as s)
  | [], s => .refl s
  | a :: as, s => by
    unfold takeHeldList; split
    · exact .of_same rfl rfl
    · exact (keepsMap_takeCommand a s).trans (keepsMap_takeHeldList as _)

theorem keepsMap_takeHeld (s : State) : KeepsMap s (takeHeld s) :=
  KeepsMap.trans (t := { s with host := { s.host with held := [] } }) (.of_same rfl rfl) (keepsMap_takeHeldList _ _)

theorem keepsMap_rangeSector (rs : List Range) (s : State) : KeepsMap s (rangeSector rs s) := by
  unfold rangeSector
  split
  · split
    · refine KeepsMap.trans ?_ (traffic_pump _).keepsMap
      unfold rangeSectorArrives
      dsimp only
      refine KeepsMap.trans ?_ (keepsMap_takeHeld _)
      refine KeepsMap.trans (t := { s with host := { s.host with rangeSector := none } }) (.of_same rfl rfl) ?_
      split
      · exact ((traffic_completionDue _ _).trans (traffic_sendAll _)).keepsMap
      · split
        · exact keepsMap_refuse _ _ _ _ _ _
        · exact keepsMap_enterTable _ _
    · exact .refl s
  · exact .refl s

/-! ### Service operations that end (chapter 8) -/

theorem keepsMap_headerEnd (h : HeaderCopy) (s : State) : KeepsMap s (headerEnd h s) := by
  unfold headerEnd
  dsimp only
  refine KeepsMap.trans ?_ (keepsMap_takeHeld _)
  refine KeepsMap.trans (t := dropClaims .header { s with cat := { s.cat with header := h } }) (.of_same rfl rfl) ?_
  split
  · exact (keepsMap_catalogueDamaged _).trans (.of_same rfl rfl)
  · exact .of_same rfl rfl

theorem keepsMap_sweepTo : ∀ (n j : Nat) (s : State), KeepsMap s (sweepTo n j s)
  | 0, _, _ => .of_same rfl rfl
  | n + 1, j, s => by
    unfold sweepTo; split
    · exact keepsMap_sweepTo n _ s
    · exact KeepsMap.trans (t := takeClaim j .sweep { s with cat := { s.cat with progress := j } }) (.of_same rfl rfl)
        (serviceWork_requestOp _ _ _ _).keepsMap

theorem keepsMap_sweepOn (j : Nat) (s : State) : KeepsMap s (sweepOn j s) := by
  rw [sweepOn_eq]
  exact (serviceWork_handIndex j s).keepsMap.trans (keepsMap_sweepTo _ _ _)

theorem keepsMap_failLoading (i : SlotIx) (x : Result) (s : State) : KeepsMap s (failLoading i x s) :=
  (traffic_failLoading i x s).keepsMap

theorem keepsMap_makeTitle (i : SlotIx) (r : Sector) (s : State) : KeepsMap s (makeTitle i r s) :=
  (keepsMap_drawn s).trans (keepsMap_storeChange _ _ _ _ _)

theorem keepsMap_createLoaded (i : SlotIx) (r : Sector) (o : LoadOutcome) (s : State) :
    KeepsMap s (createLoaded i r o s) := by
  unfold createLoaded
  split
  · exact keepsMap_makeTitle _ _ _
  · split <;> [exact keepsMap_makeTitle _ _ _; exact keepsMap_failLoading _ _ _]
  · exact keepsMap_failLoading _ _ _
  · exact keepsMap_failLoading _ _ _

/-- Extents of which none is unfit all fit (R36). -/
theorem fits_of_firstUnfit {s : State} : ∀ {es : List RecExtent} {n : Nat}, s.firstUnfit n es = none →
    ∀ e ∈ es, s.fits e
  | [], _, _, e, he => absurd he List.not_mem_nil
  | y :: es, n, h, e, he => by
    unfold State.firstUnfit at h
    split at h
    · cases h
    · rename_i hy
      rcases List.mem_cons.mp he with rfl | he
      · unfold State.extentMeets at hy
        split at hy
        · cases hy
        · rename_i hm
          refine ⟨meets_eq_none.mp hm, ?_⟩
          by_contra hw
          rw [if_pos (Nat.lt_of_not_le hw)] at hy
          cases hy
      · exact fits_of_firstUnfit h e he

/-- A title opened with sound extents: they enter the map only where all of them fit (R36). -/
theorem keepsMap_openTitle {i : SlotIx} {x : TitleFields} (hx : soundExtents x.extents) (s : State) :
    KeepsMap s (openTitle i x s) := by
  have idle : ∀ r d, KeepsMap s (answerWith .load i r d (enterIdle i s)) := fun r d =>
    (keepsMap_enterIdle i s).trans (traffic_answerWith _ _ _ _ _).keepsMap
  unfold openTitle
  dsimp only
  split
  · exact idle _ _
  · split
    · exact idle _ _
    · rename_i hfit
      refine KeepsMap.trans ?_ (traffic_answer _ _ _ _).keepsMap
      refine KeepsMap.trans (t := { s with map := insertExtents i x.extents s.map }) (fun hs => ?_)
        ((keepsMap_modSlot _ _ _).trans (keepsMap_enterActive _ _))
      exact State.mapOk_iff.mpr ((State.mapOk_iff.mp hs).insertExtents i hx (fits_of_firstUnfit hfit))

/-- What a LOAD has found is a title with sound extents, or no title. -/
def LoadOutcome.Sound (o : LoadOutcome) : Prop := ∀ x, o = .title x → soundExtents x.extents

theorem keepsMap_openLoaded {i : SlotIx} {o : LoadOutcome} (ho : o.Sound) (s : State) :
    KeepsMap s (openLoaded i o s) := by
  unfold openLoaded
  split
  · exact keepsMap_failLoading _ _ _
  · exact keepsMap_failLoading _ _ _
  · exact keepsMap_failLoading _ _ _
  · split
    · exact (serviceWork_requestOp _ _ _ _).keepsMap.trans (traffic_setStage _ _).keepsMap
    · exact keepsMap_openTitle (ho _ rfl) s

theorem keepsMap_slotLoaded {i : SlotIx} {o : LoadOutcome} (ho : o.Sound) (s : State) :
    KeepsMap s (slotLoaded i o s) := by
  unfold slotLoaded
  split
  · split <;> [exact keepsMap_createLoaded _ _ _ _; exact keepsMap_openLoaded ho s]
  · exact keepsMap_openLoaded ho s
  all_goals exact .refl s

theorem keepsMap_sweepLoaded (j : Nat) (o : LoadOutcome) (s : State) : KeepsMap s (sweepLoaded j o s) := by
  unfold sweepLoaded
  split
  · split <;> [exact (serviceWork_requestOp _ _ _ _).keepsMap; exact keepsMap_sweepOn _ _]
  all_goals exact keepsMap_sweepOn _ _

theorem keepsMap_loadEnd (f : Flight) (i : Nat) {o : LoadOutcome} (ho : o.Sound) (s : State) :
    KeepsMap s (loadEnd f i o s) := by
  have h := (loadOver_spec f o s).keepsMap
  cases hk : f.op.owner with
  | slot k => rw [loadEnd_of_slot hk]; exact h.trans (keepsMap_slotLoaded ho _)
  | sweep => rw [loadEnd_of_sweep hk]; exact h.trans (keepsMap_sweepLoaded _ _ _)
  | header => unfold loadEnd; rw [hk]; exact h

theorem keepsMap_flagFailed (good : Bool) (s : State) : KeepsMap s (flagFailed good s) := by
  unfold flagFailed; split
  · exact .refl s
  · exact keepsMap_setFlag _ _

theorem keepsMap_slotStored (i : SlotIx) (good : Bool) (s : State) : KeepsMap s (slotStored i good s) := by
  unfold slotStored
  split
  · split
    · exact ((keepsMap_modSlot _ _ _).trans (keepsMap_enterActive _ _)).trans (traffic_answer _ _ _ _).keepsMap
    · exact (traffic_idleWith _ _ _ _).keepsMap
  · exact (traffic_idleWith _ _ _ _).keepsMap
  all_goals exact (traffic_storeSettled _ _ _).keepsMap

/-- The end of a write's flight, with STORE_FAILED at a failure. -/
theorem keepsMap_writeOver (f : Flight) (good : Bool) (s : State) : KeepsMap s (flagFailed good (endFlight f.tag s)) :=
  (traffic_endFlight _ _).keepsMap.trans (keepsMap_flagFailed _ _)

theorem keepsMap_storeEnd (f : Flight) (good : Bool) (s : State) : KeepsMap s (storeEnd f good s) := by
  unfold storeEnd
  refine KeepsMap.trans ?_ (traffic_storeEnded _ _).keepsMap
  refine (keepsMap_writeOver f good s).trans ?_
  split
  · exact keepsMap_slotStored _ _ _
  · exact .refl _
  · exact .refl _

theorem keepsMap_eraseEnd (f : Flight) (i : Nat) (good : Bool) (s : State) : KeepsMap s (eraseEnd f i good s) := by
  unfold eraseEnd
  refine (keepsMap_writeOver f good s).trans ?_
  split
  · exact (traffic_slotErased _ _ _).keepsMap
  · unfold sweepErased
    refine KeepsMap.trans ?_ (keepsMap_sweepOn _ _)
    split <;> exact .of_same rfl rfl
  · exact .refl _

theorem keepsMap_headerWriteEnd (f : Flight) (e : Nat) (good : Bool) (s : State) :
    KeepsMap s (headerWriteEnd f e good s) := by
  have h := ((traffic_endFlight f.tag s).trans (traffic_dropClaims .header _)).keepsMap
  unfold headerWriteEnd
  dsimp only
  refine h.trans ?_
  split
  · refine KeepsMap.trans ?_ (traffic_finishFormat _ _ _).keepsMap
    exact .of_same rfl rfl
  · exact (traffic_finishFormat _ _ _).keepsMap

theorem sound_drive : LoadOutcome.drive.Sound := fun _ h => nomatch h

theorem keepsMap_opFailed (f : Flight) (s : State) : KeepsMap s (opFailed f s) := by
  unfold opFailed
  split
  · exact keepsMap_loadEnd _ _ sound_drive _
  · exact keepsMap_storeEnd _ _ _
  · exact keepsMap_eraseEnd _ _ _ _
  · exact (traffic_endFlight _ _).keepsMap.trans (keepsMap_headerEnd _ _)
  · exact keepsMap_headerWriteEnd _ _ _ _

theorem keepsMap_opWritten (f : Flight) (s : State) : KeepsMap s (opWritten f s) := by
  unfold opWritten
  split
  · exact keepsMap_storeEnd _ _ _
  · exact keepsMap_eraseEnd _ _ _ _
  · exact keepsMap_headerWriteEnd _ _ _ _
  all_goals exact .refl s

/-- A unit read keeps the map where it holds a title with sound extents, or none. -/
theorem keepsMap_opRead {f : Flight} {u : DiskUnit} {s : State}
    (h : ∀ i, f.op.kind = .load i → (s.classify i u).Sound) : KeepsMap s (opRead f u s) := by
  unfold opRead
  split
  · rename_i i hk
    exact (traffic_setKnownGen _ _ _).keepsMap.trans (keepsMap_loadEnd _ _ (h i hk) _)
  · exact (traffic_endFlight _ _).keepsMap.trans (keepsMap_headerEnd _ _)
  all_goals exact .refl s

theorem keepsMap_failOp (n : Nat) (s : State) : KeepsMap s (failOp n s) := by
  unfold failOp; split
  · exact keepsMap_opFailed _ _
  · exact .refl s

theorem flight?_mem {s : State} {t : SvcTag} {f : Flight} (h : s.flight? t = some f) : f ∈ s.cat.flights :=
  List.mem_of_find?_eq_some h

theorem keepsMap_serviceJobEnd {s : State} (h : s.ReadsSound) (t : SvcTag) : KeepsMap s (serviceJobEnd t s) := by
  unfold serviceJobEnd
  split
  · exact .refl s
  · rename_i f hf
    split
    · exact ((traffic_modFlight _ _ _).trans (traffic_joinQueue _ _)).keepsMap
    · rename_i u hu
      exact keepsMap_opRead fun i hk x hx => h f (flight?_mem hf) i u x hk hu hx
    · exact .refl s

/-- The end of a job: the one step that may open a title (R36, R138). -/
theorem keepsMap_laneEnds {s : State} (h : s.ReadsSound) (l : Fin 2) : KeepsMap s (laneEnds l s) := by
  unfold laneEnds
  split
  · split
    · refine KeepsMap.trans ?_ (traffic_refillLane _ _).keepsMap
      unfold handBack
      split
      · exact (traffic_hostJobEnd _ _ _).keepsMap
      · exact keepsMap_serviceJobEnd h _
    · exact .refl s
  · exact .refl s

/-- A unit whose clear part decides holds no title (R146). -/
theorem classify_of_needsJob {s : State} {i : Nat} {u : DiskUnit} (h : s.needsJob (.load i) u = false) :
    s.classify i u = .empty := by
  unfold State.classify
  exact if_pos (Bool.not_eq_eq_eq_not.mp h)

theorem keepsMap_unitRead (f : Flight) (u : DiskUnit) (s : State) : KeepsMap s (unitRead f u s) := by
  unfold unitRead
  split
  · exact ((traffic_modFlight _ _ _).trans (traffic_submitJob _ _)).keepsMap
  · rename_i hj
    refine keepsMap_opRead fun i hk => ?_
    rw [hk] at hj
    rw [classify_of_needsJob (Bool.eq_false_iff.mpr hj)]
    exact fun _ h => nomatch h

theorem keepsMap_serviceFails (f : Flight) (s : State) : KeepsMap s (serviceFails f s) :=
  ((traffic_driveCompletes _ _).trans (traffic_driveReportsError _ _)).keepsMap.trans (keepsMap_failOp _ _)

theorem keepsMap_serviceReadEnds (t : SvcTag) (u : Option DiskUnit) (s : State) :
    KeepsMap s (serviceReadEnds t u s) := by
  unfold serviceReadEnds
  split
  · exact .refl s
  · split
    · split
      · exact (traffic_driveCompletes _ _).keepsMap.trans (keepsMap_unitRead _ _ _)
      · exact keepsMap_serviceFails _ _
    · exact .refl s

theorem traffic_emitWritten (f : Flight) (s : State) : Traffic s (emitWritten f s) := by
  unfold emitWritten; split
  · exact traffic_emit _ _
  all_goals exact .refl

theorem keepsMap_serviceWriteEnds (t : SvcTag) (good : Bool) (s : State) :
    KeepsMap s (serviceWriteEnds t good s) := by
  unfold serviceWriteEnds
  split
  · exact .refl s
  · split
    · exact .refl s
    · split
      · exact ((traffic_driveCompletes _ _).trans (traffic_emitWritten _ _)).keepsMap.trans (keepsMap_opWritten _ _)
      · exact keepsMap_serviceFails _ _

/-! ### The drive link, time and resets (chapters 4, 8, 9 and 11) -/

theorem keepsMap_resetDriveLink (s : State) : KeepsMap s (resetDriveLink s) := by
  unfold resetDriveLink
  dsimp only
  refine KeepsMap.trans ?_ (Traffic.foldl (fun s t => traffic_failCommand t _ s) _ _).keepsMap
  refine KeepsMap.trans ?_ ((traffic_emit _ _).trans (traffic_failingKnown _ _)).keepsMap
  refine KeepsMap.trans ?_ (traffic_stopLink _).keepsMap
  exact .of_same rfl rfl

theorem keepsMap_resetAndPump (s : State) : KeepsMap s (pump (resetDriveLink s)) :=
  (keepsMap_resetDriveLink s).trans (traffic_pump _).keepsMap

theorem keepsMap_errorRecordFails (s : State) : KeepsMap s (errorRecordFails s) := by
  unfold errorRecordFails; split
  · exact keepsMap_resetAndPump s
  · exact .refl s

theorem keepsMap_holdEnds (s : State) : KeepsMap s (holdEnds s) := by
  unfold holdEnds; split
  · exact .refl s
  · exact keepsMap_resetAndPump s

theorem keepsMap_timerEnds (t : SvcTag) (s : State) : KeepsMap s (timerEnds t s) := by
  unfold timerEnds
  split
  · exact .refl s
  · split
    · split
      · exact (traffic_modFlight _ _ _).keepsMap.trans (keepsMap_resetAndPump _)
      · refine KeepsMap.trans ?_ (traffic_pump _).keepsMap
        refine KeepsMap.trans ?_ (keepsMap_failOp _ _)
        exact (keepsMap_resetDriveLink s).trans (.of_same rfl rfl)
    · exact .refl s

theorem keepsMap_linkBack (s : State) : KeepsMap s (linkBack s) := by
  unfold linkBack
  split
  · dsimp only
    refine KeepsMap.trans ?_ (Traffic.foldl (fun s n => traffic_restartOp n s) _ _).keepsMap
    exact (traffic_reissueOps s.drive.reissue s).keepsMap.trans (.of_same rfl rfl)
  · exact .refl s

theorem keepsMap_noAnswer (s : State) : KeepsMap s (noAnswer s) := by
  unfold noAnswer
  split
  · dsimp only
    refine KeepsMap.trans ?_ (traffic_pump _).keepsMap
    refine KeepsMap.trans ?_ (.foldl (fun s n => keepsMap_failOp n s) _ _)
    exact .of_same rfl rfl
  · exact .refl s

theorem keepsMap_takeUnit (data : List Sector) (s : State) : KeepsMap s (takeUnit data s) := by
  unfold takeUnit
  split
  · exact .refl s
  · split
    · split
      · dsimp only
        refine (traffic_endHostXfer s).keepsMap.trans ?_
        split
        · unfold handOver
          refine KeepsMap.trans ?_ (traffic_freeFrame _ _).keepsMap
          exact .of_same rfl rfl
        · exact (traffic_intakeWhole _ _ _ _).keepsMap
      · exact .refl s
    · exact .refl s

theorem keepsMap_tickClock (s : State) : KeepsMap s (tickClock s) := by
  unfold tickClock
  split
  · exact .refl s
  · refine KeepsMap.trans ?_ (traffic_pump _).keepsMap
    refine KeepsMap.trans ?_ (keepsMap_expiryTest _)
    exact .of_same rfl rfl

theorem keepsMap_deadlineEnds (s : State) : KeepsMap s (deadlineEnds s) := by
  unfold deadlineEnds
  split
  · refine KeepsMap.trans ?_ (traffic_pump _).keepsMap
    exact .of_same (by rw [deadlineReached_rest]) (by rw [deadlineReached_rest])
  · exact .refl s

/-- The identity of the drive fixes the control window; before it there is no extent (R142). -/
theorem keepsMap_takeIdentity {s : State} (h : s.identity = none) (d : Identity) : KeepsMap s (takeIdentity d s) := by
  refine KeepsMap.trans
    (t := takeClaim 0 .header { s with identity := some d, drive := { s.drive with asking := false } })
    (fun hs => ?_) (serviceWork_requestOp _ _ _ _).keepsMap
  have hw : s.windowUnit = 0 := by
    unfold State.windowUnit State.windowBase State.presented State.topUnit State.driveCapacity
    rw [h]
    rfl
  have hnil : s.map = [] := MapUpTo.eq_nil (hw ▸ State.mapOk_iff.mp hs)
  refine State.mapOk_iff.mpr ?_
  show MapUpTo _ s.map
  rw [hnil]
  exact ⟨.nil, fun _ he => absurd he List.not_mem_nil⟩

theorem keepsMap_identityArrives (a : Option Identity) (s : State) : KeepsMap s (identityArrives a s) := by
  unfold identityArrives
  split
  · rename_i h
    split
    · split
      · exact keepsMap_takeIdentity h.2.1 _
      · exact .of_same rfl rfl
    · exact .of_same rfl rfl
  · exact .refl s

theorem keepsMap_startUpLimitEnds (s : State) : KeepsMap s (startUpLimitEnds s) := by
  unfold startUpLimitEnds
  split
  · split
    · exact .of_same rfl rfl
    · split
      · refine KeepsMap.trans ?_ (traffic_pump _).keepsMap
        unfold abandonHeader
        dsimp only
        refine KeepsMap.trans ?_ (keepsMap_headerEnd _ _)
        refine KeepsMap.trans ?_ (keepsMap_resetDriveLink _)
        refine KeepsMap.trans ?_ (traffic_endFlight _ _).keepsMap
        exact (traffic_dropJobs _ s).keepsMap.trans (.of_same rfl rfl)
      · exact .refl s
  · exact .refl s

theorem keepsMap_hostLinkResets (s : State) : KeepsMap s (hostLinkResets s) := by
  unfold hostLinkResets
  split
  · refine KeepsMap.trans ?_ (traffic_endPieces _ _).keepsMap
    refine KeepsMap.trans (t := clearTraffic s) (.of_same rfl rfl) ?_
    unfold emitLinkReset
    split <;> exact .of_same rfl rfl
  · exact .refl s

theorem keepsMap_hostLinkReturns (s : State) : KeepsMap s (hostLinkReturns s) := by
  unfold hostLinkReturns
  split <;> exact .of_same rfl rfl

end Sys2Proof.Machine
end

section
/-!
O6. Every command keeps the extent map: the control commands, and whole steps (R29, R30, R33, R34, R36, R47).
-/

namespace Sys2Proof.Machine

/-! ### The control commands (chapters 1 to 3 and 8 to 11) -/

theorem keepsMap_finishControl (x : Result) (d : Details) (s : State) : KeepsMap s (finishControl x d s) :=
  (traffic_finishControl x d s).keepsMap

theorem keepsMap_fail (x : Result) (s : State) : KeepsMap s (fail x s) := keepsMap_finishControl x .none s

theorem keepsMap_runControl {row : ControlRow} {ok : Sector → State → Bool} {body : Sector → State → State}
    (hb : ∀ r u, KeepsMap u (body r u)) (s : State) : KeepsMap s (runControl row ok body s) := by
  have checked : ∀ r u, KeepsMap u (checkRecord row ok body r u) := fun r u => by
    unfold checkRecord
    split_ifs
    · exact keepsMap_finishControl _ _ _
    · exact keepsMap_finishControl _ _ _
    · exact keepsMap_finishControl _ _ _
    · exact hb r u
  unfold runControl
  split
  · refine KeepsMap.trans ?_ (traffic_pump _).keepsMap
    unfold authorise
    split_ifs
    · exact (keepsMap_violate _ _ _).trans (keepsMap_finishControl _ _ _)
    · exact (keepsMap_violate _ _ _).trans (keepsMap_finishControl _ _ _)
    · exact (keepsMap_drawNonce s).trans (checked _ _)
    · exact checked _ _
  · exact .refl s

theorem keepsMap_withSlot {f : SlotIx → Sector → State → State} (hf : ∀ i r s, KeepsMap s (f i r s)) (r : Sector)
    (s : State) : KeepsMap s (withSlot f r s) := by
  unfold withSlot; split
  · exact hf _ _ _
  · exact keepsMap_fail _ _

/-- A command on an ACTIVE slot. -/
theorem keepsMap_activeBody {f : SlotIx → Sector → State → State} (hf : ∀ i r s, KeepsMap s (f i r s)) (r : Sector)
    (s : State) : KeepsMap s (withSlot (needActive f) r s) :=
  keepsMap_withSlot (fun i r s => by
    unfold needActive; split
    · exact hf _ _ _
    all_goals exact keepsMap_fail _ _) r s

/-- A command that opens a slot. -/
theorem keepsMap_needIdle {lo hi n : Nat} {f : SlotIx → Sector → State → State} (hf : ∀ i r s, KeepsMap s (f i r s))
    (i : SlotIx) (r : Sector) (s : State) : KeepsMap s (needIdle lo hi n f i r s) := by
  unfold needIdle
  split_ifs
  · exact keepsMap_fail _ _
  · exact keepsMap_fail _ _
  · exact keepsMap_fail _ _
  · exact hf _ _ _

theorem keepsMap_enterLoading (i : SlotIx) (n : Nat) (s : State) : KeepsMap s (enterLoading i n s) :=
  ((keepsMap_setSlot s i _).trans (traffic_setStage _ _).keepsMap).trans (traffic_claimAndLoad _ _ _).keepsMap

theorem keepsMap_createBody (r : Sector) (s : State) : KeepsMap s (createBody r s) :=
  keepsMap_withSlot (fun i r s => keepsMap_needIdle (fun i r s => by
    split
    · exact keepsMap_fail _ _
    · exact keepsMap_enterLoading _ _ _) i r s) r s

theorem keepsMap_openBody (r : Sector) (s : State) : KeepsMap s (openBody r s) :=
  keepsMap_withSlot (fun i r s => keepsMap_needIdle (fun i _ s => keepsMap_enterLoading i _ s) i r s) r s

/-- A ring's extent enters the map after the tests of R47. -/
theorem keepsMap_createRingTests (i : SlotIx) (r : Sector) (s : State) : KeepsMap s (createRingTests i r s) := by
  unfold createRingTests
  split_ifs with h1 h2 h3 h4 h5
  · exact keepsMap_fail _ _
  · exact keepsMap_fail _ _
  · exact keepsMap_fail _ _
  · exact keepsMap_fail _ _
  · exact keepsMap_fail _ _
  · refine KeepsMap.trans ?_ (keepsMap_finishControl _ _ _)
    refine KeepsMap.trans
      (t := { s with map := insertExtent { start := ringLba r / 8, len := ringSize r, slot := i, first := 0 } s.map })
      (fun hs => ?_) (.of_same rfl rfl)
    refine State.mapOk_iff.mpr ((State.mapOk_iff.mp hs).insertExtent ?_ ?_ ?_)
    · show 1 ≤ ringSize r
      omega
    · exact Nat.le_of_not_lt h3
    · exact meets_eq_none.mp (by simpa using h4)

/-- A run enters the map after the tests of R33. -/
theorem keepsMap_attachTests (i : SlotIx) (r : Sector) (s : State) : KeepsMap s (attachTests i r s) := by
  unfold attachTests
  dsimp only
  split_ifs with h1 h2 h3 h4 h5 h6 h7 h8
  · exact keepsMap_fail _ _
  · exact keepsMap_fail _ _
  · exact keepsMap_fail _ _
  · exact keepsMap_fail _ _
  · exact keepsMap_fail _ _
  · exact keepsMap_fail _ _
  · exact keepsMap_fail _ _
  · exact keepsMap_fail _ _
  · refine KeepsMap.trans
      (t := { s with map := addRun s.map i (attachLba r / 8) (attachLen r / 8) (s.slot i).nextUnit })
      (fun hs => ?_) (keepsMap_storeChange _ _ _ _ _)
    refine State.mapOk_iff.mpr ((State.mapOk_iff.mp hs).addRun i _ ?_ ?_ ?_)
    · omega
    · show attachLba r / 8 + attachLen r / 8 ≤ s.windowBase / 8
      omega
    · exact meets_eq_none.mp (by simpa using h6)

theorem keepsMap_storeState (i : SlotIx) (r : Sector) (st : TitleState) (s : State) :
    KeepsMap s (storeState i r st s) := keepsMap_storeChange _ _ _ _ _

theorem keepsMap_sealSlot (i : SlotIx) (r : Sector) (s : State) : KeepsMap s (sealSlot i r s) := by
  unfold sealSlot
  dsimp only
  split_ifs
  · exact keepsMap_fail _ _
  · exact keepsMap_storeState _ _ _ _
  · exact keepsMap_finishControl _ _ _
  · exact keepsMap_fail _ _

theorem keepsMap_syncSlot (i : SlotIx) (r : Sector) (s : State) : KeepsMap s (syncSlot i r s) := by
  unfold syncSlot
  dsimp only
  split_ifs
  · exact keepsMap_finishControl _ _ _
  · exact (traffic_setStage _ _).keepsMap
  · rw [requestStore_eq]
    refine KeepsMap.trans ?_ (traffic_setStage _ _).keepsMap
    exact (keepsMap_setSlot _ _ _).trans (serviceWork_requestOp _ _ _ _).keepsMap
  · exact keepsMap_finishControl _ _ _

theorem keepsMap_drainFor (d : DrainReason) (i : SlotIx) (s : State) : KeepsMap s (drainFor d i s) :=
  ((traffic_setStage .idle s).keepsMap.trans (keepsMap_modSlot _ _ _)).trans (traffic_drainTest _ _).keepsMap

theorem keepsMap_rightsSlot (i : SlotIx) (r : Sector) (s : State) : KeepsMap s (rightsSlot i r s) := by
  unfold rightsSlot recordingRights ringRights
  split_ifs
  · exact keepsMap_fail _ _
  · exact keepsMap_fail _ _
  · exact (keepsMap_storeChange _ _ _ _ _).trans (keepsMap_expireSlot _ _)
  · exact keepsMap_fail _ _
  · exact (keepsMap_modSlot _ _ _).trans (keepsMap_finishControl _ _ _)

theorem keepsMap_ringEmptySlot (i : SlotIx) (r : Sector) (s : State) : KeepsMap s (ringEmptySlot i r s) := by
  unfold ringEmptySlot
  split
  · exact keepsMap_fail _ _
  · exact (keepsMap_modSlot _ _ _).trans (keepsMap_finishControl _ _ _)

theorem keepsMap_resumeSlot (i : SlotIx) (r : Sector) (s : State) : KeepsMap s (resumeSlot i r s) :=
  (keepsMap_modSlot _ _ _).trans (keepsMap_finishControl _ _ _)

theorem keepsMap_moveBeginSlot (i : SlotIx) (r : Sector) (s : State) : KeepsMap s (moveBeginSlot i r s) := by
  unfold moveBeginSlot
  dsimp only
  split <;> [exact keepsMap_storeState _ _ _ _; exact keepsMap_fail _ _]

theorem keepsMap_moveCommitSlot (i : SlotIx) (r : Sector) (s : State) : KeepsMap s (moveCommitSlot i r s) := by
  unfold moveCommitSlot
  dsimp only
  split <;> [exact keepsMap_drainFor _ _ _; exact keepsMap_fail _ _]

theorem keepsMap_moveCancelSlot (i : SlotIx) (r : Sector) (s : State) : KeepsMap s (moveCancelSlot i r s) := by
  unfold moveCancelSlot
  dsimp only
  split <;> [exact keepsMap_storeState _ _ _ _; exact keepsMap_fail _ _]

theorem keepsMap_setClockBody (r : Sector) (s : State) : KeepsMap s (setClockBody r s) := by
  unfold setClockBody
  dsimp only
  refine KeepsMap.trans ?_ (keepsMap_finishControl _ _ _)
  refine KeepsMap.trans ?_ (keepsMap_expiryTest _)
  exact .of_same rfl rfl

theorem keepsMap_policyBody (r : Sector) (s : State) : KeepsMap s (policyBody r s) := by
  unfold policyBody setCeiling
  dsimp only
  refine KeepsMap.trans ?_ (keepsMap_finishControl _ _ _)
  split
  · refine KeepsMap.trans ?_ (traffic_arbitrate _).keepsMap
    exact .of_same rfl rfl
  · exact .of_same rfl rfl

theorem keepsMap_clearEventsBody (r : Sector) (s : State) : KeepsMap s (clearEventsBody r s) := by
  unfold clearEventsBody
  dsimp only
  refine KeepsMap.trans ?_ (keepsMap_finishControl _ _ _)
  exact .of_same rfl rfl

theorem keepsMap_resumeBody (r : Sector) (s : State) : KeepsMap s (resumeBody r s) := by
  unfold resumeBody
  refine KeepsMap.trans ?_ (keepsMap_finishControl _ _ _)
  exact .of_same rfl rfl

theorem keepsMap_formatBody (r : Sector) (s : State) : KeepsMap s (formatBody r s) := by
  unfold formatBody
  split_ifs
  · exact keepsMap_fail _ _
  · exact keepsMap_fail _ _
  · unfold writeHeader
    refine KeepsMap.trans ?_ ((traffic_takeClaim _ _ _).trans (traffic_requestOp _ _ _ _)).keepsMap
    refine KeepsMap.trans ?_ (traffic_setStage _ _).keepsMap
    unfold drawEpoch
    split <;> exact .of_same rfl rfl

theorem keepsMap_sweepBody (r : Sector) (s : State) : KeepsMap s (sweepBody r s) := by
  unfold sweepBody
  split_ifs
  · exact keepsMap_fail _ _
  · exact keepsMap_fail _ _
  · exact keepsMap_fail _ _
  · refine (traffic_succeed s).keepsMap.trans ?_
    unfold startSweep
    refine KeepsMap.trans ?_ (keepsMap_sweepTo _ _ _)
    exact .of_same rfl rfl

/-! ### Whole steps -/

theorem keepsMap_act {s t : State} {f : State → State} (hf : KeepsMap s.quiet (f s.quiet)) (h : act s f = .next t) :
    KeepsMap s t := by
  unfold act at h
  injection h with h
  subst h
  split
  · exact .of_same rfl rfl
  · exact KeepsMap.trans (t := s.quiet) (.of_same rfl rfl) hf

/-- A well-formed command acts; an ill-formed one has no next state. -/
theorem keepsMap_guarded {s t : State} {f : State → State} {b : Bool} {x : Refusal} (hf : KeepsMap s.quiet (f s.quiet))
    (h : (if b then act s f else .refused x) = .next t) : KeepsMap s t := by
  split at h
  · exact keepsMap_act hf h
  · contradiction

/-- A command that traffic and the host port's work follow. -/
theorem keepsMap_pumped {s t : State} {g : State → State} (hg : ∀ u, Traffic u (g u))
    (h : act s (fun u => pump (g u)) = .next t) : KeepsMap s t :=
  keepsMap_act (f := fun u => pump (g u)) ((hg _).trans (traffic_pump _)).keepsMap h

/-- Every command keeps the map; the end of a job where the records in the service frames have sound extents. -/
theorem keepsMap_exec {c : Instr} {s t : State} (hr : (∀ l, c ≠ .jobEnd l) ∨ s.ReadsSound) (h : exec c s = .next t) :
    KeepsMap s t := by
  cases c with
  | hardReset => injection h with h; subst h; exact fun _ => ⟨reset_mapOk.sorted, reset_mapOk.held⟩
  | resetRelease =>
    change execResetRelease s = _ at h
    unfold execResetRelease at h
    injection h with h
    subst h
    split <;> exact .of_same rfl rfl
  | hostLinkReset => exact keepsMap_act (keepsMap_hostLinkResets _) h
  | driveIdentity a => exact keepsMap_act (keepsMap_identityArrives _ _) h
  | startUpLimit => exact keepsMap_act (keepsMap_startUpLimitEnds _) h
  | tick => exact keepsMap_act (keepsMap_tickClock _) h
  | windowDeadline => exact keepsMap_act (keepsMap_deadlineEnds _) h
  | serviceTimer t => exact keepsMap_act (keepsMap_timerEnds _ _) h
  | driveLinkResetEnd => exact keepsMap_act (keepsMap_linkBack _) h
  | linkResetNoAnswer => exact keepsMap_act (keepsMap_noAnswer _) h
  | holdLimit => exact keepsMap_act (keepsMap_holdEnds _) h
  | driveError t l => exact keepsMap_act (traffic_driveFails t l _).keepsMap h
  | errorRecordRead => exact keepsMap_act (traffic_errorRecordArrives _).keepsMap h
  | errorRecordTimeout => exact keepsMap_act (keepsMap_errorRecordFails _) h
  | driveIssue => exact keepsMap_act (traffic_issueHead _).keepsMap h
  | hostRead t l n => exact keepsMap_guarded (keepsMap_arriveAndPump _ _) h
  | hostWrite t l n => exact keepsMap_guarded (keepsMap_arriveAndPump _ _) h
  | deallocate t => exact keepsMap_act (keepsMap_arriveAndPump _ _) h
  | deallocateRangeSector rs => exact keepsMap_guarded (keepsMap_rangeSector _ _) h
  | flush t => exact keepsMap_act (keepsMap_arriveAndPump _ _) h
  | identify t => exact keepsMap_act (keepsMap_arriveAndPump _ _) h
  | pass t w d => exact keepsMap_guarded (keepsMap_arriveAndPump _ _) h
  | capacityRefusedCommand t r => exact keepsMap_act (keepsMap_arriveAndPump _ _) h
  | drivePushUnit t => exact keepsMap_pumped (fun u => traffic_pushUnit _ u) h
  | unitReceived d =>
    exact keepsMap_guarded (f := fun u => pump (receiveUnit d u))
      ((traffic_receiveUnit d _).trans (traffic_pump _)).keepsMap h
  | readRunComplete t => exact keepsMap_pumped (fun u => traffic_readRunEnds _ u) h
  | mergeReadComplete t => exact keepsMap_pumped (fun u => traffic_mergeReadEnds _ u) h
  | writeRunComplete t => exact keepsMap_pumped (fun u => traffic_writeRunEnds _ u) h
  | driveFlushComplete t g => exact keepsMap_pumped (fun u => traffic_flushEnds _ _ u) h
  | deallocateComplete t g => exact keepsMap_pumped (fun u => traffic_deallocateEnds _ _ u) h
  | passComplete t g => exact keepsMap_pumped (fun u => traffic_passEnds _ _ u) h
  | drivePullUnit t => exact keepsMap_act (traffic_pullUnit _ _).keepsMap h
  | unitPulled => exact keepsMap_pumped (fun u => traffic_unitGone u) h
  | unitTaken d => exact keepsMap_guarded ((keepsMap_takeUnit _ _).trans (traffic_pump _).keepsMap) h
  | unitDelivered => exact keepsMap_pumped (fun u => traffic_deliverUnit u) h
  | hostTransferEnd => exact keepsMap_pumped (fun u => traffic_transferEnds u) h
  | jobEnd l =>
    have hsound : s.quiet.ReadsSound := hr.resolve_left fun e => e l rfl
    exact keepsMap_act (f := fun u => pump (laneEnds l u))
      ((keepsMap_laneEnds hsound l).trans (traffic_pump _).keepsMap) h
  | serviceReadComplete t d =>
    exact keepsMap_act (f := fun u => pump (serviceReadEnds t d u))
      ((keepsMap_serviceReadEnds _ _ _).trans (traffic_pump _).keepsMap) h
  | serviceWriteComplete t g =>
    exact keepsMap_act (f := fun u => pump (serviceWriteEnds t g u))
      ((keepsMap_serviceWriteEnds _ _ _).trans (traffic_pump _).keepsMap) h
  | controlTurn => exact keepsMap_act (traffic_takeTurn _).keepsMap h
  | unknownCommandCode =>
    change execUnknownCommandCode s = _ at h
    unfold execUnknownCommandCode at h
    refine keepsMap_act ?_ h
    split
    · exact ((traffic_finishControl _ _ _).trans (traffic_pump _)).keepsMap
    · exact .refl _
  | createTitle => exact keepsMap_act (keepsMap_runControl keepsMap_createBody _) h
  | openTitle => exact keepsMap_act (keepsMap_runControl keepsMap_openBody _) h
  | createRing =>
    refine keepsMap_act (keepsMap_runControl (keepsMap_withSlot fun i r s => ?_) _) h
    exact keepsMap_needIdle keepsMap_createRingTests i r s
  | attach => exact keepsMap_act (keepsMap_runControl (keepsMap_activeBody keepsMap_attachTests) _) h
  | sealTitle => exact keepsMap_act (keepsMap_runControl (keepsMap_activeBody keepsMap_sealSlot) _) h
  | sync => exact keepsMap_act (keepsMap_runControl (keepsMap_activeBody keepsMap_syncSlot) _) h
  | close => exact keepsMap_act (keepsMap_runControl (keepsMap_activeBody fun i _ s => keepsMap_drainFor _ i s) _) h
  | delete => exact keepsMap_act (keepsMap_runControl (keepsMap_activeBody fun i _ s => keepsMap_drainFor _ i s) _) h
  | setRights => exact keepsMap_act (keepsMap_runControl (keepsMap_activeBody keepsMap_rightsSlot) _) h
  | ringEmpty => exact keepsMap_act (keepsMap_runControl (keepsMap_activeBody keepsMap_ringEmptySlot) _) h
  | resumeTitle => exact keepsMap_act (keepsMap_runControl (keepsMap_activeBody keepsMap_resumeSlot) _) h
  | moveBegin => exact keepsMap_act (keepsMap_runControl (keepsMap_activeBody keepsMap_moveBeginSlot) _) h
  | moveCommit => exact keepsMap_act (keepsMap_runControl (keepsMap_activeBody keepsMap_moveCommitSlot) _) h
  | moveCancel => exact keepsMap_act (keepsMap_runControl (keepsMap_activeBody keepsMap_moveCancelSlot) _) h
  | setClock => exact keepsMap_act (keepsMap_runControl keepsMap_setClockBody _) h
  | setPolicy => exact keepsMap_act (keepsMap_runControl keepsMap_policyBody _) h
  | clearEvents => exact keepsMap_act (keepsMap_runControl keepsMap_clearEventsBody _) h
  | resume => exact keepsMap_act (keepsMap_runControl keepsMap_resumeBody _) h
  | format => exact keepsMap_act (keepsMap_runControl keepsMap_formatBody _) h
  | sweep => exact keepsMap_act (keepsMap_runControl keepsMap_sweepBody _) h
  | hostLinkReturn => exact keepsMap_act (keepsMap_hostLinkReturns _) h

theorem keepsMap_step {s t : State} (hr : (∀ l, s.pending.head? ≠ some (.jobEnd l)) ∨ s.ReadsSound)
    (h : step s = .next t) : KeepsMap s t := by
  unfold step at h
  split at h
  · injection h with h; subst h; exact .refl s
  · rename_i c rest hp
    rw [hp] at hr
    refine KeepsMap.trans (t := { s with pending := rest }) (.of_same rfl rfl) (keepsMap_exec ?_ h)
    exact hr.imp_left fun hc l e => hc l (congrArg some e)

/-- Settles O6: every operation of a step keeps the map; the extents of a record enter it only at the end of a job. -/
theorem mapKept : Obligations.MapKept :=
  ⟨fun _ _ hm hc h => keepsMap_step (.inl hc) h hm, fun _ _ hm hr h => keepsMap_step (.inr hr) h hm,
    fun _ _ s hm h1 h2 => keepsMap_openTitle ⟨h1, h2⟩ s hm⟩

end Sys2Proof.Machine
end

section
/-!
O53. ATTACH: its tests in the order of R33, and the run that joins the title (R21, R34).
-/

namespace Sys2Proof.Machine

/-! ### The tests of R33 -/

/-- The result of the first test of R33 that fails, check 6 apart. -/
def attachRefusal (i : SlotIx) (r : Sector) (s : State) : Option Result :=
  let t := s.slot i
  let a := attachLba r / 8
  let k := attachLen r / 8
  if t.isRecording = false then some .state
  else if t.state ≠ some .recording then some .state
  else if attachLen r < 1 ∨ s.windowBase < attachLba r + attachLen r then some .badParam
  else if attachLba r % 8 ≠ 0 ∨ attachLen r % 8 ≠ 0 then some .align
  else if Config.unitLimit < t.nextUnit + k then some .units
  else if (meets s.map a k).isSome then some .overlap
  else if (grows s.map i a).isNone ∧ Config.titleExtents ≤ t.extentCount then some .extentsFull
  else if (grows s.map i a).isNone ∧ Config.mapLimit ≤ s.map.length then some .mapFull
  else none

theorem attachTests_some {i : SlotIx} {r : Sector} {s : State} {x : Result} (h : attachRefusal i r s = some x) :
    attachTests i r s = fail x s := by
  unfold attachRefusal at h
  unfold attachTests
  dsimp only at h ⊢
  split_ifs at h ⊢ <;> (injection h with h; rw [h])

theorem attachTests_none {i : SlotIx} {r : Sector} {s : State} (h : attachRefusal i r s = none) :
    attachTests i r s = attachRun i r s := by
  unfold attachRefusal at h
  unfold attachTests
  dsimp only at h ⊢
  split_ifs at h ⊢
  rfl

/-- The title takes no run (R33). -/
theorem attachRefusal_state {i : SlotIx} {r : Sector} {s : State}
    (h : (s.slot i).kind ≠ some .recording ∨ (s.slot i).state ≠ some .recording) :
    attachRefusal i r s = some .state := by
  unfold attachRefusal
  by_cases hk : (s.slot i).kind = some .recording
  · rw [if_neg (by simp [TitleSlot.isRecording, hk]), if_pos (h.resolve_left fun e => e hk)]
  · rw [if_pos (by simp [TitleSlot.isRecording, hk])]

/-- The tests of the run alone (R33). -/
theorem attachRefusal_recording {i : SlotIx} {r : Sector} {s : State} (hk : (s.slot i).kind = some .recording)
    (hs : (s.slot i).state = some .recording) : attachRefusal i r s =
    if attachLen r < 1 ∨ s.windowBase < attachLba r + attachLen r then some .badParam
    else if attachLba r % 8 ≠ 0 ∨ attachLen r % 8 ≠ 0 then some .align
    else if Config.unitLimit < (s.slot i).nextUnit + attachLen r / 8 then some .units
    else if (meets s.map (attachLba r / 8) (attachLen r / 8)).isSome then some .overlap
    else if (grows s.map i (attachLba r / 8)).isNone ∧ Config.titleExtents ≤ (s.slot i).extentCount then
      some .extentsFull
    else if (grows s.map i (attachLba r / 8)).isNone ∧ Config.mapLimit ≤ s.map.length then some .mapFull
    else none := by
  unfold attachRefusal
  rw [if_neg (by simp [TitleSlot.isRecording, hk]), if_neg fun e => e hs]

theorem meets_isSome {map : List Extent} {a k : Nat} :
    (meets map a k).isSome = true ↔ ∃ e ∈ map, sharesUnit a k e.start e.len = true := by
  simp [meets, List.find?_isSome]

/-! ### The run joins the title (R21, R34) -/

/-- The slot of a title that a run has joined, with so many extents. -/
def TitleSlot.attached (t : TitleSlot) (r : Sector) (count : Nat) : TitleSlot :=
  { t with
    nextUnit := t.nextUnit + attachLen r / 8, extentCount := count, lastChanger := recRequest r, dirty := true,
    storeInFlight := true }

/-- The state in which the run has joined the title of slot i, whose map and number of extents are then these. -/
def State.attached (s : State) (i : SlotIx) (r : Sector) (map : List Extent) (count : Nat) : State :=
  ({ s with map := map } : State).setSlot i ((s.slot i).attached r count)

theorem attachRun_eq (i : SlotIx) (r : Sector) (s : State) : attachRun i r s =
    setStage .store (requestOp (.store ((s.slot i).number.getD 0)) (.slot i) none
      (s.attached i r (addRun s.map i (attachLba r / 8) (attachLen r / 8) (s.slot i).nextUnit)
        ((s.slot i).extentCount + if (grows s.map i (attachLba r / 8)).isSome then 0 else 1))) :=
  congrArg (setStage .store) (changeAndStore_eq _ _ _ _)

/-- The change that ATTACH makes is stored before its answer. -/
theorem attachRun_stores {s : State} {tag : Option HostTag} {r : Sector} {st : Stage} (hw : s.waiting tag r st)
    (i : SlotIx) {map : List Extent} {count : Nat}
    (hm : addRun s.map i (attachLba r / 8) (attachLen r / 8) (s.slot i).nextUnit = map)
    (hc : (s.slot i).extentCount + (if (grows s.map i (attachLba r / 8)).isSome then 0 else 1) = count) :
    (attachRun i r s).asks (.store ((s.slot i).number.getD 0)) (.slot i) ∧
      ((s.attached i r map count).staged tag r .store).ServiceWork (attachRun i r s) := by
  have hw' : ({ s with map := map } : State).waiting tag r st := hw
  rw [attachRun_eq, hm, hc]
  exact storeAsked hw' i _ _

/-- A run that follows on the title's last extent lengthens it. -/
theorem attachRun_grows {s : State} {tag : Option HostTag} {r : Sector} {st : Stage} (hw : s.waiting tag r st)
    {i : SlotIx} {e : Extent} (h : grows s.map i (attachLba r / 8) = some e) :
    (attachRun i r s).asks (.store ((s.slot i).number.getD 0)) (.slot i) ∧
      ((s.attached i r (s.map.map fun x => if x = e then { x with len := x.len + attachLen r / 8 } else x)
        (s.slot i).extentCount).staged tag r .store).ServiceWork (attachRun i r s) := by
  refine attachRun_stores hw i ?_ ?_
  · unfold addRun; rw [h]
  · rw [h]; rfl

/-- Any other run is an extent of its own. -/
theorem attachRun_inserts {s : State} {tag : Option HostTag} {r : Sector} {st : Stage} (hw : s.waiting tag r st)
    {i : SlotIx} (h : grows s.map i (attachLba r / 8) = none) :
    (attachRun i r s).asks (.store ((s.slot i).number.getD 0)) (.slot i) ∧
      ((s.attached i r (insertExtent
          { start := attachLba r / 8, len := attachLen r / 8, slot := i, first := (s.slot i).nextUnit } s.map)
        ((s.slot i).extentCount + 1)).staged tag r .store).ServiceWork (attachRun i r s) := by
  refine attachRun_stores hw i ?_ ?_
  · unfold addRun; rw [h]
  · rw [h]; rfl

theorem grows_eq_none {map : List Extent} {i : SlotIx} {a : Nat} :
    grows map i a = none ↔ ¬ ∃ e, (slotExtents map i).getLast? = some e ∧ e.stop = a := by
  rw [Option.eq_none_iff_forall_ne_some, not_exists]
  exact forall_congr' fun e => not_congr grows_some

/-- Settles O53: the tests of R33 in their order, and the two ways in which the run joins the title. -/
theorem runAttached : Obligations.RunAttached := by
  intro s tag r i hp hi hact t lba len a k last follows answered stored
  have run : exec .attach s = .next (pump (attachTests i r { s with out := [] })) :=
    act_activeCommand (ok := slotField) (f := attachTests) hp (slotOk_of_recSlot hi) hi hact
  have hw : ({ s with out := [] } : State).waiting tag r .handed := hp.waiting_base
  have refused : ∀ {x}, attachRefusal i r { s with out := [] } = some x → answered x := fun hx =>
    ⟨_, by rw [run, attachTests_some hx]; rfl, answered_finishControl _ .none hw⟩
  refine ⟨fun h => refused (attachRefusal_state (s := { s with out := [] }) h), fun hk hs => ?_⟩
  have tests := attachRefusal_recording (r := r) (s := { s with out := [] }) (i := i) hk hs
  refine ⟨fun h => refused (tests.trans (if_pos h)), fun h1 h2 => ?_⟩
  have range : ¬ (attachLen r < 1 ∨ s.windowBase < attachLba r + attachLen r) :=
    not_or.mpr ⟨Nat.not_lt.mpr h1, Nat.not_lt.mpr h2⟩
  replace tests := tests.trans (if_neg range)
  refine ⟨fun h => refused (tests.trans (if_pos h)), fun h1 h2 => ?_⟩
  replace tests := tests.trans (if_neg (not_or.mpr ⟨fun e => e h1, fun e => e h2⟩))
  refine ⟨fun h => refused (tests.trans (if_pos h)), fun h he => ?_, fun h he => ?_⟩
  · exact refused ((tests.trans (if_neg (Nat.not_lt.mpr h))).trans (if_pos (meets_isSome.mpr he)))
  have free : meets s.map a k = none := meets_eq_none.mpr he
  replace tests := (tests.trans (if_neg (Nat.not_lt.mpr h))).trans (if_neg fun e => Option.isSome_iff_ne_none.mp e free)
  have joins : attachRefusal i r { s with out := [] } = none →
      exec .attach s = .next (pump (attachRun i r { s with out := [] })) := fun hx => by rw [run, attachTests_none hx]
  have new : ¬ follows → grows s.map i a = none := grows_eq_none.mpr
  refine ⟨fun e hlast hstop => ?_, fun hf hc => ?_, fun hf hc hm => ?_, fun hf hc hm => ?_⟩
  · have hg : grows s.map i a = some e := grows_some.mpr ⟨hlast, hstop⟩
    have old : ¬ (grows s.map i a).isNone = true := fun e => nomatch hg.symm.trans (Option.isNone_iff_eq_none.mp e)
    refine ⟨_, joins (tests.trans ((if_neg fun e => old e.1).trans (if_neg fun e => old e.1))), ?_⟩
    exact attachRun_grows hw hg
  · exact refused (tests.trans (if_pos ⟨Option.isNone_iff_eq_none.mpr (new hf), hc⟩))
  · exact refused (tests.trans ((if_neg fun e => Nat.not_le.mpr hc e.2).trans
      (if_pos ⟨Option.isNone_iff_eq_none.mpr (new hf), hm⟩)))
  · refine ⟨_, joins (tests.trans ((if_neg fun e => Nat.not_le.mpr hc e.2).trans
      (if_neg fun e => Nat.not_le.mpr hm e.2))), ?_⟩
    exact attachRun_inserts hw (new hf)

end Sys2Proof.Machine
end

section
/-!
O25. The cut of a range into pieces, and what follows from it: SPAN, the first failing piece, and a range of unclaimed
sectors under both policies (R42, R43, R76, R79).
-/

namespace Sys2Proof.Machine

/-! ### The cut, piece by piece (R43) -/

/-- The first piece of the sectors x … stop − 1. -/
def cutHead (map : List Extent) (x stop : Nat) : Piece :=
  match lookupUnit map (unitOf x) with
  | some e => pieceIn e x (min stop (8 * e.stop) - x)
  | none => { lba := x, count := unclaimedStop map x stop - x }

theorem cutHead_lba (map : List Extent) (x stop : Nat) : (cutHead map x stop).lba = x := by
  unfold cutHead; split <;> rfl

theorem cutPieces_succ {map : List Extent} {x stop : Nat} (hx : x < stop) (n : Nat) :
    cutPieces (n + 1) map x stop = cutHead map x stop ::
      cutPieces n map ((cutHead map x stop).lba + (cutHead map x stop).count) stop := by
  rw [cutPieces, if_neg (Nat.not_le.mpr hx)]
  unfold cutHead
  cases he : lookupUnit map (unitOf x) with
  | some e =>
    obtain ⟨_, h2⟩ := lookupUnit_holds he
    unfold unitOf at h2
    have hy : x + (min stop (8 * e.stop) - x) = min stop (8 * e.stop) := by omega
    dsimp only [pieceIn]
    rw [hy]
  | none =>
    obtain ⟨h1, _⟩ := unclaimedStop_spec (map := map) hx
    dsimp only
    rw [Nat.add_sub_cancel' h1.le]

/-- What the cut says of each piece: it lies in the range and either in one extent, up to the end of one of the two, or
in unclaimed sectors, up to the next extent or the end of the range. -/
def CutPiece (map : List Extent) (stop : Nat) (p : Piece) : Prop :=
  1 ≤ p.count ∧ p.lba + p.count ≤ stop ∧ match p.owned with
    | some o => ∃ e ∈ map, o.slot = e.slot ∧ o.extStart = e.start ∧ o.first = e.first ∧
        8 * e.start ≤ p.lba ∧ p.lba + p.count ≤ 8 * e.stop ∧ (p.lba + p.count = 8 * e.stop ∨ p.lba + p.count = stop)
    | none => (∀ e ∈ map, 8 * e.stop ≤ p.lba ∨ p.lba + p.count ≤ 8 * e.start) ∧
        ((∃ e ∈ map, p.lba + p.count = 8 * e.start) ∨ p.lba + p.count = stop)

theorem cutPiece_in {map : List Extent} {x stop : Nat} {e : Extent} (hx : x < stop)
    (he : lookupUnit map (unitOf x) = some e) : CutPiece map stop (pieceIn e x (min stop (8 * e.stop) - x)) := by
  obtain ⟨h1, h2⟩ := lookupUnit_holds he
  unfold unitOf at h1 h2
  have hmem : e ∈ map := List.mem_of_find?_eq_some (p := fun e : Extent => e.holds (unitOf x)) he
  refine ⟨?_, ?_, e, hmem, rfl, rfl, rfl, ?_⟩
  all_goals
    dsimp only [pieceIn]
    omega

/-- Above a unit, no extent of a sorted map starts before the first one found. -/
theorem nextStart_le {map : List Extent} (hmap : map.Pairwise fun a b => a.stop ≤ b.start) {u v : Nat}
    (h : nextStart map u = some v) {e : Extent} (he : e ∈ map) (hu : u < e.start) : v ≤ e.start := by
  unfold nextStart at h
  obtain ⟨f, hf, rfl⟩ := Option.map_eq_some_iff.mp h
  obtain ⟨_, as, bs, rfl, has⟩ := List.find?_eq_some_iff_append.mp hf
  rcases List.mem_append.mp he with he | he
  · have := has e he
    simp [hu] at this
  · rcases List.mem_cons.mp he with rfl | he
    · exact Nat.le_refl _
    · have := (List.pairwise_cons.mp (List.pairwise_append.mp hmap).2.1).1 e he
      unfold Extent.stop at this
      omega

theorem nextStart_none {map : List Extent} {u : Nat} (h : nextStart map u = none) {e : Extent} (he : e ∈ map) :
    e.start ≤ u := by
  unfold nextStart at h
  simpa using List.find?_eq_none.mp (Option.map_eq_none_iff.mp h) e he

/-- The run of unclaimed sectors ends at the next extent or at the end of the range, and meets no extent. -/
theorem cutPiece_unclaimed {map : List Extent} {x stop : Nat} (hmap : map.Pairwise fun a b => a.stop ≤ b.start)
    (hx : x < stop) (hn : lookupUnit map (unitOf x) = none) :
    CutPiece map stop { lba := x, count := unclaimedStop map x stop - x } := by
  obtain ⟨h1, h2, _⟩ := unclaimedStop_spec (map := map) hx
  have hy : x + (unclaimedStop map x stop - x) = unclaimedStop map x stop := Nat.add_sub_cancel' h1.le
  have outside : ∀ e ∈ map, e.stop ≤ unitOf x ∨ unitOf x < e.start := fun e he => by
    have := List.find?_eq_none.mp hn e he
    rw [holds_iff] at this
    omega
  refine ⟨by dsimp only; omega, by dsimp only; omega, ?_⟩
  dsimp only
  rw [hy]
  unfold unclaimedStop
  cases hs : nextStart map (unitOf x) with
  | none =>
    refine ⟨fun e he => ?_, .inr rfl⟩
    have hle := nextStart_none hs he
    have := (outside e he).resolve_right (Nat.not_lt.mpr hle)
    unfold unitOf at this
    omega
  | some v =>
    dsimp only
    refine ⟨fun e he => ?_, ?_⟩
    · rcases outside e he with h | h
      · unfold unitOf at h
        omega
      · have := nextStart_le hmap hs he h
        omega
    · unfold nextStart at hs
      obtain ⟨e, he, rfl⟩ := Option.map_eq_some_iff.mp hs
      rcases Nat.le_total stop (8 * e.start) with h | h
      · exact .inr (Nat.min_eq_left h)
      · exact .inl ⟨e, List.mem_of_find?_eq_some he, Nat.min_eq_right h⟩

theorem cutHead_cutPiece {map : List Extent} {x stop : Nat} (hmap : map.Pairwise fun a b => a.stop ≤ b.start)
    (hx : x < stop) : CutPiece map stop (cutHead map x stop) := by
  unfold cutHead
  cases h : lookupUnit map (unitOf x) with
  | some e => exact cutPiece_in hx h
  | none => exact cutPiece_unclaimed hmap hx h

/-! ### The whole cut -/

theorem cutPieces_length (map : List Extent) (stop : Nat) : ∀ (n x : Nat), (cutPieces n map x stop).length ≤ n
  | 0, _ => Nat.le_refl _
  | n + 1, x => by
    rcases Nat.lt_or_ge x stop with hx | hx
    · rw [cutPieces_succ hx, List.length_cons]
      exact Nat.succ_le_succ (cutPieces_length map stop n _)
    · rw [cutPieces_done hx]; exact Nat.zero_le _

theorem cutPieces_lba {map : List Extent} {stop : Nat} : ∀ {n x : Nat}, ∀ p ∈ (cutPieces n map x stop).head?, p.lba = x
  | 0, _, _, hp => nomatch hp
  | n + 1, x, p, hp => by
    rcases Nat.lt_or_ge x stop with hx | hx
    · rw [cutPieces_succ hx, List.head?_cons] at hp
      rw [← Option.some.inj hp, cutHead_lba]
    · rw [cutPieces_done hx] at hp
      cases hp

/-- Each piece starts where the one before it ends. -/
theorem cutPieces_row (map : List Extent) (stop : Nat) : ∀ (n x : Nat),
    (cutPieces n map x stop).IsChain fun p q => q.lba = p.lba + p.count
  | 0, _ => .nil
  | n + 1, x => by
    rcases Nat.lt_or_ge x stop with hx | hx
    · rw [cutPieces_succ hx]
      exact List.isChain_cons.mpr ⟨fun q hq => cutPieces_lba q hq, cutPieces_row map stop n _⟩
    · rw [cutPieces_done hx]; exact .nil

theorem cutPieces_inside {map : List Extent} {stop : Nat} (hmap : map.Pairwise fun a b => a.stop ≤ b.start) :
    ∀ (n x : Nat), ∀ p ∈ cutPieces n map x stop, CutPiece map stop p
  | 0, _, p, hp => absurd hp List.not_mem_nil
  | n + 1, x, p, hp => by
    rcases Nat.lt_or_ge x stop with hx | hx
    · rw [cutPieces_succ hx] at hp
      rcases List.mem_cons.mp hp with rfl | hp
      · exact cutHead_cutPiece hmap hx
      · exact cutPieces_inside hmap n _ p hp
    · rw [cutPieces_done hx] at hp
      exact absurd hp List.not_mem_nil

/-- Pieces in a row reach the end of their range. -/
theorem InRow.getLast? : ∀ {ps : List Piece} {x stop : Nat}, InRow x stop ps → ps ≠ [] →
    ∃ p, ps.getLast? = some p ∧ p.lba + p.count = stop
  | [], _, _, _, h => absurd rfl h
  | [p], _, _, ⟨_, _, _, _, h⟩, _ => ⟨p, rfl, h⟩
  | _ :: q :: ps, _, _, ⟨_, _, _, _, h⟩, _ => by
    obtain ⟨p, hp, he⟩ := h.getLast? (List.cons_ne_nil q ps)
    exact ⟨p, by rw [List.getLast?_cons_cons]; exact hp, he⟩

/-- The pieces of a range (R43). -/
theorem cutInto_cutPieces {map : List Extent} (hmap : map.Pairwise fun a b => a.stop ≤ b.start) {x stop : Nat}
    (hx : x < stop) : CutInto map x stop (cutPieces 5 map x stop) where
  first := ⟨cutHead map x stop, by rw [cutPieces_succ hx, List.head?_cons], cutHead_lba _ _ _⟩
  few := cutPieces_length map stop 5 x
  whole h := (inRow_cutPieces map stop 5 x hx.le (Nat.lt_succ_of_le h)).getLast? (by
    rw [cutPieces_succ hx]; exact List.cons_ne_nil _ _)
  row := cutPieces_row map stop 5 x
  inside := cutPieces_inside hmap 5 x

/-- The cut of a range that meets no extent. -/
theorem cutPieces_unclaimed {map : List Extent} {x0 c n : Nat} (hc : 1 ≤ c)
    (h : ∀ e ∈ map, 8 * e.stop ≤ x0 ∨ x0 + c ≤ 8 * e.start) :
    cutPieces (n + 2) map x0 (x0 + c) = [{ lba := x0, count := c }] := by
  have hlook : lookupUnit map (unitOf x0) = none := by
    refine List.find?_eq_none.mpr fun e he hh => ?_
    have := h e he
    rw [holds_iff] at hh
    unfold unitOf at hh
    omega
  have hstop : unclaimedStop map x0 (x0 + c) = x0 + c := by
    unfold unclaimedStop nextStart
    cases hf : map.find? (fun e => decide (unitOf x0 < e.start)) with
    | none => rfl
    | some e =>
      have hlt : unitOf x0 < e.start := by simpa using List.find?_some hf
      have := h e (List.mem_of_find?_eq_some hf)
      unfold unitOf at hlt
      unfold Extent.stop at this
      dsimp only [Option.map_some]
      omega
  rw [cutPieces_succ (by omega)]
  unfold cutHead
  rw [hlook]
  dsimp only
  rw [hstop, Nat.add_sub_cancel_left, cutPieces_done (Nat.le_refl _)]

/-! ### Refusals (R42, R43, R76) -/

/-- The first piece in LBA order that fails a test decides. -/
theorem testPieces_first {write : Bool} {s : State} {p : Piece} {after : List Piece} {e : Refused}
    (he : testPiece write s p = .error e) : ∀ (before : List Piece), (∀ q ∈ before, ∃ x, testPiece write s q = .ok x) →
    testPieces write s (before ++ p :: after) = .error e
  | [], _ => by rw [List.nil_append, testPieces, he]
  | q :: before, h => by
    obtain ⟨x, hx⟩ := h q List.mem_cons_self
    rw [List.cons_append, testPieces, hx]
    dsimp only
    rw [testPieces_first he before fun y hy => h y (List.mem_cons_of_mem _ hy)]

theorem testPieces_quiet (write : Bool) (s : State) (ps : List Piece) :
    testPieces write s.quiet ps = testPieces write s ps := by
  induction ps with
  | nil => rfl
  | cons p ps ih => rw [testPieces, testPieces, ih]; rfl

theorem admitBelow_refuses {write : Bool} {s : State} {t : HostTag} {x0 c : Nat} {e : Refused}
    (hlen : (cutPieces 5 s.map x0 (x0 + c)).length ≤ 4)
    (he : testPieces write s (cutPieces 5 s.map x0 (x0 + c)) = .error e) :
    admitBelow write t x0 c s = refuse t x0 c e.reason e.named s := by
  unfold admitBelow
  dsimp only
  rw [show Config.maxPieces + 1 = 5 from rfl, if_neg (show ¬ Config.maxPieces < _ from Nat.not_lt.mpr hlen), he]

theorem exec_hostData {s : State} {t : HostTag} {x0 c : Nat} (h : s.TakesData t x0 c) (write : Bool) :
    exec (if write then .hostWrite t x0 c else .hostRead t x0 c) s =
      .next (pump (admitBelow write t x0 c s.quiet)) := by
  cases write
  · exact exec_hostRead h
  · exact exec_hostWrite h

theorem hostData_span {s : State} {t : HostTag} {x0 c : Nat} (h : s.TakesData t x0 c) (write : Bool)
    (hlen : 4 < (cutPieces 5 s.map x0 (x0 + c)).length) :
    ∃ u, exec (if write then .hostWrite t x0 c else .hostRead t x0 c) s = .next (pump u) ∧
      s.quiet.Refuses u t x0 c .span :=
  ⟨refuse t x0 c .span [] s.quiet, by
    rw [exec_hostData h]
    exact congrArg (fun u => Host.Outcome.next (pump u)) (if_pos hlen), refuses_refuse _ _ _ _ _ _⟩

theorem hostData_refused {s : State} {t : HostTag} {x0 c : Nat} (h : s.TakesData t x0 c) (write : Bool)
    (hlen : (cutPieces 5 s.map x0 (x0 + c)).length ≤ 4) {e : Refused}
    (he : testPieces write s (cutPieces 5 s.map x0 (x0 + c)) = .error e) :
    ∃ u, exec (if write then .hostWrite t x0 c else .hostRead t x0 c) s = .next (pump u) ∧
      s.quiet.Refuses u t x0 c e.reason := by
  refine ⟨refuse t x0 c e.reason e.named s.quiet, ?_, refuses_refuse _ _ _ _ _ _⟩
  rw [exec_hostData h, admitBelow_refuses (s := s.quiet) hlen ((testPieces_quiet _ _ _).trans he)]

/-- Under REFUSE unclaimed sectors are refused with POLICY (R42). -/
theorem hostData_policy {s : State} {t : HostTag} {x0 c : Nat} (h : s.TakesData t x0 c) (write : Bool)
    (hps : cutPieces 5 s.map x0 (x0 + c) = [{ lba := x0, count := c }]) (hp : s.dataPolicy write = .refuse) :
    ∃ u, exec (if write then .hostWrite t x0 c else .hostRead t x0 c) s = .next (pump u) ∧
      s.quiet.Refuses u t x0 c .policy := by
  have htest : testPiece write s { lba := x0, count := c } = .error { reason := .policy } :=
    if_neg (by rw [hp]; exact nofun)
  refine hostData_refused h write (by rw [hps]; exact Nat.le_of_ble_eq_true rfl) (e := { reason := .policy }) ?_
  rw [hps]
  exact testPieces_first htest [] fun _ hq => absurd hq List.not_mem_nil

/-! ### A range of unclaimed sectors under PASS (R42, R78, R79) -/

/-- A command of one unclaimed piece waits for none, and no slot changes (R16, R105). -/
theorem State.Admits.unclaimed {write : Bool} {s u : State} {t : HostTag} {x0 c : Nat} {k : Cmd}
    (h : s.Admits u write t x0 c [{ lba := x0, count := c }] k) :
    k.waitFor = [] ∧ u.slots = s.slots ∧ k.pieces = [{ lba := x0, count := c }] := by
  refine ⟨List.eq_nil_iff_forall_not_mem.mpr fun w hw => ?_, Vector.ext fun i hi => h.slots ⟨i, hi⟩,
    by rw [h.same]; rfl⟩
  obtain ⟨_, _, _, _, r, _, p, hp, ho, _⟩ := (h.waits w).mp hw
  rw [List.mem_singleton.mp hp] at ho
  cases ho

/-- Its one run is its own range. -/
theorem runsOver_unclaimed {x0 c : Nat} (hc : c ≤ 65536) :
    runsOver (driveSpan [{ lba := x0, count := c }]).1 (driveSpan [{ lba := x0, count := c }]).2 =
      [{ lba := x0, len := c }] := by
  show runsOver x0 (x0 + c) = _
  unfold runsOver
  rw [Nat.add_sub_cancel_left, if_pos hc]

/-- Settles O25: the cut and its first failing piece, and a range that is one unclaimed piece. -/
theorem unclaimedSpaceFollowsPolicy : Obligations.UnclaimedSpaceFollowsPolicy := by
  refine ⟨fun s x0 c hm hc => cutInto_cutPieces hm.sorted (by omega), fun s t x0 c write hs ht h1 h2 hb => ?_,
    fun s t x0 c hs ht hm h1 h2 hb hfree => ?_⟩
  · have h : s.TakesData t x0 c := ⟨hs, ht, h1, h2, hb⟩
    intro ps refused
    refine ⟨fun hlen => hostData_span h write hlen, fun hlen before p after e hps hbefore he => ?_⟩
    refine hostData_refused h write hlen ?_
    rw [show cutPieces 5 s.map x0 (x0 + c) = _ from hps]
    exact testPieces_first he before hbefore
  · have h : s.TakesData t x0 c := ⟨hs, ht, h1, h2, hb⟩
    have hps : cutPieces 5 s.map x0 (x0 + c) = [{ lba := x0, count := c }] := cutPieces_unclaimed h1 hfree
    have hlen : (cutPieces 5 s.map x0 (x0 + c)).length ≤ 4 := by rw [hps]; exact Nat.le_of_ble_eq_true rfl
    have owned : ∀ p ∈ cutPieces 5 s.map x0 (x0 + c), p.owned = none := fun p hp => by
      rw [hps] at hp; rw [List.mem_singleton.mp hp]
    refine ⟨fun hpol => ?_, fun hpol => ?_, hostData_policy h false hps, hostData_policy h true hps⟩
    · obtain ⟨u, k, hexec, ha, hbeg, hruns⟩ := readAdmitted h hlen (fun _ _ _ => hpol) fun p hp o ho =>
        nomatch (owned p hp).symm.trans ho
      rw [hps] at ha hruns
      rw [runsOver_unclaimed h2] at hruns
      obtain ⟨hw, hslots, hpieces⟩ := ha.unclaimed
      obtain ⟨hstate, hdrive⟩ := hbeg.now hw
      exact ⟨u, k, hexec, ha.cmd, by rw [ha.same]; rfl, by rw [ha.same]; rfl, by rw [ha.same]; rfl, hpieces, hruns,
        hstate, hdrive { lba := x0, len := c } (by rw [hruns]; rfl), hslots, ha.mon⟩
    · obtain ⟨hrow, hlaps, u, k, hexec, ha, hbeg, hruns⟩ := writeAdmitted h hlen (fun _ _ _ => hpol) fun p hp o ho =>
        nomatch (owned p hp).symm.trans ho
      rw [hps] at hrow hlaps ha hbeg hruns
      rw [runsOver_unclaimed h2] at hruns
      obtain ⟨hw, hslots, hpieces⟩ := ha.unclaimed
      obtain ⟨hunits, hentries⟩ := titleMerges (s := s) (t := t) hrow hlaps
      obtain ⟨hkunits, _⟩ := hbeg.merges
      have hnone : (s.dataCmd true t x0 c ([{ lba := x0, count := c }].map s.taken)).merges.map (·.unit) = [] := by
        rw [hunits]; simp
      obtain ⟨hstate, hdrive⟩ := (hbeg.pending fun e he => (hentries e he).2.1).2.2 hw hnone
      exact ⟨u, k, hexec, ha.cmd, by rw [ha.same]; rfl, by rw [ha.same]; rfl, by rw [ha.same]; rfl, hpieces, hruns,
        List.map_eq_nil_iff.mp (hkunits.trans hnone), hstate,
        hdrive { lba := x0, len := c } (by rw [hruns]; rfl), hslots, ha.mon⟩

end Sys2Proof.Machine
end

section
/-!
O29, O30. The ring test: what a segment that is tested makes of the trial copy, and the three statements about the laps
of a ring, which every operation on a ring keeps (R53 to R55, R57, R58, R63, R64).
-/

namespace Sys2Proof.Machine

/-! ### The start of a segment (R54, R55, R57, R58) -/

/-- The trial copy after a plain start of segment k. -/
def Trial.started (t : Trial) (k lap : Nat) (clock : Option Nat) : Trial :=
  { t with ring := t.ring.start k lap clock, laps := t.laps ++ [{ seg := k, lap := lap, started := true }] }

/-- The trial copy after a start of segment k that rekeys the ring. -/
def Trial.restarted (t : Trial) (k : Nat) (clock : Option Nat) : Trial :=
  { ring := t.ring.clearSegs.start k 1 clock, rekeyed := true,
    laps := t.laps ++ [{ seg := k, lap := 1, started := true }] }

section start

variable {t t' : Trial} {k lap : Nat} {clock : Option Nat} {retired : Bool}

theorem Trial.start_within (h : lap ≤ 65535) : t.start k lap clock retired = .ok (t.started k lap clock) :=
  if_neg (Nat.not_lt.mpr h)

theorem Trial.start_busy (h : 65535 < lap) : t.start k lap clock true = .error .rekeyBusy := if_pos h

theorem Trial.start_rekeys (h : 65535 < lap) : t.start k lap clock false = .ok (t.restarted k clock) := if_pos h

/-- A start that is not refused is a plain one or a rekey. -/
theorem Trial.start_cases (h : t.start k lap clock retired = .ok t') :
    t' = t.started k lap clock ∨ t' = t.restarted k clock := by
  rcases Nat.lt_or_ge 65535 lap with hl | hl
  · cases retired
    · rw [Trial.start_rekeys hl] at h
      exact .inr (Except.ok.inj h).symm
    · rw [Trial.start_busy hl] at h
      cases h
  · rw [Trial.start_within hl] at h
    exact .inl (Except.ok.inj h).symm

end start

/-! ### The test of one segment (R54) -/

section touch

variable {t t' : Trial} {k h : Nat} {clock : Option Nat} {retired : Bool}

theorem Trial.touch_empty (hh : t.ring.head = none) :
    t.touch k clock retired = t.start k (t.ring.lapCounter + 1) clock retired := by
  unfold Trial.touch; rw [hh]

theorem Trial.touch_head (hh : t.ring.head = some h) :
    t.touch h clock retired = .ok { t with laps := t.laps ++ [{ seg := h, lap := (t.ring.seg h).lap }] } := by
  unfold Trial.touch; rw [hh]; exact if_pos rfl

theorem Trial.touch_next (hh : t.ring.head = some h) (hk : k ≠ h) (hn : k = (h + 1) % t.ring.m) :
    t.touch k clock retired =
      t.start k (if k = 0 then (t.ring.seg h).lap + 1 else (t.ring.seg h).lap) clock retired := by
  unfold Trial.touch; rw [hh]; exact (if_neg hk).trans (if_pos hn)

theorem Trial.touch_other (hh : t.ring.head = some h) (hk : k ≠ h) (hn : k ≠ (h + 1) % t.ring.m) :
    t.touch k clock retired = .error .ringOrder := by
  unfold Trial.touch; rw [hh]; exact (if_neg hk).trans (if_neg hn)

/-- The lap of a start of segment k: the one after the lap counter in a ring without a head, and that of the head, or
the next, for the segment after the head (R54). -/
def Ring.Starts (r : Ring) (k lap : Nat) : Prop :=
  (r.head = none ∧ lap = r.lapCounter + 1) ∨
  ∃ h, r.head = some h ∧ k ≠ h ∧ k = (h + 1) % r.m ∧ lap = if k = 0 then (r.seg h).lap + 1 else (r.seg h).lap

theorem Trial.touch_starts {lap : Nat} (hs : t.ring.Starts k lap) :
    t.touch k clock retired = t.start k lap clock retired := by
  rcases hs with ⟨hh, rfl⟩ | ⟨h, hh, hk, hn, rfl⟩
  · exact Trial.touch_empty hh
  · exact Trial.touch_next hh hk hn

/-- A segment that passes its test is the head, and the ring stays as it is, or it is started. -/
theorem Trial.touch_cases (ht : t.touch k clock retired = .ok t') :
    t'.ring = t.ring ∨ ∃ lap, t.ring.Starts k lap ∧ t.start k lap clock retired = .ok t' := by
  cases hh : t.ring.head with
  | none =>
    have hs : t.ring.Starts k (t.ring.lapCounter + 1) := .inl ⟨hh, rfl⟩
    exact .inr ⟨_, hs, (Trial.touch_starts hs).symm.trans ht⟩
  | some h =>
    by_cases hk : k = h
    · subst hk
      rw [Trial.touch_head hh] at ht
      rw [← Except.ok.inj ht]
      exact .inl rfl
    · by_cases hn : k = (h + 1) % t.ring.m
      · have hs : t.ring.Starts k (if k = 0 then (t.ring.seg h).lap + 1 else (t.ring.seg h).lap) :=
          .inr ⟨h, hh, hk, hn, rfl⟩
        exact .inr ⟨_, hs, (Trial.touch_starts hs).symm.trans ht⟩
      · rw [Trial.touch_other hh hk hn] at ht
        cases ht

end touch

/-- Settles O29: the lap of the start decides between a plain start, a rekey and REKEY_BUSY. -/
theorem ringTestedInOrder : Obligations.RingTestedInOrder := by
  intro t k clock retired _ _ entry started beyond
  have plain : ∀ lap, t.ring.Starts k lap → lap ≤ 65535 → started lap := fun lap hs hl =>
    ⟨t.started k lap clock, (Trial.touch_starts hs).trans (Trial.start_within hl), rfl, rfl, rfl⟩
  have far : beyond → ∃ lap, t.ring.Starts k lap ∧ 65535 < lap := by
    rintro (⟨hh, hl⟩ | ⟨h, hh, hk, hn, h0, hl⟩)
    · exact ⟨_, .inl ⟨hh, rfl⟩, by omega⟩
    · exact ⟨_, .inr ⟨h, hh, hk, hn, rfl⟩, by rw [if_pos h0]; omega⟩
  refine ⟨fun hh hl => plain _ (.inl ⟨hh, rfl⟩) hl, fun h hh hk => ?_,
    fun h hh hk hn h0 hl => plain _ (.inr ⟨h, hh, hk, hn, (if_neg h0).symm⟩) hl,
    fun h hh hk hn h0 hl => plain _ (.inr ⟨h, hh, hk, hn, (if_pos h0).symm⟩) hl,
    fun h hh hk hn => Trial.touch_other hh hk hn, fun hb hr => ?_, fun hb hr => ?_⟩
  · rw [hk]
    exact Trial.touch_head hh
  · obtain ⟨lap, hs, hl⟩ := far hb
    rw [Trial.touch_starts hs, hr]
    exact Trial.start_busy hl
  · obtain ⟨lap, hs, hl⟩ := far hb
    rw [hr]
    exact ⟨t.restarted k clock, (Trial.touch_starts hs).trans (Trial.start_rekeys hl), rfl, rfl, rfl⟩

/-! ### The entries of a ring -/

theorem seg_clearSegs (r : Ring) (k : Nat) : r.clearSegs.seg k = {} := by
  unfold Ring.seg Ring.clearSegs
  rw [List.getD_eq_getElem?_getD, List.getElem?_map]
  cases r.segs[k]? <;> rfl

theorem seg_start_lap {r : Ring} {k : Nat} (hk : k < r.segs.length) (lap : Nat) (clock : Option Nat) (j : Nat) :
    ((r.start k lap clock).seg j).lap = if j = k then lap else (r.seg j).lap := by
  unfold Ring.seg Ring.start
  rw [List.getD_eq_getElem?_getD, List.getD_eq_getElem?_getD]
  by_cases h : j = k
  · rw [if_pos h, h, List.getElem?_set_self hk]; rfl
  · rw [if_neg h, List.getElem?_set_ne (Ne.symm h)]

theorem Segment.tighten_lap (x : Nat) (g : Segment) : (g.tighten x).lap = g.lap := by
  unfold Segment.tighten; split <;> rfl

theorem seg_tighten_lap (x : Nat) (r : Ring) (k : Nat) : ((r.tighten x).seg k).lap = (r.seg k).lap := by
  unfold Ring.seg Ring.tighten
  rw [List.getD_eq_getElem?_getD, List.getD_eq_getElem?_getD, List.getElem?_map]
  cases r.segs[k]? with
  | none => rfl
  | some g => exact Segment.tighten_lap x g

/-! ### The three statements (R53) -/

/-- A ring without a head and with every entry empty. -/
theorem ringOk_empty {r : Ring} (hl : r.segs.length = r.m) (hh : r.head = none) (he : ∀ k, (r.seg k).lap = 0) :
    RingOk r where
  entries := hl
  fits _ e := nomatch hh.symm.trans e
  empty _ k _ := he k
  counter _ e := nomatch hh.symm.trans e
  laps _ _ e := nomatch hh.symm.trans e

theorem ringOk_newRing (size retention : Nat) : RingOk (newRing size retention) := by
  refine ringOk_empty List.length_replicate rfl fun k => ?_
  unfold Ring.seg newRing
  rw [List.getD_eq_getElem?_getD, List.getElem?_replicate]
  split <;> rfl

theorem RingOk.emptied {r : Ring} (h : RingOk r) : RingOk r.emptied :=
  ringOk_empty (by rw [← show r.segs.length = r.emptied.m from h.entries]; exact List.length_map _) rfl fun k => by
    rw [show r.emptied.seg k = r.clearSegs.seg k from rfl, seg_clearSegs]

theorem RingOk.tighten {r : Ring} (h : RingOk r) (x : Nat) : RingOk (r.tighten x) where
  entries := (List.length_map _).trans h.entries
  fits := h.fits
  empty hh k hk := (seg_tighten_lap x r k).trans (h.empty hh k hk)
  counter g hg := (h.counter g hg).trans (seg_tighten_lap x r g).symm
  laps g k hg hk := by
    rw [seg_tighten_lap, seg_tighten_lap]
    exact h.laps g k hg hk

/-- A start keeps the statements where the written segments up to the one started have its lap and those behind it the
lap before. -/
theorem ringOk_start {r : Ring} {k lap : Nat} (hl : r.segs.length = r.m) (hk : k < r.m)
    (hlaps : ∀ j, j < r.m → j ≠ k → (r.seg j).lap ≠ 0 → (r.seg j).lap = if j ≤ k then lap else lapBefore lap)
    (clock : Option Nat) : RingOk (r.start k lap clock) := by
  have hseg := seg_start_lap (hk.trans_eq hl.symm) lap clock
  refine ⟨List.length_set.trans hl, fun h e => ?_, fun e => (nomatch e), fun h e => ?_, fun h j e hj hne => ?_⟩
  all_goals obtain rfl := Option.some.inj e
  · exact hk
  · rw [hseg, if_pos rfl]; rfl
  · rw [hseg] at hne
    rw [hseg, hseg, if_pos rfl]
    by_cases h : j = k
    · rw [if_pos h, if_pos h.le]
    · rw [if_neg h] at hne ⊢
      exact hlaps j hj h hne

/-- The laps of the other segments as a start that the test allows finds them. -/
theorem RingOk.starts {r : Ring} (h : RingOk r) {k lap : Nat} (hs : r.Starts k lap) {j : Nat} (hj : j < r.m)
    (hjk : j ≠ k) (hne : (r.seg j).lap ≠ 0) : (r.seg j).lap = if j ≤ k then lap else lapBefore lap := by
  rcases hs with ⟨hh, _⟩ | ⟨g, hg, hk, hn, rfl⟩
  · exact absurd (h.empty hh j hj) hne
  · have hlap := h.laps g j hg hj hne
    have hgm := h.fits g hg
    rcases Nat.lt_or_ge (g + 1) r.m with hlt | hge
    · rw [Nat.mod_eq_of_lt hlt] at hn
      rw [hlap, if_neg (show k ≠ 0 by omega)]
      by_cases hle : j ≤ g
      · rw [if_pos hle, if_pos (by omega)]
      · rw [if_neg hle, if_neg (by omega)]
    · -- the head is the last segment, and the start of segment 0 begins the next lap
      rw [show g + 1 = r.m by omega, Nat.mod_self] at hn
      rw [if_pos (show j ≤ g by omega)] at hlap
      rw [hlap] at hne ⊢
      rw [if_neg (show ¬ j ≤ k by omega), if_pos hn]
      unfold lapBefore
      rw [if_neg (by omega), Nat.add_sub_cancel]

theorem RingOk.touch {t t' : Trial} {k : Nat} {clock : Option Nat} {retired : Bool} (h : RingOk t.ring)
    (hk : k < t.ring.m) (ht : t.touch k clock retired = .ok t') : RingOk t'.ring ∧ t'.ring.m = t.ring.m := by
  rcases Trial.touch_cases ht with e | ⟨lap, hs, hst⟩
  · rw [e]; exact ⟨h, rfl⟩
  · rcases Trial.start_cases hst with rfl | rfl
    · exact ⟨ringOk_start h.entries hk (fun j hj hjk hne => h.starts hs hj hjk hne) clock, rfl⟩
    · have hlen : t.ring.clearSegs.segs.length = t.ring.m := (List.length_map _).trans h.entries
      refine ⟨ringOk_start hlen hk (fun j _ _ hne => ?_) clock, rfl⟩
      rw [seg_clearSegs] at hne
      exact absurd rfl hne

theorem RingOk.ringTest {clock : Option Nat} {retired : Bool} : ∀ {ks : List Nat} {t t' : Trial}, RingOk t.ring →
    (∀ k ∈ ks, k < t.ring.m) → Machine.ringTest clock retired ks t = .ok t' → RingOk t'.ring
  | [], _, _, h, _, ht => by rw [← Except.ok.inj ht]; exact h
  | k :: ks, t, t', h, hks, ht => by
    unfold Machine.ringTest at ht
    split at ht
    · cases ht
    · rename_i t1 h1
      obtain ⟨hok, hm⟩ := h.touch (hks k List.mem_cons_self) h1
      exact hok.ringTest (fun j hj => by rw [hm]; exact hks j (List.mem_cons_of_mem _ hj)) ht

/-- Settles O30, by what a start makes of the laps. -/
theorem ringOrderKept : Obligations.RingOrderKept :=
  ⟨fun size retention _ => ringOk_newRing size retention, fun _ _ _ _ _ h hks ht => h.ringTest hks ht,
    fun _ h => h.emptied, fun x _ h => h.tighten x⟩

end Sys2Proof.Machine
end

section
/-!
SUPPORT. The runs of a READ of a ring: ranges of whole units in rising order, through the joining of ranges and the cut
of a long run (R60, R61, R79).
-/

namespace Sys2Proof.Machine

/-! ### Ranges of whole units in rising order -/

/-- Ranges of whole units, none empty, one behind the other between the sectors lo and hi. -/
def Rising : Nat → Nat → List Range → Prop
  | _, _, [] => True
  | lo, hi, x :: xs => lo ≤ x.lba ∧ x.lba % 8 = 0 ∧ x.len % 8 = 0 ∧ 1 ≤ x.len ∧ x.lba + x.len ≤ hi ∧
      Rising (x.lba + x.len) hi xs

/-- Some range has the sector y. -/
def covers (rs : List Range) (y : Nat) : Prop := ∃ x ∈ rs, x.lba ≤ y ∧ y < x.lba + x.len

theorem covers_cons {x : Range} {xs : List Range} {y : Nat} :
    covers (x :: xs) y ↔ (x.lba ≤ y ∧ y < x.lba + x.len) ∨ covers xs y := by
  unfold covers; simp

theorem Rising.mono {lo lo' hi : Nat} (hlo : lo' ≤ lo) : ∀ {rs : List Range}, Rising lo hi rs → Rising lo' hi rs
  | [], _ => trivial
  | _ :: _, ⟨h1, h⟩ => ⟨hlo.trans h1, h⟩

theorem Rising.inside {hi : Nat} : ∀ {rs : List Range} {lo : Nat}, Rising lo hi rs → ∀ x ∈ rs,
    lo ≤ x.lba ∧ x.lba % 8 = 0 ∧ x.len % 8 = 0 ∧ 1 ≤ x.len ∧ x.lba + x.len ≤ hi
  | y :: ys, _, ⟨h1, h2, h3, h4, h5, h6⟩, x, hx => by
    rcases List.mem_cons.mp hx with rfl | hx
    · exact ⟨h1, h2, h3, h4, h5⟩
    · obtain ⟨g1, g⟩ := h6.inside x hx
      exact ⟨by omega, g⟩

theorem Rising.pairwise {hi : Nat} : ∀ {rs : List Range} {lo : Nat}, Rising lo hi rs →
    rs.Pairwise fun x y => x.lba + x.len ≤ y.lba
  | [], _, _ => .nil
  | _ :: _, _, ⟨_, _, _, _, _, h⟩ => List.pairwise_cons.mpr ⟨fun y hy => (h.inside y hy).1, h.pairwise⟩

/-- A whole unit lies in one of the ranges when its first sector does. -/
theorem Rising.covers_unit {lo hi : Nat} {rs : List Range} (h : Rising lo hi rs) (v : Nat) :
    (∃ x ∈ rs, x.lba ≤ 8 * v ∧ 8 * v + 8 ≤ x.lba + x.len) ↔ covers rs (8 * v) := by
  refine exists_congr fun x => and_congr_right fun hx => ?_
  have := h.inside x hx
  omega

/-! ### Ranges joined, and long runs cut (R79) -/

theorem Rising.join {hi : Nat} : ∀ {rs : List Range} {lo : Nat}, Rising lo hi rs → Rising lo hi (joinRanges rs)
  | [], _, _ => trivial
  | a :: rest, lo, ⟨h1, h2, h3, h4, h5, h6⟩ => by
    have ih := h6.join
    unfold joinRanges
    split
    · exact ⟨h1, h2, h3, h4, h5, trivial⟩
    · rename_i b bs hb
      rw [hb] at ih
      obtain ⟨g1, g2, g3, g4, g5, g6⟩ := ih
      split
      · rename_i heq
        refine ⟨h1, h2, ?_, ?_, ?_, ?_⟩ <;> dsimp only
        · omega
        · omega
        · omega
        · rwa [← Nat.add_assoc, heq]
      · exact ⟨h1, h2, h3, h4, h5, g1, g2, g3, g4, g5, g6⟩

theorem covers_join (y : Nat) : ∀ rs : List Range, covers (joinRanges rs) y ↔ covers rs y
  | [] => Iff.rfl
  | a :: rest => by
    have ih := covers_join y rest
    unfold joinRanges
    split
    · rename_i hn
      rw [covers_cons, covers_cons, ← ih, hn]
    · rename_i b bs hb
      rw [covers_cons, ← ih, hb]
      split
      · rw [covers_cons, covers_cons, ← or_assoc]
        refine or_congr ?_ Iff.rfl
        dsimp only
        omega
      · rw [covers_cons]

/-- A run is cut into pieces of whole units that lie in a row. -/
theorem Rising.cut_cons {lo hi : Nat} {x : Range} {ys : List Range} (h1 : lo ≤ x.lba) (h2 : x.lba % 8 = 0)
    (h3 : x.len % 8 = 0) (h4 : 1 ≤ x.len) (h5 : x.lba + x.len ≤ hi) (h6 : Rising (x.lba + x.len) hi ys) :
    Rising lo hi (cutRun x ++ ys) := by
  unfold cutRun Config.maxSectors
  split
  · have hend : x.lba + 65536 + (x.len - 65536) = x.lba + x.len := by omega
    refine ⟨h1, h2, ?_, ?_, ?_, Nat.le_refl _, ?_, ?_, ?_, ?_, by dsimp only; rwa [hend]⟩ <;> dsimp only <;> omega
  · exact ⟨h1, h2, h3, h4, h5, h6⟩

theorem Rising.cut {hi : Nat} : ∀ {rs : List Range} {lo : Nat}, Rising lo hi rs → Rising lo hi (rs.flatMap cutRun)
  | [], _, _ => trivial
  | x :: xs, _, ⟨h1, h2, h3, h4, h5, h6⟩ => by
    rw [List.flatMap_cons]
    exact Rising.cut_cons h1 h2 h3 h4 h5 h6.cut

theorem covers_cutRun (x : Range) (y : Nat) : covers (cutRun x) y ↔ x.lba ≤ y ∧ y < x.lba + x.len := by
  unfold covers cutRun Config.maxSectors
  split
  · simp only [List.mem_cons, List.not_mem_nil, or_false, exists_eq_or_imp, exists_eq_left]
    omega
  · simp

theorem covers_cut (rs : List Range) (y : Nat) : covers (rs.flatMap cutRun) y ↔ covers rs y := by
  have := fun x : Range => covers_cutRun x y
  unfold covers at this ⊢
  simp only [List.mem_flatMap]
  constructor
  · rintro ⟨z, ⟨x, hx, hz⟩, h⟩
    exact ⟨x, hx, (this x).mp ⟨z, hz, h⟩⟩
  · rintro ⟨x, hx, h⟩
    obtain ⟨z, hz, h⟩ := (this x).mpr h
    exact ⟨z, ⟨x, hx, hz⟩, h⟩

theorem cutRun_len {x y : Range} (hx : x.len ≤ 131072) (hy : y ∈ cutRun x) : y.len ≤ 65536 := by
  unfold cutRun Config.maxSectors at hy
  split at hy
  · rcases List.mem_cons.mp hy with rfl | hy
    · exact Nat.le_refl _
    · rw [List.mem_singleton.mp hy]; dsimp only; omega
  · rw [List.mem_singleton.mp hy]; omega

/-! ### The units of a segment (R50, R61) -/

/-- The units of segment k within the units a … b of an extent that starts at unit s. -/
def segRange (a b s g k : Nat) : Range :=
  { lba := 8 * max a (s + k * g), len := 8 * (min (b + 1) (s + (k + 1) * g) - max a (s + k * g)) }

/-- The segments of a read that satisfy P. -/
theorem rising_segs {a b s g : Nat} (hg : 1 ≤ g) (hab : a ≤ b) (P : Nat → Bool) : ∀ (m n : Nat), (a - s) / g ≤ n →
    n + m ≤ (b - s) / g + 1 → s ≤ a →
    Rising (8 * max a (s + n * g)) (8 * b + 8) (((List.range' n m).filter P).map (segRange a b s g))
  | 0, _, _, _, _ => trivial
  | m + 1, n, hn, hm, hs => by
    have ih := rising_segs hg hab P m (n + 1) (by omega) (by omega) hs
    have hnext : (n + 1) * g = n * g + g := Nat.succ_mul n g
    have hlow : a - s < (n + 1) * g := (Nat.div_lt_iff_lt_mul hg).mp (by omega)
    have hhigh : n * g ≤ b - s := (Nat.le_div_iff_mul_le hg).mp (by omega)
    rw [List.range'_succ]
    by_cases hP : P n = true
    · rw [List.filter_cons_of_pos hP, List.map_cons]
      refine ⟨Nat.le_refl _, ?_, ?_, ?_, ?_, ih.mono ?_⟩ <;> dsimp only [segRange] <;> omega
    · rw [List.filter_cons_of_neg hP]
      exact ih.mono (by omega)

theorem covers_segs {a b s g v : Nat} (hg : 1 ≤ g) (hs : s ≤ a) (ha : a ≤ v) (hb : v ≤ b) (P : Nat → Bool) :
    covers (((segsTouched g (a - s) (b - s)).filter P).map (segRange a b s g)) (8 * v) ↔ P ((v - s) / g) = true := by
  have hin : (v - s) / g ∈ segsTouched g (a - s) (b - s) := by
    have h1 : (a - s) / g ≤ (v - s) / g := Nat.div_le_div_right (by omega)
    have h2 : (v - s) / g ≤ (b - s) / g := Nat.div_le_div_right (by omega)
    exact List.mem_range'_1.mpr (by omega)
  have seg : ∀ k, ((segRange a b s g k).lba ≤ 8 * v ∧ 8 * v < (segRange a b s g k).lba + (segRange a b s g k).len) ↔
      k = (v - s) / g := fun k => by
    have hnext : (k + 1) * g = k * g + g := Nat.succ_mul k g
    rw [eq_comm, Nat.div_eq_iff (by omega)]
    dsimp only [segRange]
    omega
  unfold covers
  simp only [List.mem_map, List.mem_filter, exists_exists_and_eq_and, seg]
  exact ⟨fun ⟨k, ⟨_, hP⟩, hk⟩ => hk ▸ hP, fun hP => ⟨_, ⟨hin, hP⟩, rfl⟩⟩

/-! ### The runs of a READ of one piece of a ring -/

/-- A segment is readable at a clock (R60). -/
theorem Segment.readable_iff (x : Segment) (clock : Option Nat) : x.readable clock = true ↔
    x.lap ≠ 0 ∧ (x.stamp = 0 ∨ ∃ f now, x.firstWrite = some f ∧ clock = some now ∧ now < f + x.stamp) := by
  unfold Segment.readable
  cases x.firstWrite <;> cases clock <;> simp

/-- The ranges read are those of the readable segments (R61). -/
theorem readableRanges_readLaps {o : Owned} {r : Ring} (hg : o.g = r.g) (p : Piece) (clock : Option Nat)
    (ks : List Nat) : readableRanges o p (readLaps r clock ks) =
      (ks.filter fun k => (r.seg k).readable clock).map (segRange p.firstUnit p.lastUnit o.extStart r.g) := by
  unfold readableRanges readLaps
  rw [List.filter_map, List.map_map, hg]
  rfl

/-- The runs of a READ of one piece of a ring: whole units in rising order, those of the readable segments. -/
theorem ringRuns {p : Piece} {o : Owned} {r : Ring} {clock : Option Nat} (hp : p.owned = some o) (hg : o.g = r.g)
    (ho : o.laps = some (readLaps r clock (pieceSegs r o p))) (h1 : 1 ≤ r.g) (hs : o.extStart ≤ p.firstUnit)
    (hab : p.firstUnit ≤ p.lastUnit) :
    Rising (8 * p.firstUnit) (8 * p.lastUnit + 8) (runsOf false [p]) ∧
    (p.lastUnit ≤ p.firstUnit + 8192 → ∀ x ∈ runsOf false [p], x.len ≤ 65536) ∧
    ∀ v, p.firstUnit ≤ v → v ≤ p.lastUnit →
      (covers (runsOf false [p]) (8 * v) ↔ (r.seg ((v - o.extStart) / r.g)).readable clock = true) := by
  set rs := ((pieceSegs r o p).filter fun k => (r.seg k).readable clock).map
    (segRange p.firstUnit p.lastUnit o.extStart r.g) with hrs
  have hruns : runsOf false [p] = (joinRanges rs).flatMap cutRun := by
    unfold runsOf
    dsimp only
    rw [if_neg Bool.false_ne_true, List.flatMap_singleton, hrs, ← readableRanges_readLaps hg]
    unfold pieceRanges
    rw [hp]
    dsimp only
    rw [ho]
  have hrise : Rising (8 * p.firstUnit) (8 * p.lastUnit + 8) (joinRanges rs) := by
    have hsegs : (p.firstUnit - o.extStart) / r.g ≤ (p.lastUnit - o.extStart) / r.g := Nat.div_le_div_right (by omega)
    have h := rising_segs (s := o.extStart) h1 hab (fun k => (r.seg k).readable clock)
      ((p.lastUnit - o.extStart) / r.g - (p.firstUnit - o.extStart) / r.g + 1) _ (Nat.le_refl _) (by omega) hs
    exact (h.mono (by omega)).join
  rw [hruns]
  refine ⟨hrise.cut, fun hfew x hx => ?_, fun v hv1 hv2 => ?_⟩
  · obtain ⟨y, hy, hx⟩ := List.mem_flatMap.mp hx
    have := hrise.inside y hy
    exact cutRun_len (by omega) hx
  · rw [covers_cut, covers_join]
    exact covers_segs h1 hs hv1 hv2 _

end Sys2Proof.Machine
end

section
/-!
O32. A READ of a ring: the requests for the units filled with zeros and their grant, and the admission with its readable
marks, its runs and the EXPIRED_READ violation (R60, R61, R79, R117, R118, R120, R179, R181).
-/

namespace Sys2Proof.Machine

/-! ### The FILL of a unit of zeros (R117, R118, R120) -/

/-- The request of a READ for its next unit. -/
def Cmd.nextFill (c : Cmd) : Req := { kind := .fill, cls := .play, tag := c.tag, unit := c.firstUnit + c.received }

/-- A READ with units to come and no FILL waiting asks exactly for a unit that is filled with zeros. -/
theorem wanted_read {c : Cmd} {s : State} (hk : c.kind = .read) (hr : c.received < c.units)
    (hst : c.state = .active ∨ c.state = .ending) (hq : ∀ q ∈ s.buffer.requests, q.tag = c.tag → q.kind ≠ .fill) :
    wanted c s = if c.zeroFilled (c.firstUnit + c.received) then .ask c.nextFill else .nothing := by
  have hw : s.waitsFor c.tag .fill = false := by
    unfold State.waitsFor
    rw [List.any_eq_false]
    intro q hm
    simpa using hq q hm
  have hs : c.sends = true := by unfold Cmd.sends; rw [hk]
  unfold wanted wantedFill
  rw [if_pos hs, if_pos ⟨hr, hst, by rw [hw]; exact Bool.false_ne_true⟩, hk]
  rfl

/-- A buffer with less than its 60 frames in use has a free one. -/
theorem exists_lowestFree {s : State} (h : s.buffer.frames.length < 60) : ∃ n, s.lowestFree = some n := by
  refine Option.ne_none_iff_exists'.mp fun hn => ?_
  have hsub : sharedNumbers ⊆ s.buffer.frames.map (·.num) := fun n hm => by
    have := List.find?_eq_none.mp hn n hm
    simpa using this
  have hlen := (show sharedNumbers.Nodup from List.nodup_range' ..).subperm hsub |>.length_le
  rw [List.length_map] at hlen
  exact absurd hlen (Nat.not_le.mpr h)

theorem grant_fill {r : Req} {s : State} {c : Cmd} {n : Nat} (hk : r.kind = .fill) (hc : s.cmd? r.tag = some c)
    (hn : s.lowestFree = some n) : grant r s =
      ((s.holdFrame (grantedFrame r c n s)).tickStamp).modCmd r.tag fun c => { c with received := c.received + 1 } := by
  unfold grant
  rw [hc, hn, hk]

/-- A granted FILL of a READ: its frame is READY with zeros, and the unit counts as received (R120). -/
theorem grant_nextFill {s : State} {c : Cmd} (hk : c.kind = .read) (hc : s.cmd? c.tag = some c)
    (hf : s.buffer.frames.length < 60) :
    (∃ f ∈ (grant c.nextFill s).buffer.frames, f.holder = c.tag ∧ f.unit = c.firstUnit + c.received ∧
      f.cond = .ready ∧ f.dir = .toHost ∧ f.data = UnitData.zero) ∧
    (grant c.nextFill s).cmd? c.tag = some { c with received := c.received + 1 } := by
  obtain ⟨n, hn⟩ := exists_lowestFree hf
  rw [grant_fill rfl hc hn]
  refine ⟨⟨grantedFrame c.nextFill c n s, mem_insertFrame.mpr (.inl rfl), rfl, rfl, rfl, rfl, ?_⟩, ?_⟩
  · show (if c.kind = .identify then s.identityUnit else UnitData.zero) = _
    rw [hk]
    exact if_neg nofun
  · refine (cmd?_map (s := s) (g := fun d => if d.tag = c.tag then { d with received := d.received + 1 } else d) rfl
      (fun d => ?_) fun d _ => ?_).trans ?_
    · split <;> rfl
    · split <;> rfl
    · rw [hc, Option.map_some, if_pos rfl]

/-! ### The units filled with zeros (R61) -/

theorem zeroFilled_read {c : Cmd} {v : Nat} {o : Owned} (hk : c.kind = .read) (ho : c.ownedOf v = some o) :
    c.zeroFilled v = o.zeroFilled v := by
  unfold Cmd.zeroFilled; rw [hk, ho]

/-- A unit is read where its segment's entry is marked readable. -/
theorem zeroFilled_eq_false {o : Owned} {v : Nat} {laps : List LapEntry} (ho : o.laps = some laps) :
    o.zeroFilled v = false ↔ ∃ l, laps.find? (fun e => decide (e.seg = o.segOf v)) = some l ∧ l.readable = true := by
  unfold Owned.zeroFilled
  rw [ho]
  dsimp only
  cases laps.find? (fun e => decide (e.seg = o.segOf v)) <;> simp

theorem find?_seg_iff {laps : List LapEntry} {n : Nat} {l : LapEntry} :
    laps.find? (fun e => decide (e.seg = n)) = some l ↔
      ∃ before after, laps = before ++ l :: after ∧ l.seg = n ∧ ∀ x ∈ before, x.seg ≠ n := by
  rw [List.find?_eq_some_iff_append]
  simp
  tauto

/-! ### EXPIRED_READ (R61, R178 to R183) -/

/-- Two states with the same monitor and window and the same halted flags. -/
structure SameMonitor (s u : State) : Prop where
  mon : u.mon = s.mon
  win : u.win = s.win
  freeReads : u.freeReads = s.freeReads
  halted : ∀ i, (u.slot i).halted = (s.slot i).halted

theorem haltSlots_one {i : SlotIx} {s : State} (h : (s.slot i).phase ≠ .idle) :
    haltSlots [i] s = s.modSlot i fun t => { t with halted := true } := if_neg h

theorem haltSlots_one_halted {i : SlotIx} {s : State} (h : (s.slot i).phase ≠ .idle) (k : SlotIx) :
    ((haltSlots [i] s).slot k).halted = if k = i then true else (s.slot k).halted := by
  rw [haltSlots_one h]
  by_cases hk : k = i
  · rw [if_pos hk, hk, State.slot_modSlot_same]
  · rw [if_neg hk, State.slot_modSlot_other _ _ _ _ hk]

theorem SameMonitor.halt {s u : State} (h : SameMonitor s u) {i : SlotIx} (hs : (s.slot i).phase ≠ .idle)
    (hu : (u.slot i).phase ≠ .idle) : SameMonitor (haltSlots [i] s) (haltSlots [i] u) where
  mon := by rw [haltSlots_one hs, haltSlots_one hu]; exact h.mon
  win := by rw [haltSlots_one hs, haltSlots_one hu]; exact h.win
  freeReads := by rw [haltSlots_one hs, haltSlots_one hu]; exact h.freeReads
  halted j := by rw [haltSlots_one_halted hs, haltSlots_one_halted hu, h.halted j]

theorem SameMonitor.flagged {s u : State} (f : EventFlag) (h : SameMonitor s u) :
    SameMonitor (s.setFlag f) (u.setFlag f) :=
  ⟨h.mon, by unfold State.setFlag; dsimp only; rw [h.win], h.freeReads, h.halted⟩

theorem SameMonitor.alarm {s u : State} (h : SameMonitor s u) (k : Violation) :
    SameMonitor (alarmReaction k s) (alarmReaction k u) := by
  obtain ⟨hm, hw, hf, hh⟩ := h
  unfold alarmReaction
  rw [hm]
  split
  · exact .flagged .alarm ⟨by dsimp only; rw [hf], hw, hf, hh⟩
  · split
    · exact ⟨hm, hw, hf, hh⟩
    · exact .flagged .alarm ⟨rfl, hw, hf, hh⟩
  · exact ⟨rfl, hw, hf, hh⟩

theorem SameMonitor.fault {s u : State} (h : SameMonitor s u) (k : Violation) :
    SameMonitor (faultReaction k s) (faultReaction k u) := by
  obtain ⟨hm, hw, hf, hh⟩ := h
  unfold faultReaction
  rw [hm]
  split
  · exact ⟨rfl, hw, hf, hh⟩
  all_goals exact .flagged .lockdown ⟨rfl, hw, hf, hh⟩

/-- A violation that names one slot in use does the same in both. -/
theorem SameMonitor.violate {s u : State} (h : SameMonitor s u) (k : Violation) {i : SlotIx}
    (hs : (s.slot i).phase ≠ .idle) (hu : (u.slot i).phase ≠ .idle) :
    SameMonitor (violate k [i] s) (violate k [i] u) := by
  obtain ⟨hm, hw, hf, hh⟩ := h
  have h1 : SameMonitor { s with mon := s.mon.count k } { u with mon := u.mon.count k } :=
    ⟨by dsimp only; rw [hm], hw, hf, hh⟩
  unfold Machine.violate
  rw [hm] at h1 ⊢
  dsimp only
  split
  · exact h1
  · exact h1.halt hs hu
  · exact h1.alarm k
  · exact h1.fault k

/-- The reaction HALT halts the slot named (R181). -/
theorem violate_halts {k : Violation} {i : SlotIx} {s : State} (hr : s.mon.reaction k = .halt)
    (hs : (s.slot i).phase ≠ .idle) : ((violate k [i] s).slot i).halted = true := by
  have h := haltSlots_one_halted (s := { s with mon := s.mon.count k }) hs i
  unfold violate
  rw [hr]
  exact h.trans (if_pos rfl)

/-! ### The admission (R60, R76, R78) -/

/-- A READ in one extent of an ACTIVE ring that the host port takes. -/
structure State.ReadsRing (s : State) (t : HostTag) (x0 c : Nat) (e : Extent) (r : Ring) : Prop
    extends s.TakesData t x0 c where
  map : s.MapOk
  mem : e ∈ s.map
  lo : 8 * e.start ≤ x0
  hi : x0 + c ≤ 8 * e.stop
  monitor : s.mon.state ≠ .lockdown
  runs : (s.slot e.slot).halted = false
  active : (s.slot e.slot).phase = .active
  kind : (s.slot e.slot).kind = Option.some .ring
  ring : (s.slot e.slot).ring = Option.some r
  sized : 1 ≤ r.g

/-- The lap list of a READ in an extent of a ring. -/
def State.readMarks (s : State) (e : Extent) (r : Ring) (x0 c : Nat) : List LapEntry :=
  readLaps r s.clock (touchedBy e r x0 c)

/-- The extent, the title and the segments of a READ in an extent of a ring. -/
def State.readOwned (s : State) (e : Extent) (r : Ring) (x0 c : Nat) : Owned :=
  { s.untested e with
    gen := (s.slot e.slot).gen.getD 0, g := r.g, laps := some (s.readMarks e r x0 c) }

variable {s : State} {t : HostTag} {x0 c : Nat} {e : Extent} {r : Ring}

theorem readMarks_segs : (s.readMarks e r x0 c).map (·.seg) = touchedBy e r x0 c := by
  unfold State.readMarks readLaps
  rw [List.map_map]
  exact List.map_id _

theorem mem_readMarks {l : LapEntry} (hl : l ∈ s.readMarks e r x0 c) :
    l.lap = (r.seg l.seg).lap ∧ l.readable = (r.seg l.seg).readable s.clock := by
  obtain ⟨k, _, rfl⟩ := List.mem_map.mp hl
  exact ⟨rfl, rfl⟩

/-- A unit of the READ is filled with zeros unless its segment is readable. -/
theorem zeroFilled_readOwned {v : Nat} (hv : (v - e.start) / r.g ∈ touchedBy e r x0 c) :
    (s.readOwned e r x0 c).zeroFilled v = false ↔ (r.seg ((v - e.start) / r.g)).readable s.clock = true := by
  obtain ⟨l, hl, hseg⟩ : ∃ l ∈ s.readMarks e r x0 c, l.seg = (v - e.start) / r.g := by
    rw [← readMarks_segs (s := s)] at hv
    exact List.mem_map.mp hv
  have hfind := find?_of_nodup (laps := s.readMarks e r x0 c) (by rw [readMarks_segs]; exact segsTouched_nodup _ _ _) hl
    (n := (s.readOwned e r x0 c).segOf v) hseg
  rw [zeroFilled_eq_false (o := s.readOwned e r x0 c) rfl, hfind, ← hseg, ← (mem_readMarks hl).2]
  simp

theorem touchedBy_mem {v : Nat} (hlo : 8 * e.start ≤ x0) (h1 : x0 / 8 ≤ v) (h2 : v ≤ (x0 + c - 1) / 8) :
    (v - e.start) / r.g ∈ touchedBy e r x0 c := by
  have g1 : (x0 / 8 - e.start) / r.g ≤ (v - e.start) / r.g := Nat.div_le_div_right (by omega)
  have g2 : (v - e.start) / r.g ≤ ((x0 + c - 1) / 8 - e.start) / r.g := Nat.div_le_div_right (by omega)
  exact List.mem_range'_1.mpr (by omega)

/-- The tests of a READ of a ring pass, with its lap list (R60, R76). -/
theorem testPieces_ringRead (h : s.ReadsRing t x0 c e r) : testPieces false s.quiet [pieceIn e x0 c] =
    .ok [{ piece := ringPiece x0 c { s.readOwned e r x0 c with gen := 0 } }] := by
  have hkind : (s.quiet.slot e.slot).kind ≠ some .recording := fun g => nomatch h.kind.symm.trans g
  have hp : testPiece false s.quiet (pieceIn e x0 c) =
      .ok { piece := ringPiece x0 c { s.readOwned e r x0 c with gen := 0 } } := by
    unfold testPiece pieceIn testProtected
    dsimp only
    rw [if_neg (show ¬ s.quiet.mon.state = .lockdown from h.monitor),
      if_neg (Bool.eq_false_iff.mp (show (s.quiet.slot e.slot).halted = false from h.runs)),
      if_neg (show ¬ (s.quiet.slot e.slot).phase ≠ .active from fun g => g h.active), if_neg (fun g => nomatch g.1),
      if_neg (fun g => hkind g.2.1)]
    rw [show (s.quiet.slot e.slot).ring = some r from h.ring]
    rfl
  unfold testPieces
  rw [hp]
  rfl

/-- The command of the READ as it enters the table. -/
def State.ringReadCmd (s : State) (t : HostTag) (e : Extent) (r : Ring) (x0 c : Nat) : Cmd :=
  s.dataCmd false t x0 c [ringPiece x0 c (s.readOwned e r x0 c)]

/-- The state in which it does: its piece counts, and the EXPIRED_READ violation has been counted. -/
def State.ringReadBase (s : State) (t : HostTag) (e : Extent) (r : Ring) (x0 c : Nat) : State :=
  countExpired (s.ringReadCmd t e r x0 c) (raiseFlight (ringPiece x0 c (s.readOwned e r x0 c)) s.quiet)

theorem exec_ringRead (h : s.ReadsRing t x0 c e r) : exec (.hostRead t x0 c) s =
    .next (pump (enterTable (s.ringReadCmd t e r x0 c) (s.ringReadBase t e r x0 c))) := by
  rw [exec_hostRead h.toTakesData]
  unfold admitBelow
  rw [show cutPieces (Config.maxPieces + 1) s.quiet.map x0 (x0 + c) = [pieceIn e x0 c] from
    cutPieces_one (n := 3) h.map.sorted h.mem h.some h.lo h.hi]
  dsimp only
  rw [if_neg (show ¬ Config.maxPieces < [pieceIn e x0 c].length from nofun), testPieces_ringRead h]
  dsimp only
  rw [admitData_eq]
  rfl

/-! ### The violation of the READ (R61) -/

theorem zeroes_readOwned : (ringPiece x0 c (s.readOwned e r x0 c)).zeroes =
    if (touchedBy e r x0 c).any (fun k => !(r.seg k).readable s.clock) then some e.slot else none := by
  show (if (s.readMarks e r x0 c).any (fun l => !l.readable) then some e.slot else none) = _
  unfold State.readMarks readLaps
  rw [List.any_map]
  rfl

theorem countExpired_ringRead (v : State) : countExpired (s.ringReadCmd t e r x0 c) v =
    if (touchedBy e r x0 c).any (fun k => !(r.seg k).readable s.clock) then violate .expiredRead [e.slot] v else v := by
  have hz : (s.ringReadCmd t e r x0 c).pieces.filterMap Piece.zeroes =
      if (touchedBy e r x0 c).any (fun k => !(r.seg k).readable s.clock) then [e.slot] else [] := by
    show [ringPiece x0 c (s.readOwned e r x0 c)].filterMap Piece.zeroes = _
    rw [List.filterMap_cons, zeroes_readOwned]
    split_ifs <;> rfl
  unfold countExpired
  rw [hz, show (s.ringReadCmd t e r x0 c).kind = .read from rfl]
  split_ifs <;> rfl

theorem violated_countExpired (d : Cmd) (v : State) : Violated v (countExpired d v) := by
  unfold countExpired
  split
  · exact violated_violate _ _ _
  · exact ⟨rfl, ⟨rfl, rfl, rfl⟩, fun _ => rfl⟩

/-- The base has the table, the drive port and the frames of the state before; the piece counts in its slot, which keeps
its ring. -/
theorem ringReadBase_keeps (s : State) (t : HostTag) (e : Extent) (r : Ring) (x0 c : Nat) :
    let w := s.ringReadBase t e r x0 c
    (w.table = s.table ∧ w.drive = s.drive ∧ w.buffer = s.buffer) ∧ w.mon.refusal = s.mon.refusal ∧
    (w.slot e.slot).inFlight = (s.slot e.slot).inFlight + 1 ∧ (w.slot e.slot).ring = (s.slot e.slot).ring := by
  intro w
  set f := raiseFlight (ringPiece x0 c (s.readOwned e r x0 c)) s.quiet with hf
  obtain ⟨htable, hdrive, hbuffer, hmon⟩ :
      f.table = s.table ∧ f.drive = s.drive ∧ f.buffer = s.buffer ∧ f.mon = s.mon := by
    rw [hf, raiseFlight_rest]
    exact ⟨rfl, rfl, rfl, rfl⟩
  have hslot : f.slot e.slot = { s.slot e.slot with inFlight := (s.slot e.slot).inFlight + 1 } :=
    (raiseFlight_ringPiece (o := s.readOwned e r x0 c) (x0 := x0) (c := c) s.quiet).1
  obtain ⟨hrest, ⟨_, _, href⟩, hslots⟩ := violated_countExpired (s.ringReadCmd t e r x0 c) f
  have hw : w.slot e.slot = { f.slot e.slot with halted := (w.slot e.slot).halted } := hslots e.slot
  rw [hslot] at hw
  exact ⟨⟨(congrArg State.table hrest).trans htable, (congrArg State.drive hrest).trans hdrive,
    (congrArg State.buffer hrest).trans hbuffer⟩, href.trans (congrArg Monitor.refusal hmon), by rw [hw], by rw [hw]⟩

/-- Every segment is readable: the monitor is left alone. -/
theorem ringReadBase_readable (h : ∀ k ∈ touchedBy e r x0 c, (r.seg k).readable s.clock = true) :
    (s.ringReadBase t e r x0 c).mon = s.mon ∧ (s.ringReadBase t e r x0 c).win = s.win := by
  unfold State.ringReadBase
  rw [countExpired_ringRead, if_neg, raiseFlight_rest]
  · exact ⟨rfl, rfl⟩
  · simpa using h

/-- Some segment is not: one EXPIRED_READ is counted, with its reaction (R61, R179). -/
theorem ringReadBase_expired (ha : (s.slot e.slot).phase = .active)
    (h : ∃ k ∈ touchedBy e r x0 c, ¬ (r.seg k).readable s.clock = true) :
    SameMonitor (violate .expiredRead [e.slot] s) (s.ringReadBase t e r x0 c) := by
  have hraise := raiseFlight_rest (ringPiece x0 c (s.readOwned e r x0 c)) s.quiet
  have hslot := fun i => raiseFlight_slot (ringPiece x0 c (s.readOwned e r x0 c)) s.quiet i
  set f := raiseFlight (ringPiece x0 c (s.readOwned e r x0 c)) s.quiet with hf
  have hsame : SameMonitor s f := by
    refine ⟨?_, ?_, ?_, fun i => by rw [hslot]; rfl⟩
    all_goals rw [hraise]; rfl
  unfold State.ringReadBase
  rw [countExpired_ringRead, ← hf, if_pos (by simpa using h)]
  refine hsame.violate _ (by rw [ha]; exact nofun) ?_
  rw [hslot]
  show (s.slot e.slot).phase ≠ .idle
  rw [ha]
  exact nofun

/-! ### The READ enters the table (R72, R78, R79, R80) -/

/-- A READ with no run enters ENDING (R80). -/
theorem enterTable_ending {d : Cmd} {w : State} (hf : w.fresh d.tag) (hw : d.waitFor = []) (hs : d.waitStores = [])
    (hst : d.state ≠ .failed) (hk : d.kind = .read) (hr : d.runs = []) :
    ∃ k, w.Enters (enterTable d w) d k ∧ k.state = .ending ∧ (enterTable d w).drive = w.drive := by
  have hn := added_newest hf
  have heq : enterTable d w = makeRequests d.tag ((w.added d).setCmdState d.tag .ending) := by
    rw [enterTable_begins hw hs]
    unfold beginCmd
    rw [hn.cmd? hst]
    dsimp only
    rw [if_neg fun g : d.kind = .write ∧ _ => nomatch hk.symm.trans g.1]
    unfold enterCmdActive
    rw [hn.cmd? hst]
    simp only [hk, hr, List.isEmpty_nil, if_true]
  have hq := asks_makeRequests d.tag ((w.added d).setCmdState d.tag .ending)
  obtain ⟨l, k, hl, hk'⟩ := hq.newest (hn.modCmd (fun c => { c with state := .ending }) rfl)
  have htag : k.tag = d.tag := by rw [hk']
  have hstate : k.state = .ending := by rw [hk']
  rw [heq]
  refine ⟨k, ⟨?_, ?_, ?_⟩, hstate, by rw [hq.rest]; rfl⟩
  · exact htag ▸ hl.cmd? (by rw [hstate]; exact nofun)
  · rw [hk']
  · conv_lhs => rw [hq.rest]
    rw [hq.rest]
    rfl

/-- What an admitted READ does first: it waits, sends its first run, or has none to send. -/
theorem enterTable_read {d : Cmd} {w : State} (hf : w.fresh d.tag) (hs : d.waitStores = []) (hst : d.state ≠ .failed)
    (hk : d.kind = .read) : ∃ k, w.Enters (enterTable d w) d k ∧
      (k.waitFor = [] → (k.runs = [] → k.state = .ending ∧ (enterTable d w).drive = w.drive) ∧
        ∀ x, k.runs.head? = some x → k.state = .active ∧ (enterTable d w).drive =
          w.drive.queued { who := .host d.tag, op := .read, lba := x.lba, count := x.len }) ∧
      (k.waitFor ≠ [] → k.state = .waitOverlap ∧ (enterTable d w).drive = w.drive ∧
        (enterTable d w).buffer = w.buffer) := by
  by_cases hw : d.waitFor = []
  · cases hr : d.runs with
    | nil =>
      obtain ⟨k, he, hstate, hd⟩ := enterTable_ending hf hw hs hst hk hr
      have hkr : k.runs = [] := by rw [he.same]; exact hr
      have hkw : k.waitFor = [] := by rw [he.same]; exact hw
      exact ⟨k, he, fun _ => ⟨fun _ => ⟨hstate, hd⟩, fun x hx => by rw [hkr] at hx; cases hx⟩, fun g => absurd hkw g⟩
    | cons x xs =>
      obtain ⟨k, he, hstate, _, hd⟩ := enterTable_active hf hw hs hst (by rw [hr]; rfl) (.inl ⟨hk, rfl⟩)
      have hkr : k.runs = x :: xs := by rw [he.same]; exact hr
      have hkw : k.waitFor = [] := by rw [he.same]; exact hw
      refine ⟨k, he, fun _ => ⟨fun g => (nomatch hkr.symm.trans g), fun y hy => ⟨hstate, ?_⟩⟩, fun g => absurd hkw g⟩
      rw [hkr] at hy
      rw [← Option.some.inj hy]
      exact hd
  · obtain ⟨he, hd, hb⟩ := enterTable_waits hf hw
    exact ⟨_, he, fun g => absurd g hw, fun _ => ⟨rfl, hd, hb⟩⟩

/-- The owner of each unit of the READ. -/
theorem ownedOf_ringRead {v : Nat} (h1 : x0 / 8 ≤ v) (h2 : v ≤ (x0 + c - 1) / 8) :
    (s.ringReadCmd t e r x0 c).ownedOf v = some (s.readOwned e r x0 c) := by
  have hp : (s.ringReadCmd t e r x0 c).pieceOf v = some (ringPiece x0 c (s.readOwned e r x0 c)) :=
    List.find?_cons_of_pos (holdsUnit_iff.mpr ⟨h1, h2⟩)
  unfold Cmd.ownedOf
  rw [hp]
  rfl

/-- The runs of the READ: whole units in order, those of the readable segments (R61, R79). -/
theorem runs_ringRead (h : s.ReadsRing t x0 c e r) :
    Rising (8 * (x0 / 8)) (8 * ((x0 + c - 1) / 8) + 8) (s.ringReadCmd t e r x0 c).runs ∧
    (∀ x ∈ (s.ringReadCmd t e r x0 c).runs, x.len ≤ 65536) ∧
    ∀ v, x0 / 8 ≤ v → v ≤ (x0 + c - 1) / 8 →
      (covers (s.ringReadCmd t e r x0 c).runs (8 * v) ↔ (r.seg ((v - e.start) / r.g)).readable s.clock = true) := by
  have hlo := h.lo
  have hsome := h.some
  have hmost := h.most
  obtain ⟨h1, h2, h3⟩ := ringRuns (p := ringPiece x0 c (s.readOwned e r x0 c)) (clock := s.clock) rfl rfl rfl h.sized
    (show e.start ≤ x0 / 8 by omega) (show x0 / 8 ≤ (x0 + c - 1) / 8 by omega)
  exact ⟨h1, h2 (show (x0 + c - 1) / 8 ≤ x0 / 8 + 8192 by omega), h3⟩

/-- Settles O32: the request for a unit of zeros and its grant, the units filled with zeros, and the admission. -/
theorem ringReadAdmitted : Obligations.RingReadAdmitted := by
  refine ⟨fun s c hk hr hst hq => ?_, fun c v o laps hk ho hl => ?_,
    fun s t x0 c e r htakes htag hmap he h1 h2 hlo hhi hbelow hm hh hp hkind hr hg => ?_⟩
  · have hw := wanted_read hk hr hst hq
    refine ⟨fun hz => ?_, fun hz => ?_, fun hc hf => ?_⟩
    · rw [hw, hz]; rfl
    · rw [hw, hz]; rfl
    · obtain ⟨⟨f, hmem, hholder, hunit, hcond, hdir, hdata⟩, hcmd⟩ := grant_nextFill hk hc hf
      exact ⟨f, hmem, hholder, hunit, hcond, hdir, hdata, _, hcmd, rfl⟩
  · rw [zeroFilled_read hk ho, zeroFilled_eq_false hl]
    simp only [find?_seg_iff]
    constructor
    · rintro ⟨l, ⟨before, after, hlaps, hseg, hfirst⟩, hread⟩
      exact ⟨before, l, after, hlaps, hseg, hread, hfirst⟩
    · rintro ⟨before, l, after, hlaps, hseg, hread, hfirst⟩
      exact ⟨l, ⟨before, after, hlaps, hseg, hfirst⟩, hread⟩
  · intro readable touched
    have h : s.ReadsRing t x0 c e r := ⟨⟨htakes, htag, h1, h2, hbelow⟩, hmap, he, hlo, hhi, hm, hh, hp, hkind, hr, hg⟩
    have hread : ∀ k, readable k ↔ (r.seg k).readable s.clock = true := fun k =>
      (Segment.readable_iff (r.seg k) s.clock).symm
    obtain ⟨⟨htable, hdrive, hbuffer⟩, href, hflight, hring⟩ := ringReadBase_keeps s t e r x0 c
    obtain ⟨hrise, hlen, hcover⟩ := runs_ringRead h
    set d := s.ringReadCmd t e r x0 c with hd
    set w := s.ringReadBase t e r x0 c with hw
    have hfresh : w.fresh d.tag := fun y hy => fresh_of_tagTest htag y (htable ▸ hy)
    obtain ⟨k, hk, hnow, hlater⟩ := enterTable_read hfresh rfl nofun rfl
    have hruns : k.runs = d.runs := by rw [hk.same]
    have hzero : ∀ v, k.zeroFilled v = d.zeroFilled v := fun v => by rw [hk.same]; rfl
    have hmon : (enterTable d w).mon = w.mon := by rw [hk.rest]
    have hwin : (enterTable d w).win = w.win := by rw [hk.rest]
    rw [← hruns] at hrise hlen hcover
    refine ⟨_, k, s.readOwned e r x0 c, s.readMarks e r x0 c, exec_ringRead h, hk.cmd, by rw [hk.same]; rfl,
      by rw [hk.same]; rfl, rfl, readMarks_segs, rfl, rfl, rfl, rfl, fun l hl => ?_, fun v hv1 hv2 => ⟨?_, ?_⟩,
      fun x hx => ?_, hrise.pairwise, fun hn => ⟨fun hnil => ?_, fun x hx => ?_⟩, fun hn => ?_, ?_, ?_, ?_,
      fun hall => ?_, fun hex => ?_⟩
    · obtain ⟨hlap, hmark⟩ := mem_readMarks hl
      exact ⟨hlap, by rw [hmark]; exact (hread _).symm⟩
    · rw [hrise.covers_unit, hcover v hv1 hv2, hread]
    · rw [hzero, zeroFilled_read rfl (ownedOf_ringRead hv1 hv2), hread,
        ← zeroFilled_readOwned (touchedBy_mem hlo hv1 hv2), Bool.not_eq_false]
    · obtain ⟨g1, _, _, g4, g5⟩ := hrise.inside x hx
      exact ⟨g1, g5, g4, hlen x hx⟩
    · obtain ⟨g1, g2⟩ := (hnow hn).1 hnil
      exact ⟨g1, g2.trans hdrive⟩
    · obtain ⟨g1, g2⟩ := (hnow hn).2 x hx
      exact ⟨g1, by rw [g2, hdrive]; rfl⟩
    · obtain ⟨g1, g2, g3⟩ := hlater hn
      exact ⟨g1, g2.trans hdrive, g3.trans hbuffer⟩
    · rw [hk.slot]; exact hflight
    · rw [hk.slot]; exact hring.trans hr
    · rw [hmon]; exact href
    · rw [hmon, hwin]
      exact ringReadBase_readable fun k hk => (hread k).mp (hall k hk)
    · have hsame := ringReadBase_expired (t := t) hp (hex.imp fun k ⟨hk, hn⟩ => ⟨hk, fun g => hn ((hread k).mpr g)⟩)
      intro v
      refine ⟨?_, fun hhalt => ?_, hmon.trans hsame.mon, hwin.trans hsame.win, fun i => ?_⟩
      · rw [hmon, hsame.mon, violate_counters]
        exact Vector.getElem_set_self _
      · rw [hk.slot, hsame.halted]
        exact violate_halts hhalt (by rw [hp]; exact nofun)
      · rw [hk.slot]
        exact hsame.halted i

end Sys2Proof.Machine
end

section
/-!
O20. The reset of the drive link at HOLD_LIMIT and ERROR_RECORD_TIMEOUT: what it leaves, and the end of the host commands
that had a drive command outstanding (R92, R93, R119).
-/

namespace Sys2Proof.Machine

/-- The state in which the drive link has been reset and no host command has ended yet. -/
def State.linkDown (s : State) : State :=
  failingKnown (fun c => { c with ending := .deviceError })
    ((stopLink { s with drive := { s.drive with
      link := .resetting, outstanding := [], errorRead := false, reissue := s.drive.reissue ++ s.abandonedOps } }).emit
        .driveLinkReset)

theorem resetDriveLink_eq (s : State) :
    resetDriveLink s = s.abandonedTags.foldl (fun s t => failCommand t .deviceError s) s.linkDown := rfl

theorem State.linkDown_eq (s : State) : s.linkDown = { s with
    out := s.out ++ [.driveLinkReset]
    drive := { s.drive with
      link := .resetting, outstanding := [], errorRead := false, failing := none, hold := none, xfer := none,
      reissue := s.drive.reissue ++ s.abandonedOps }
    buffer := { s.buffer with requests := s.buffer.requests.filter fun q => decide (q.kind ≠ .push) }
    host := { s.host with
      due := s.host.due ++ (s.drive.failing.map fun c => { c with ending := .deviceError }).toList } } :=
  failingKnown_rest _ _

/-- A reset of the drive link ends exactly the commands with a drive command outstanding, and notes the service operations
to be issued again. -/
theorem linkReset_resetDriveLink (s : State) : s.LinkReset (resetDriveLink s) ∧
    (resetDriveLink s).drive.reissue = s.drive.reissue ++ s.abandonedOps := by
  rw [resetDriveLink_eq]
  have hv := s.linkDown_eq
  set v := s.linkDown
  have hf := fades_failAll .deviceError s.abandonedTags v
  have hcmd : ∀ t, v.cmd? t = s.cmd? t := fun t => by rw [hv]; rfl
  have hpush : ∀ q ∈ v.buffer.requests, q.kind ≠ .push := fun q hq => by
    rw [hv] at hq
    simpa using (List.mem_filter.mp hq).2
  obtain ⟨hhold, hxfer⟩ := hf.link hpush
  refine ⟨⟨?_, ?_, ⟨?_, ?_, ?_, ?_, ?_⟩, fun c hc => hf.due ?_, fun t c hc hd => ?_, ?_, fun t c hc hd => ?_,
    ?_, ?_, ?_⟩, ?_⟩
  · rw [hf.drive, hv]
  · rw [hf.rest, hv]; simp
  · obtain ⟨p, _, _, h⟩ := hf.queues; rw [h, hv]; rfl
  · rw [hf.drive, hv]
  · rw [hf.drive, hv]
  · exact hhold (by rw [hv])
  · exact hxfer (by rw [hv])
  · rw [hv]; simp [hc]
  · have hm : t ∈ s.abandonedTags := mem_abandonedTags.mpr ⟨⟨c, cmd?_mem hc⟩, hd⟩
    obtain ⟨⟨h1, h2, h3⟩, h4⟩ := failed_failAll .deviceError _ v hm ((hcmd t).trans hc)
    exact ⟨h1, h2, h4, h3 c ((hcmd t).trans hc)⟩
  · rw [hf.rest, hv]
  · have hm : t ∉ s.abandonedTags := fun hm => by
      have := (mem_abandonedTags.mp hm).2
      rw [hd] at this; cases this
    obtain ⟨d, h, _⟩ := hf.kept hm ((hcmd t).trans hc)
    rw [h]; rfl
  · rw [hf.rest, hv]
  · rw [hf.rest, hv]
  · rw [hf.rest, hv]
  · rw [hf.drive, hv]

/-- What the links showed in the step before plays no part in a reset of the drive link. -/
theorem State.LinkReset.of_quiet {s u : State} (h : s.quiet.LinkReset u) : s.LinkReset u :=
  { link := h.link, sent := h.sent, nothing := h.nothing, unread := h.unread, ended := h.ended, slots := h.slots,
    kept := h.kept, monitor := h.monitor }

theorem exec_holdLimit {s : State} (hr : s.inReset = false) : exec .holdLimit s =
    .next (if s.drive.hold = none then s.quiet else pump (resetDriveLink s.quiet)) :=
  act_running s holdEnds hr

theorem exec_errorRecordTimeout {s : State} (hr : s.inReset = false) : exec .errorRecordTimeout s =
    .next (if s.drive.errorRead then pump (resetDriveLink s.quiet) else s.quiet) :=
  act_running s errorRecordFails hr

/-- Settles O20, by the one reset of the drive link that both limits make. -/
theorem limitsResetTheLink : Obligations.LimitsResetTheLink := by
  refine ⟨fun s hr hh => ?_, fun s hr he => ?_, fun s hr hh => ?_, fun s hr he => ?_⟩
  · obtain ⟨h1, h2⟩ := linkReset_resetDriveLink s.quiet
    exact ⟨_, by rw [exec_holdLimit hr, if_neg hh], h1.of_quiet, h2⟩
  · obtain ⟨h1, h2⟩ := linkReset_resetDriveLink s.quiet
    exact ⟨_, by rw [exec_errorRecordTimeout hr, if_pos he], h1.of_quiet, h2⟩
  · rw [exec_holdLimit hr, if_pos hh]; rfl
  · rw [exec_errorRecordTimeout hr, he]; rfl

end Sys2Proof.Machine
end

section
/-!
O18. DRIVE_ISSUE: the head of the drive issue queue goes to the drive exactly when the drive can take it (R70, R92, R119,
R156).
-/

namespace Sys2Proof.Machine

/-- The head of the queue has gone to the drive. -/
def State.headIssued (s : State) (d : DriveCmd) (rest : List DriveCmd) : State :=
  ({ s with drive := { s.drive with queue := rest, outstanding := s.drive.outstanding ++ [d] } }).emit (.issued d)

/-- The condition of R70 on an entry and the commands outstanding at the drive. -/
theorem canTake_iff {s : State} {d : DriveCmd} : s.canTake d = true ↔
    if queuedWho d.who then ∀ o ∈ s.drive.outstanding, queuedWho o.who = true else s.drive.outstanding = [] := by
  unfold State.canTake
  split <;> simp

theorem exec_driveIssue {s : State} (hr : s.inReset = false) : exec .driveIssue s = .next (issueHead s.quiet) :=
  act_running s issueHead hr

theorem issueHead_issues {s : State} {d : DriveCmd} {rest : List DriveCmd} (hq : s.drive.queue = d :: rest)
    (hl : s.drive.link = .up) (he : s.drive.errorRead = false) (hh : s.drive.hold = none) (hd : s.canTake d = true) :
    issueHead s = noteIssue d.who (s.headIssued d rest) := by
  unfold issueHead
  rw [hq]
  exact if_pos ⟨driveWorks_of hl he, hh, hd⟩

theorem issueHead_idle {s : State} (h : s.drive.queue = [] ∨ s.drive.link ≠ .up ∨ s.drive.errorRead = true ∨
    s.drive.hold ≠ none ∨ ∃ d rest, s.drive.queue = d :: rest ∧ s.canTake d = false) : issueHead s = s := by
  unfold issueHead
  split
  · rfl
  · rename_i d rest hq
    refine if_neg fun ⟨hw, hh, hd⟩ => ?_
    rw [State.driveWorks, Bool.and_eq_true, decide_eq_true_eq, Bool.not_eq_true'] at hw
    rcases h with h | h | h | h | ⟨d', rest', h, hn⟩
    · rw [h] at hq; cases hq
    · exact h hw.1
    · rw [h] at hw; exact Bool.noConfusion hw.2
    · exact h hh
    · obtain ⟨rfl, rfl⟩ := List.cons.inj (hq.symm.trans h)
      rw [hn] at hd; cases hd

/-- The first issue of a service operation is noted by its moment; a later one is not (R156). -/
theorem noteIssue_service (g : SvcTag) (s : State) : noteIssue (.service g) s = { s with
    stamp := s.stamp + 1,
    cat := { s.cat with flights := s.cat.flights.map fun f =>
      if f.tag = g ∧ f.issued = none then { f with issued := some s.stamp } else f } } := by
  have hmap : ∀ f : Flight, (if f.tag = g then (match f.issued with
      | none => { f with issued := some s.stamp }
      | some _ => f) else f) = if f.tag = g ∧ f.issued = none then { f with issued := some s.stamp } else f := fun f => by
    by_cases ht : f.tag = g
    · cases hi : f.issued <;> simp [ht]
    · simp [ht]
  exact congrArg (fun m : Flight → Flight => { s with
    stamp := s.stamp + 1, cat := { s.cat with flights := s.cat.flights.map m } }) (funext hmap)

/-- Settles O18: the head goes under the condition of R70, and a service entry's first issue is noted. -/
theorem headIsIssued : Obligations.HeadIsIssued := by
  refine ⟨fun s d rest t hr hq hl he hh hw hd => ?_, fun s d rest g hr hq hl he hh hw hd => ?_, fun s hr h => ?_⟩
  · have hissue := issueHead_issues (s := s.quiet) hq hl he hh (canTake_iff.mpr hd)
    rw [exec_driveIssue hr, hissue, hw]
    rfl
  · have hissue := issueHead_issues (s := s.quiet) hq hl he hh (canTake_iff.mpr (by rw [hw]; exact hd))
    rw [exec_driveIssue hr, hissue, hw, noteIssue_service]
    rfl
  · have hidle := issueHead_idle (s := s.quiet) h
    rw [exec_driveIssue hr, hidle]
    rfl

end Sys2Proof.Machine
end

section
/-!
O26. The tests of a piece in their order, on the piece alone and on a command that lies in one extent (R42, R76).
-/

namespace Sys2Proof.Machine

/-! ### The tests of a protected piece (R76) -/

section tests

variable {write : Bool} {s : State} {p : Piece} {o : Owned}

theorem testPiece_lockdown (hp : p.owned = some o) (hm : s.mon.state = .lockdown) :
    testPiece write s p = .error { reason := .lockdown } := by
  simp [testPiece, testProtected, hp, hm]

theorem testPiece_halted (hp : p.owned = some o) (hm : s.mon.state ≠ .lockdown) (hh : (s.slot o.slot).halted = true) :
    testPiece write s p = .error { reason := .halted } := by
  simp [testPiece, testProtected, hp, hm, hh]

theorem testPiece_closing (hp : p.owned = some o) (hm : s.mon.state ≠ .lockdown) (hh : (s.slot o.slot).halted = false)
    (ha : (s.slot o.slot).phase ≠ .active) : testPiece write s p = .error { reason := .closing } := by
  simp [testPiece, testProtected, hp, hm, hh, ha]

theorem testPiece_sealed (hp : p.owned = some o) (hm : s.mon.state ≠ .lockdown) (hh : (s.slot o.slot).halted = false)
    (ha : (s.slot o.slot).phase = .active) (hs : (s.slot o.slot).state ≠ some .recording) :
    testPiece true s p = .error { reason := .sealed, named := [o.slot] } := by
  simp [testPiece, testProtected, hp, hm, hh, ha, hs]

theorem testPiece_clockUnset (hp : p.owned = some o) (hm : s.mon.state ≠ .lockdown)
    (hh : (s.slot o.slot).halted = false) (ha : (s.slot o.slot).phase = .active)
    (hk : (s.slot o.slot).kind = some .recording) (hx : (s.slot o.slot).expiry ≠ none) (hc : s.clock = none) :
    testPiece false s p = .error { reason := .clockUnset } := by
  simp [testPiece, testProtected, hp, hm, hh, ha, hk, hc, Option.isSome_iff_ne_none.mpr hx]

/-- A piece of no ring that passes the tests takes its slot's title number. -/
theorem testPiece_passes (hp : p.owned = some o) (hm : s.mon.state ≠ .lockdown) (hh : (s.slot o.slot).halted = false)
    (ha : (s.slot o.slot).phase = .active) (hs : write = true → (s.slot o.slot).state = some .recording)
    (hc : write = false →
      ¬ ((s.slot o.slot).kind = some .recording ∧ (s.slot o.slot).expiry ≠ none ∧ s.clock = none))
    (hr : (s.slot o.slot).ring = none) : testPiece write s p =
      .ok { piece := { p with owned := some { o with title := (s.slot o.slot).number.getD 0 } } } := by
  have hstate : ¬ (write = true ∧ (s.slot o.slot).state ≠ some .recording) := fun h => h.2 (hs h.1)
  have hclock : ¬ (write = false ∧ (s.slot o.slot).kind = some .recording ∧ (s.slot o.slot).expiry.isSome = true ∧
      s.clock = none) := fun ⟨h1, h2, h3, h4⟩ => hc h1 ⟨h2, Option.isSome_iff_ne_none.mp h3, h4⟩
  unfold testPiece testProtected
  rw [hp]
  dsimp only
  rw [if_neg hm, hh, if_neg Bool.false_ne_true, if_neg (not_not.mpr ha), if_neg hstate, if_neg hclock, hr]

end tests

/-! ### A command in one extent -/

/-- A READ or WRITE of one extent is refused as its one piece is. -/
theorem hostData_oneExtent {s : State} {t : HostTag} {x0 c : Nat} {e : Extent} (h : s.TakesData t x0 c) (hmap : s.MapOk)
    (he : e ∈ s.map) (hlo : 8 * e.start ≤ x0) (hhi : x0 + c ≤ 8 * e.stop) (write : Bool) {x : Refused}
    (hx : testPiece write s (pieceIn e x0 c) = .error x) :
    ∃ u, exec (if write then .hostWrite t x0 c else .hostRead t x0 c) s = .next (pump u) ∧
      s.quiet.Refuses u t x0 c x.reason := by
  have hps : cutPieces 5 s.map x0 (x0 + c) = [pieceIn e x0 c] := cutPieces_one hmap.sorted he h.some hlo hhi
  refine hostData_refused h write (by rw [hps]; exact Nat.le_of_ble_eq_true rfl) ?_
  rw [hps]
  exact testPieces_first hx [] fun _ hq => absurd hq List.not_mem_nil

/-- Settles O26: each test stands before the next, for the piece, and for a command that is one piece. -/
theorem titleTestsInOrder : Obligations.TitleTestsInOrder := by
  refine ⟨fun s write p hp => ⟨fun h => ?_, fun h => ?_⟩, fun s write p o hp => ?_,
    fun s t x0 c e htakes htag hmap he h1 h2 hlo hhi hb => ?_⟩
  · unfold testPiece
    rw [hp]
    exact if_pos h
  · unfold testPiece
    rw [hp]
    exact if_neg (by rw [State.dataPolicy, h]; exact nofun)
  · exact ⟨testPiece_lockdown hp, testPiece_halted hp, testPiece_closing hp, fun hm hh ha =>
      ⟨fun hw hs => by rw [hw]; exact testPiece_sealed hp hm hh ha hs,
       fun hw hk hx hc => by rw [hw]; exact testPiece_clockUnset hp hm hh ha hk hx hc,
       testPiece_passes hp hm hh ha⟩⟩
  · have hdata := hostData_oneExtent ⟨htakes, htag, h1, h2, hb⟩ hmap he hlo hhi
    have hread : ∀ r named, testPiece false s (pieceIn e x0 c) = .error { reason := r, named := named } →
        ∃ u, exec (.hostRead t x0 c) s = .next (pump u) ∧ s.quiet.Refuses u t x0 c r := fun _ _ => hdata false
    have hwrite : ∀ r named, testPiece true s (pieceIn e x0 c) = .error { reason := r, named := named } →
        ∃ u, exec (.hostWrite t x0 c) s = .next (pump u) ∧ s.quiet.Refuses u t x0 c r := fun _ _ => hdata true
    have hown : (pieceIn e x0 c).owned = some { slot := e.slot, title := 0, extStart := e.start, first := e.first } := rfl
    exact ⟨fun hm => ⟨hread _ _ (testPiece_lockdown hown hm), hwrite _ _ (testPiece_lockdown hown hm)⟩,
      fun hm hh => ⟨hread _ _ (testPiece_halted hown hm hh), hwrite _ _ (testPiece_halted hown hm hh)⟩,
      fun hm hh ha => ⟨hread _ _ (testPiece_closing hown hm hh ha), hwrite _ _ (testPiece_closing hown hm hh ha)⟩,
      fun hm hh ha hs => hwrite _ _ (testPiece_sealed hown hm hh ha hs),
      fun hm hh ha hk hx hc => hread _ _ (testPiece_clockUnset hown hm hh ha hk hx hc)⟩

end Sys2Proof.Machine
end

section
/-!
O23, and SUPPORT for the host commands. A command arrives at the host port: it is held off, refused for its tag or for the
mode, or taken (R69, R73, R74, R77, R88, R205).
-/

namespace Sys2Proof.Machine

/-! ### Arrivals (R69) -/

/-- A host command acts by its arrival alone. -/
theorem exec_arrival {c : Instr} {a : Arrival} (s : State) (hw : c.WellFormed = true) (ha : arrivalOf c = some a) :
    exec c s = act s (arriveAndPump a) := by
  cases c with
  | hostRead t lba count => cases ha; exact if_pos hw
  | hostWrite t lba count => cases ha; exact if_pos hw
  | deallocate t => cases ha; rfl
  | flush t => cases ha; rfl
  | identify t => cases ha; rfl
  | pass t words data => cases ha; exact if_pos hw
  | capacityRefusedCommand t range => cases ha; rfl
  | _ => cases ha

/-- Without a host link nothing moves on it. -/
theorem pump_of_down {s : State} (h : s.host.up = false) : pump s = s := by
  have hserve : s.serving = none := by
    unfold State.serving
    split
    · split
      · exact if_neg fun e => by rw [h] at e; exact Bool.false_ne_true e.1
      · rfl
    · rfl
  have h1 : serveOn s = s := by unfold serveOn produceSectors; rw [hserve]
  have h2 : sendAll s = s := if_neg fun e => by rw [h] at e; exact Bool.false_ne_true e.1
  have h3 : startNext s = s := if_neg fun e => by rw [h] at e; exact Bool.false_ne_true e.1
  rw [pump, h1, h2, h3]

theorem holdsOff_iff {s : State} : s.holdsOff = true ↔ s.phase = .starting ∨ s.host.rangeSector ≠ none := by
  unfold State.holdsOff
  rw [Bool.or_eq_true, decide_eq_true_eq, Option.isSome_iff_ne_none]

/-- A command that arrives while the host port holds off waits there. -/
theorem arrive_held {a : Arrival} {s : State} (hup : s.host.up = true) (h : s.phase = .starting ∨ s.host.rangeSector ≠ none) :
    arrive a s = { s with host := { s.host with held := s.host.held ++ [a] } } := by
  unfold arrive
  rw [if_pos hup, if_pos (holdsOff_iff.mpr h)]

/-- One that arrives while it does not is taken by the command table. -/
theorem arrive_taken {a : Arrival} {s : State} (h : s.TakesHost) : arrive a s.quiet = takeCommand a s.quiet := by
  have hoff : ¬ s.quiet.holdsOff = true := fun e => (holdsOff_iff.mp e).elim h.started (absurd h.free)
  unfold arrive
  rw [if_pos (show s.quiet.host.up = true from h.up), if_neg hoff]

theorem exec_takes {c : Instr} {a : Arrival} {s : State} (h : s.TakesHost) (hw : c.WellFormed = true)
    (ha : arrivalOf c = some a) : exec c s = .next (pump (takeCommand a s.quiet)) := by
  rw [exec_arrival s hw ha, act_running s _ h.running, arriveAndPump, arrive_taken h]

/-- A command that passes the tests of R73 goes on by its kind (R74). -/
theorem exec_takesKind {c : Instr} {a : Arrival} {s : State} (h : s.TakesHost) (hw : c.WellFormed = true)
    (ha : arrivalOf c = some a) (ht : tagTest s a.tag = none) : exec c s = .next (pump (takeKind a s.quiet)) := by
  rw [exec_takes h hw ha, takeCommand, show tagTest s.quiet a.tag = none from ht]

/-! ### Refusals (R77) -/

theorem refuses_refuseAt (t : HostTag) (r : Reason) (range : Option Range) (s : State) :
    s.Refuses (refuseAt t r range s) t (range.getD { lba := 0, len := 0 }).lba (range.getD { lba := 0, len := 0 }).len
      r := by
  cases range with
  | none => exact refuses_refuse t 0 0 r [] s
  | some x => exact refuses_refuse t x.lba x.len r [] s

/-- A command that fails a test of R73 is refused with that test's reason. -/
theorem exec_refusesTag {c : Instr} {a : Arrival} {s : State} {r : Reason} (h : s.TakesHost) (hw : c.WellFormed = true)
    (ha : arrivalOf c = some a) (ht : tagTest s a.tag = some r) :
    ∃ u, exec c s = .next (pump u) ∧
      s.quiet.Refuses u a.tag (a.range.getD { lba := 0, len := 0 }).lba (a.range.getD { lba := 0, len := 0 }).len r := by
  refine ⟨refuseAt a.tag r a.range s.quiet, ?_, refuses_refuseAt _ _ _ _⟩
  rw [exec_takes h hw ha, takeCommand, show tagTest s.quiet a.tag = some r from ht]

/-! ### Tags in use (R72, R73) -/

/-- Between range sectors a tag is in use by a command of the table, or by a completion that is no refusal's. -/
theorem tagBusy_iff {s : State} (h : s.host.rangeSector = none) {t : HostTag} : s.tagBusy t = true ↔
    (∃ d ∈ s.table, d.tag = t) ∨ ∃ e ∈ s.host.due, e.tag = t ∧ e.ending ≠ .refused := by
  simp [State.tagBusy, Completion.holdsTag, h]

theorem anyBusy_of_tagBusy {s : State} {t : HostTag} (h : s.tagBusy t = true) : s.anyBusy = true := by
  unfold State.tagBusy at h
  unfold State.anyBusy
  simp only [Bool.or_eq_true, List.any_eq_true, decide_eq_true_eq, Bool.and_eq_true, Bool.not_eq_true',
    List.isEmpty_eq_false_iff_exists_mem] at h ⊢
  rcases h with (⟨c, hc, _⟩ | h) | ⟨e, he, _, h⟩
  · exact .inl (.inl ⟨c, hc⟩)
  · exact .inl (.inr (by rw [h]; rfl))
  · exact .inr ⟨e, he, h⟩

theorem tagTest_tag {s : State} {n : Fin 32} (h : 27 < n.val ∨ s.tagBusy (.queued n) = true) :
    tagTest s (.queued n) = some .tag := by
  unfold tagTest
  dsimp only
  by_cases hn : 27 < n.val
  · exact if_pos hn
  · rw [if_neg hn]
    exact if_pos (h.resolve_left hn)

theorem tagTest_notNow {s : State} {n : Fin 32} (hn : n.val ≤ 27) (h : ¬ s.tagBusy (.queued n) = true)
    (hi : s.tagBusy .immediate = true) : tagTest s (.queued n) = some .notNow := by
  unfold tagTest
  dsimp only
  rw [if_neg (Nat.not_lt.mpr hn), if_neg h, if_pos hi]

/-- Settles O23: what the host port holds off, and the tests of R73 in their order. -/
theorem arrivalsTested : Obligations.ArrivalsTested := by
  refine ⟨⟨fun c a s hw ha hr hup h => ?_, fun c a s hw ha hr hup => ?_⟩, fun c a s hw ha htakes => ?_⟩
  · rw [exec_arrival s hw ha, act_running s _ hr, arriveAndPump, arrive_held (s := s.quiet) hup h]
    rfl
  · have hdown : arrive a s.quiet = s.quiet := if_neg (by
      rw [State.quiet_host, hup]
      exact Bool.false_ne_true)
    rw [exec_arrival s hw ha, act_running s _ hr, arriveAndPump, hdown, pump_of_down (s := s.quiet) hup]
    rfl
  · have hbusy := fun t => tagBusy_iff htakes.free (t := t)
    have hrefuse := fun r => exec_refusesTag (r := r) htakes hw ha
    refine ⟨fun n hn h => hrefuse _ ?_, fun n hn hle hfree hi => hrefuse _ ?_, fun hn ⟨t, h⟩ => hrefuse _ ?_⟩
    · rw [hn]
      exact tagTest_tag (h.imp_right (hbusy _).mpr)
    · rw [hn]
      exact tagTest_notNow hle (fun e => hfree ((hbusy _).mp e)) ((hbusy _).mpr hi)
    · rw [hn]
      exact if_pos (anyBusy_of_tagBusy ((hbusy t).mpr h))

end Sys2Proof.Machine
end

section
/-!
SUPPORT. The requests of one command (R117, R118, R120, R121): they change its own counts alone, and the frames of a
command that sends stay as they are.
-/

namespace Sys2Proof.Machine

/-! ### Commands by their tags -/

/-- Where no two commands have one tag, the look-up finds each command at work. -/
theorem cmd?_of_mem {s : State} {k : Cmd} (hn : (s.table.map (·.tag)).Nodup) (hk : k ∈ s.table) (hs : k.state ≠ .failed) :
    s.cmd? k.tag = some k := by
  cases hc : s.cmd? k.tag with
  | none => exact absurd (cmd?_eq_none.mp hc k hk rfl) hs
  | some c =>
    obtain ⟨hm, ht⟩ := cmd?_mem hc
    rw [List.inj_on_of_nodup_map hn hm hk ht]

/-! ### What the requests of one command change -/

/-- The command of tag t has asked for frames between s and u: its own counts may have risen. -/
structure AsksOf (t : HostTag) (s u : State) : Prop where
  rest : u = { s with table := u.table, buffer := u.buffer, stamp := u.stamp }
  table : ∃ g : Cmd → Cmd, u.table = s.table.map g ∧ ∀ c,
    g c = { c with received := (g c).received, granted := (g c).granted } ∧ c.received ≤ (g c).received ∧
    (c.tag ≠ t → g c = c)

namespace AsksOf

variable {t : HostTag} {s u v : State}

theorem refl (t : HostTag) (s : State) : AsksOf t s s := ⟨rfl, id, by simp, fun _ => ⟨rfl, Nat.le_refl _, fun _ => rfl⟩⟩

theorem trans (h : AsksOf t s u) (k : AsksOf t u v) : AsksOf t s v where
  rest := by rw [k.rest, h.rest]
  table := by
    obtain ⟨g, h1, h2⟩ := h.table
    obtain ⟨g', k1, k2⟩ := k.table
    refine ⟨g' ∘ g, by rw [k1, h1, List.map_map], fun c => ?_⟩
    obtain ⟨a1, a2, a3⟩ := h2 c
    obtain ⟨b1, b2, b3⟩ := k2 (g c)
    have htag : (g c).tag = c.tag := by rw [a1]
    rw [Function.comp_apply]
    exact ⟨by rw [b1, a1], a2.trans b2, fun e => by rw [b3 (htag ▸ e), a3 e]⟩

/-- The command of a tag afterwards. -/
theorem cmd? (h : AsksOf t s u) {a : HostTag} {c : Cmd} (hc : s.cmd? a = some c) : ∃ k, u.cmd? a = some k ∧
    k = { c with received := k.received, granted := k.granted } ∧ c.received ≤ k.received := by
  obtain ⟨g, h1, h2⟩ := h.table
  refine ⟨g c, ?_, (h2 c).1, (h2 c).2.1⟩
  rw [cmd?_map h1 (fun c => by rw [(h2 c).1]) fun c _ => by rw [(h2 c).1], hc]
  rfl

end AsksOf

theorem asksOf_modCmd (s : State) (t : HostTag) {f : Cmd → Cmd}
    (hf : ∀ c, f c = { c with received := (f c).received, granted := (f c).granted } ∧ c.received ≤ (f c).received) :
    AsksOf t s (s.modCmd t f) where
  rest := rfl
  table := by
    refine ⟨_, rfl, fun c => ?_⟩
    by_cases e : c.tag = t
    · rw [if_pos e]; exact ⟨(hf c).1, (hf c).2, absurd e⟩
    · rw [if_neg e]; exact ⟨rfl, Nat.le_refl _, fun _ => rfl⟩

theorem asksOf_buffer (t : HostTag) (s : State) (b : FrameBuffer) (n : Nat) :
    AsksOf t s { s with buffer := b, stamp := n } :=
  ⟨rfl, (AsksOf.refl t s).table⟩

theorem asksOf_grant {r : Req} (s : State) (hk : r.kind ≠ .push) : AsksOf r.tag s (grant r s) := by
  unfold grant
  split
  · rename_i c n _ _
    have hh : AsksOf r.tag s (s.holdFrame (grantedFrame r c n s)).tickStamp := asksOf_buffer _ s _ _
    dsimp only
    split
    · contradiction
    · exact hh.trans (asksOf_modCmd _ _ fun _ => ⟨rfl, Nat.le_succ _⟩)
    · exact hh.trans (asksOf_modCmd _ _ fun _ => ⟨rfl, Nat.le_refl _⟩)
  · exact .refl _ s

theorem asksOf_takeBase (t : HostTag) (n : Nat) (s : State) : AsksOf t s (takeBase t n s) := by
  unfold takeBase
  have h1 : AsksOf t s (s.modFrame n fun f => { f with cond := .filling, fromHost := true, order := s.stamp }) :=
    asksOf_buffer t s _ s.stamp
  have h2 := h1.trans (asksOf_modCmd (f := fun c => { c with granted := c.granted + 1 }) _ t fun _ => ⟨rfl, Nat.le_refl _⟩)
  exact h2.trans (asksOf_buffer t _ _ _)

theorem asksOf_followUp : ∀ (fuel : Nat) (t : HostTag) (s : State), AsksOf t s (followUp fuel t s)
  | 0, t, s => .refl t s
  | fuel + 1, t, s => by
    unfold followUp
    split
    · exact .refl t s
    · rename_i c hc
      split
      · exact .refl t s
      · exact (asksOf_takeBase t _ s).trans (asksOf_followUp fuel t _)
      · rename_i r hw
        have ht : r.tag = t := (wanted_tag hw).trans (cmd?_mem hc).2
        split
        · exact (ht ▸ asksOf_grant s (wanted_kind hw)).trans (asksOf_followUp fuel t _)
        · exact asksOf_buffer t s _ s.stamp

theorem asksOf_makeRequests (t : HostTag) (s : State) : AsksOf t s (makeRequests t s) := asksOf_followUp 16 t s

/-- A command that wants nothing makes no request. -/
theorem followUp_nothing (fuel : Nat) {t : HostTag} {s : State} {c : Cmd} (hc : s.cmd? t = some c)
    (hw : wanted c s = .nothing) : followUp fuel t s = s := by
  cases fuel with
  | zero => rfl
  | succ fuel =>
    unfold followUp
    rw [hc]
    dsimp only
    rw [hw]

/-- Neither does one whose data goes neither way. -/
theorem makeRequests_dataless {t : HostTag} {s : State} {c : Cmd} (hc : s.cmd? t = some c) (h1 : c.sends = false)
    (h2 : c.takes = false) : makeRequests t s = s := by
  refine followUp_nothing 16 hc ?_
  unfold wanted
  rw [h1, h2]
  rfl

/-- A request that is granted at once, and those that follow it. -/
theorem makeRequests_granted {t : HostTag} {s : State} {c : Cmd} {r : Req} (hc : s.cmd? t = some c)
    (hw : wanted c s = .ask r) (hg : grantable r s = true) : makeRequests t s = followUp 15 t (grant r s) := by
  unfold makeRequests followUp
  rw [hc]
  dsimp only
  rw [hw]
  exact if_pos hg

/-! ### The frames of a command that sends -/

theorem find?_insertFrame_of_ne {g : Frame} {n : Nat} (hg : g.num ≠ n) : ∀ l : List Frame,
    (insertFrame g l).find? (fun f => decide (f.num = n)) = l.find? fun f => decide (f.num = n)
  | [] => by simp [insertFrame, hg]
  | x :: xs => by
    unfold insertFrame
    split
    · rw [List.find?_cons_of_neg (by simpa using hg)]
    · rw [List.find?_cons, List.find?_cons, find?_insertFrame_of_ne hg xs]

/-- The frame of a number afterwards is the one before. -/
def FramesStand (s u : State) : Prop := ∀ n f, s.frame? n = some f → u.frame? n = some f

theorem framesStand_holdFrame {s : State} {g : Frame} (hg : s.lowestFree = some g.num) : FramesStand s (s.holdFrame g) := by
  intro n f hf
  have hne : g.num ≠ n := fun e => by
    have hnum : f.num = n := by simpa using List.find?_some hf
    exact (lowestFree_spec hg).2 f (List.mem_of_find?_eq_some hf) (hnum.trans e.symm)
  exact (find?_insertFrame_of_ne hne _).trans hf

theorem framesStand_grant {r : Req} (s : State) : FramesStand s (grant r s) := by
  have hnum : ∀ c n, (grantedFrame r c n s).num = n := fun c n => by unfold grantedFrame; split <;> rfl
  unfold grant
  split
  · rename_i c n _ hn
    have hh : FramesStand s (s.holdFrame (grantedFrame r c n s)).tickStamp :=
      framesStand_holdFrame (by rw [hnum]; exact hn)
    dsimp only
    split
    · rw [startDriveXfer_rest]; exact hh
    · exact hh
    · exact hh
  · exact fun _ _ h => h

/-- A command that sends is granted new frames, and those that stand stay as they are. -/
theorem framesStand_followUp : ∀ (fuel : Nat) {t : HostTag} {s : State} {c : Cmd}, s.cmd? t = some c → c.sends = true →
    FramesStand s (followUp fuel t s)
  | 0, _, _, _, _, _ => fun _ _ h => h
  | fuel + 1, t, s, c, hc, hs => by
    unfold followUp
    rw [hc]
    dsimp only
    split
    · exact fun _ _ h => h
    · rename_i n u hw
      exfalso
      unfold wanted wantedFill at hw
      rw [if_pos hs] at hw
      dsimp only at hw
      repeat' split at hw
      all_goals cases hw
    · rename_i r hw
      have ht : r.tag = t := (wanted_tag hw).trans (cmd?_mem hc).2
      split
      · obtain ⟨k, hk, hsame, _⟩ := (ht ▸ asksOf_grant s (wanted_kind hw)).cmd? hc
        have hks : k.sends = true := by rw [hsame]; exact hs
        exact fun n f hf => framesStand_followUp fuel hk hks n f (framesStand_grant s n f hf)
      · exact fun _ _ h => h

theorem framesStand_makeRequests {t : HostTag} {s : State} {c : Cmd} (hc : s.cmd? t = some c) (hs : c.sends = true) :
    FramesStand s (makeRequests t s) := framesStand_followUp 16 hc hs

end Sys2Proof.Machine
end

section
/-!
SUPPORT, and O24. Commands of one drive command or of none enter the table (R78, R87 to R91), and a READ or WRITE is tested
against the presented capacity and the control window (R75).
-/

namespace Sys2Proof.Machine

/-! ### The entry of a command of one drive command, or of none (R72, R78) -/

/-- The one drive command of a FLUSH, a DEALLOCATE or a PASS (R87, R89, R91). -/
def Cmd.oneDriveCmd (c : Cmd) : Option DriveCmd :=
  match c.kind with
  | .flush => some { who := .host c.tag, op := .flush }
  | .deallocate => some { who := .host c.tag, op := .deallocate c.entries }
  | .pass => some { who := .host c.tag, op := .pass c.words, lba := c.lba, count := c.count }
  | .read | .write | .windowRead | .identify | .controlWrite => none

/-- The state with c last in its table and its one drive command, if it has one, last in the drive issue queue. -/
def State.begun (s : State) (c : Cmd) : State :=
  { s.added c with drive := { s.drive with queue := s.drive.queue ++ c.oneDriveCmd.toList } }

theorem begun_newest {c : Cmd} {s : State} (hf : s.fresh c.tag) : (s.begun c).Newest s.table c := ⟨rfl, hf⟩

theorem setCmdState_added {c : Cmd} {s : State} (hf : s.fresh c.tag) : (s.added c).setCmdState c.tag c.state = s.added c := by
  have h := ((added_newest hf).modCmd (fun k => { k with state := c.state }) rfl).table
  exact congrArg (fun l => { s.added c with table := l }) h

/-- A command that is neither a READ nor a WRITE and waits for nothing enters ACTIVE. -/
theorem enterTable_single {c : Cmd} {s : State} (hf : s.fresh c.tag) (hw : c.waitFor = []) (hs : c.waitStores = [])
    (hst : c.state = .active) (h1 : c.kind ≠ .read) (h2 : c.kind ≠ .write) :
    enterTable c s = makeRequests c.tag (s.begun c) := by
  have hcmd := (added_newest hf).cmd? (by rw [hst]; exact nofun)
  have hact : (s.added c).setCmdState c.tag .active = s.added c := hst ▸ setCmdState_added hf
  have hnone : s.added c = { s.added c with drive := { s.drive with queue := s.drive.queue ++ [] } } := by
    rw [List.append_nil]; rfl
  rw [enterTable_begins hw hs]
  unfold beginCmd
  rw [hcmd]
  dsimp only
  rw [if_neg fun e => h2 e.1]
  unfold enterCmdActive
  rw [hcmd]
  dsimp only
  rw [hact]
  unfold State.begun Cmd.oneDriveCmd
  cases hk : c.kind with
  | read => exact absurd hk h1
  | write => exact absurd hk h2
  | flush | deallocate | pass => rfl
  | windowRead | identify | controlWrite => exact congrArg (makeRequests c.tag) hnone

/-! ### The first FILL of a command that the part answers (R117, R118, R120) -/

/-- The request for the first unit of a WINDOW_READ or IDENTIFY. -/
def Cmd.firstFill (c : Cmd) : Req := { kind := .fill, cls := .bulk, tag := c.tag, unit := c.firstUnit }

/-- An empty frame buffer after that request has been granted. -/
def State.filled (s : State) (c : Cmd) : State :=
  ({ s with buffer := { s.buffer with frames := [grantedFrame c.firstFill c 4 s] } }).tickStamp.modCmd c.tag
    fun c => { c with received := c.received + 1 }

theorem makeRequests_fill {s : State} {c : Cmd} (hc : s.cmd? c.tag = some c)
    (hk : c.kind = .windowRead ∨ c.kind = .identify) (hs : c.state = .active) (hr : c.received = 0) (hu : 0 < c.units)
    (hf : s.buffer.frames = []) (hq : s.buffer.requests = []) :
    makeRequests c.tag s = followUp 15 c.tag (s.filled c) := by
  have hwaits : s.waitsFor c.tag .fill = false := by unfold State.waitsFor; rw [hq]; rfl
  have hw : wanted c s = .ask c.firstFill := by
    have hfill : wantedFill c s = .ask c.firstFill := by
      unfold wantedFill
      rw [if_pos ⟨by rw [hr]; exact hu, .inl hs, by rw [hwaits]; exact Bool.false_ne_true⟩, hr]
      rcases hk with hk | hk <;> rw [hk] <;> rfl
    unfold wanted Cmd.sends
    rcases hk with hk | hk <;> rw [hk] <;> exact hfill
  have hg : grantable c.firstFill s = true := by
    unfold grantable State.framesHeld State.framesFree State.framesInUse
    rw [hf]
    show (_ && (decide (2 ≤ Config.sharedFrames) && decide (0 < ceilingOf s.buffer.ceiling))) = true
    rw [decide_eq_true (show 0 < ceilingOf s.buffer.ceiling from Nat.mul_pos (by decide) (Nat.succ_pos _))]
    rfl
  have hn : s.lowestFree = some 4 := by unfold State.lowestFree; rw [hf]; rfl
  rw [makeRequests_granted hc hw hg]
  congr 1
  unfold grant State.holdFrame
  rw [show s.cmd? c.firstFill.tag = some c from hc, hn]
  dsimp only
  rw [hf]
  rfl

theorem cmd?_filled {s : State} {l : List Cmd} {c : Cmd} (hn : s.Newest l c) (hs : c.state ≠ .failed) :
    (s.filled c).cmd? c.tag = some { c with received := c.received + 1 } := by
  have h : ({ s with buffer := { s.buffer with frames := [grantedFrame c.firstFill c 4 s] } }).tickStamp.Newest l c :=
    hn.of_table rfl
  exact (h.modCmd (fun c => { c with received := c.received + 1 }) rfl).cmd? hs

theorem frame?_filled {s : State} {c : Cmd} : (s.filled c).frame? 4 = some (grantedFrame c.firstFill c 4 s) := rfl

/-! ### The control window (R75) -/

theorem units_pos {c : Cmd} (h : 0 < c.count) : 0 < c.units := by
  unfold Cmd.units
  rw [if_neg (Nat.ne_of_gt h)]
  exact Nat.succ_pos _

/-- A WINDOW_READ enters ACTIVE, and an empty frame buffer takes its first unit. -/
theorem windowRead_enters {s : State} {t : HostTag} {x0 c : Nat} (hf : s.fresh t) (hc : 0 < c) :
    let u := admitPlain { tag := t, kind := .windowRead, lba := x0, count := c } s
    ∃ k, u.cmd? t = some k ∧ k.kind = .windowRead ∧ k.lba = x0 ∧ k.count = c ∧ k.pieces = [] ∧ k.state = .active ∧
      u.drive = s.drive ∧ u.mon = s.mon ∧ u.slots = s.slots ∧
      (s.buffer.frames = [] → s.buffer.requests = [] →
        ∃ f ∈ u.buffer.frames, f.holder = t ∧ f.unit = x0 / 8 ∧ f.dir = .toHost ∧ f.cond = .ready) := by
  dsimp only
  set d : Cmd := { tag := t, kind := .windowRead, lba := x0, count := c } with hd
  have hn : (s.begun d).Newest s.table d := begun_newest hf
  have hcmd : (s.begun d).cmd? t = some d := hn.cmd? nofun
  have heq : admitPlain d s = makeRequests t (s.begun d) := enterTable_single hf rfl rfl rfl nofun nofun
  have hasks := asksOf_makeRequests t (s.begun d)
  obtain ⟨k, hk, hsame, _⟩ := hasks.cmd? hcmd
  have hdrive : (s.begun d).drive = s.drive := by
    show { s.drive with queue := s.drive.queue ++ [] } = s.drive
    rw [List.append_nil]
  rw [heq]
  refine ⟨k, hk, by rw [hsame], by rw [hsame], by rw [hsame], by rw [hsame], by rw [hsame],
    (by rw [hasks.rest]; exact hdrive), by rw [hasks.rest]; rfl, by rw [hasks.rest]; rfl, fun hfr hrq => ?_⟩
  have hfill : makeRequests t (s.begun d) = followUp 15 t ((s.begun d).filled d) :=
    makeRequests_fill (c := d) hcmd (.inl rfl) rfl rfl (units_pos hc) hfr hrq
  have hstand := framesStand_followUp 15 (cmd?_filled hn nofun) rfl 4 _ frame?_filled
  rw [hfill]
  exact ⟨_, List.mem_of_find?_eq_some hstand, rfl, rfl, rfl, rfl⟩

/-- A range that passes the start of the window, but not P. -/
theorem admitRange_window {s : State} {x0 c : Nat} (t : HostTag) (hp : x0 + c ≤ s.presented)
    (hw : s.presented - 16 < x0 + c) :
    admitRange false t x0 c s = (if s.presented - 16 ≤ x0
      then admitPlain { tag := t, kind := .windowRead, lba := x0, count := c } s
      else refuse t x0 c .controlMisuse [] s) ∧
    admitRange true t x0 c s = if x0 = s.presented - 16 ∧ c = 1
      then { s with
        table := s.table ++ [{ tag := t, kind := .controlWrite, lba := x0, count := 1, state := .waitControl }] }
      else refuse t x0 c .controlMisuse [] s := by
  have hbase : s.windowBase = s.presented - 16 := rfl
  unfold admitRange
  simp only [hbase, if_neg (Nat.not_lt.mpr hp), if_pos hw, Bool.false_eq_true, ↓reduceIte, and_self]

/-- Settles O24: the three ranges of R75, below P, in the window and below it. -/
theorem windowRangesSorted : Obligations.WindowRangesSorted := by
  intro s t x0 c htakes htag h1 h2
  have hread : exec (.hostRead t x0 c) s = .next (pump (admitRange false t x0 c s.quiet)) :=
    exec_takesKind (c := .hostRead t x0 c) (a := .read t x0 c) htakes (countOk_of h1 h2) rfl htag
  have hwrite : exec (.hostWrite t x0 c) s = .next (pump (admitRange true t x0 c s.quiet)) :=
    exec_takesKind (c := .hostWrite t x0 c) (a := .write t x0 c) htakes (countOk_of h1 h2) rfl htag
  have hrefuse := fun r => refuses_refuse t x0 c r [] s.quiet
  rw [hread, hwrite]
  refine ⟨fun hp => ?_, fun hp hw => ?_, fun hw => ?_⟩
  · have h : ∀ write, admitRange write t x0 c s.quiet = refuse t x0 c .hidden [] s.quiet := fun write => if_pos hp
    rw [h, h]
    exact ⟨⟨_, rfl, hrefuse _⟩, _, rfl, hrefuse _⟩
  · obtain ⟨hr, hwr⟩ := admitRange_window (s := s.quiet) t hp hw
    have hP : s.quiet.presented = s.presented := rfl
    rw [hP] at hr hwr
    rw [hr, hwr]
    refine ⟨fun hx => ?_, fun hx => ?_, fun hx hc => ?_, fun hx => ?_⟩
    · rw [if_pos hx]
      obtain ⟨k, hk⟩ := windowRead_enters (s := s.quiet) (x0 := x0) (fresh_of_tagTest htag) h1
      exact ⟨_, k, rfl, hk⟩
    · rw [if_neg (Nat.not_le.mpr hx)]
      exact ⟨_, rfl, hrefuse _⟩
    · rw [if_pos ⟨hx, hc⟩, hx]
      rfl
    · rw [if_neg hx]
      exact ⟨_, rfl, hrefuse _⟩
  · have hbelow : ∀ write, admitRange write t x0 c s.quiet = admitBelow write t x0 c s.quiet := fun write =>
      (if_neg (show ¬ s.presented < x0 + c by omega)).trans (if_neg (show ¬ s.presented - 16 < x0 + c by omega))
    rw [hbelow, hbelow]
    exact ⟨rfl, rfl⟩

end Sys2Proof.Machine
end

section
/-!
SUPPORT. The identity answer (R90): what its sector says in each field.
-/

namespace Sys2Proof.Machine

/-- The bits of an identity answer: the capacity, the depth, the two feature sets, and the stored identity above them. -/
theorem testBit_identityAnswer (stored : Sector) (capacity depth i : Nat) :
    (Config.identityLayout.symm (identityAnswer stored capacity depth)).toNat.testBit i =
      if i < 64 then capacity.testBit i
      else if i < 72 then depth.testBit (i - 64)
      else if i < 74 then false
      else (Config.identityLayout.symm stored).toNat.testBit i := by
  unfold identityAnswer
  rw [Equiv.symm_apply_apply, BitVec.toNat_ofNat]
  simp only [Nat.testBit_mod_two_pow, Nat.testBit_or, Nat.testBit_shiftLeft, Nat.testBit_shiftRight]
  by_cases h4096 : i < 4096
  · by_cases h1 : i < 64
    · simp [h1, h4096, show ¬ 74 ≤ i by omega, show ¬ 64 ≤ i by omega]
    · by_cases h2 : i < 72
      · simp [h1, h2, h4096, show ¬ 74 ≤ i by omega, show 64 ≤ i by omega, show i - 64 < 8 by omega]
      · by_cases h3 : i < 74
        · simp [h1, h2, h3, show ¬ 74 ≤ i by omega, show ¬ i - 64 < 8 by omega]
        · simp [h1, h2, h3, h4096, show 74 ≤ i by omega, show ¬ i - 64 < 8 by omega, show 74 + (i - 74) = i by omega]
  · have hbig : (Config.identityLayout.symm stored).toNat.testBit i = false :=
      BitVec.testBit_toNat (Config.identityLayout.symm stored) ▸ BitVec.getLsbD_of_ge _ _ (Nat.not_lt.mp h4096)
    simp [h4096, hbig, show ¬ i < 64 by omega, show ¬ i < 72 by omega, show ¬ i < 74 by omega]

/-- What the answer says in a field, bit by bit. -/
theorem testBit_identityField (x : Sector) (f : IdentityField) (i : Nat) : (identityField x f).testBit i =
    (decide (i < f.place.2) && (Config.identityLayout.symm x).toNat.testBit (f.place.1 + i)) := by
  unfold identityField
  rw [Nat.testBit_mod_two_pow, Nat.testBit_shiftRight]

theorem identityAnswer_capacity (stored : Sector) (capacity depth : Nat) :
    identityField (identityAnswer stored capacity depth) .capacity = capacity % 2 ^ 64 := by
  refine Nat.eq_of_testBit_eq fun i => ?_
  rw [testBit_identityField, testBit_identityAnswer, Nat.testBit_mod_two_pow]
  by_cases h : i < 64 <;> simp [IdentityField.place, h]

theorem identityAnswer_depth (stored : Sector) (capacity depth : Nat) :
    identityField (identityAnswer stored capacity depth) .depth = depth % 2 ^ 8 := by
  refine Nat.eq_of_testBit_eq fun i => ?_
  rw [testBit_identityField, testBit_identityAnswer, Nat.testBit_mod_two_pow]
  by_cases h : i < 8 <;> simp [IdentityField.place, h, show 64 + i < 72 ↔ i < 8 by omega]

/-- The two feature sets are reported as not supported. -/
theorem identityAnswer_features (stored : Sector) (capacity depth : Nat) {f : IdentityField} (h1 : 72 ≤ f.place.1)
    (h2 : f.place.1 + f.place.2 ≤ 74) : identityField (identityAnswer stored capacity depth) f = 0 := by
  refine Nat.eq_of_testBit_eq fun i => ?_
  rw [testBit_identityField, testBit_identityAnswer, Nat.zero_testBit]
  by_cases h : i < f.place.2
  · simp [show ¬ f.place.1 + i < 64 by omega, show ¬ f.place.1 + i < 72 by omega, show f.place.1 + i < 74 by omega]
  · simp [h]

theorem identityAnswer_rest (stored : Sector) (capacity depth : Nat) :
    (Config.identityLayout.symm (identityAnswer stored capacity depth)).toNat >>> 74 =
      (Config.identityLayout.symm stored).toNat >>> 74 := by
  refine Nat.eq_of_testBit_eq fun i => ?_
  rw [Nat.testBit_shiftRight, testBit_identityAnswer, Nat.testBit_shiftRight]
  simp [show ¬ 74 + i < 64 by omega, show ¬ 74 + i < 72 by omega]

end Sys2Proof.Machine
end

section
/-!
O33. The commands that are neither READ nor WRITE (R74, R87, R88, R90, R91), and the release of a FLUSH by a store (R87).
-/

namespace Sys2Proof.Machine

/-! ### A command begins, and the others stand (R107) -/

/-- The command of tag a is the same in u as in s, and no entry has left the drive issue queue. -/
structure StandsBy (a : HostTag) (s u : State) : Prop where
  cmd : u.cmd? a = s.cmd? a
  queue : s.drive.queue ⊆ u.drive.queue

namespace StandsBy

variable {a : HostTag} {s u v : State}

theorem refl (a : HostTag) (s : State) : StandsBy a s s := ⟨rfl, fun _ => id⟩

theorem trans (h : StandsBy a s u) (k : StandsBy a u v) : StandsBy a s v :=
  ⟨k.cmd.trans h.cmd, fun _ hd => k.queue (h.queue hd)⟩

end StandsBy

theorem standsBy_modCmd (s : State) {a t : HostTag} (hta : t ≠ a) {f : Cmd → Cmd} (hf : ∀ c, (f c).tag = c.tag) :
    StandsBy a s (s.modCmd t f) where
  cmd := by
    rw [cmd?_map (u := s.modCmd t f) rfl (fun c => ?_) fun c hc => ?_]
    · cases hc : s.cmd? a with
      | none => rfl
      | some c => rw [Option.map_some, if_neg ((cmd?_mem hc).2.trans_ne hta.symm)]
    · split
      · exact hf c
      · rfl
    · rw [if_neg (hc.trans_ne hta.symm)]
  queue := fun _ => id

theorem standsBy_joinQueue (a : HostTag) (e : DriveCmd) (s : State) : StandsBy a s (joinQueue e s) :=
  ⟨rfl, List.subset_append_left _ _⟩

theorem standsBy_makeRequests {a t : HostTag} (s : State) (hta : t ≠ a) : StandsBy a s (makeRequests t s) := by
  have h := asksOf_makeRequests t s
  obtain ⟨g, h1, h2⟩ := h.table
  refine ⟨?_, by rw [h.rest]; exact fun _ => id⟩
  rw [cmd?_map h1 (fun c => by rw [(h2 c).1]) fun c _ => by rw [(h2 c).1]]
  cases hc : s.cmd? a with
  | none => rfl
  | some c => rw [Option.map_some, (h2 c).2.2 ((cmd?_mem hc).2.trans_ne hta.symm)]

theorem standsBy_joinRun {a : HostTag} (c : Cmd) (op : DriveOp) (n : Nat) (s : State) (hta : c.tag ≠ a) :
    StandsBy a s (joinRun c op n s) := by
  unfold joinRun
  split
  · exact (standsBy_joinQueue a _ s).trans (standsBy_modCmd _ hta fun _ => rfl)
  · exact .refl a s

theorem standsBy_enterCmdActive {a t : HostTag} (s : State) (hta : t ≠ a) : StandsBy a s (enterCmdActive t s) := by
  have hst : ∀ st, StandsBy a s (s.setCmdState t st) := fun st => standsBy_modCmd s hta fun _ => rfl
  unfold enterCmdActive
  split
  · exact .refl a s
  · rename_i c hc
    have htag : c.tag ≠ a := (cmd?_mem hc).2.trans_ne hta
    refine StandsBy.trans ?_ (standsBy_makeRequests _ hta)
    cases c.kind with
    | read =>
      dsimp only
      split
      · exact hst _
      · exact (hst _).trans (standsBy_joinRun c _ _ _ htag)
    | write => exact (hst _).trans (standsBy_joinRun c _ _ _ htag)
    | flush | deallocate | pass => exact (hst _).trans (standsBy_joinQueue a _ _)
    | windowRead | identify | controlWrite => exact hst _

theorem standsBy_beginCmd {a t : HostTag} (s : State) (hta : t ≠ a) : StandsBy a s (beginCmd t s) := by
  unfold beginCmd
  split
  · exact .refl a s
  · rename_i c hc
    have htag : c.tag ≠ a := (cmd?_mem hc).2.trans_ne hta
    split
    · have hst : StandsBy a s (s.setCmdState t .mergeRead) := standsBy_modCmd s hta fun _ => rfl
      refine hst.trans ?_
      unfold joinMergeRead
      split
      · exact (standsBy_joinQueue a _ _).trans (standsBy_modCmd _ htag fun _ => rfl)
      · exact .refl a _
    · exact standsBy_enterCmdActive s hta

theorem standsBy_begins {a : HostTag} : ∀ (l : List HostTag) (s : State), a ∉ l →
    StandsBy a s (l.foldl (fun s t => beginCmd t s) s)
  | [], s, _ => .refl a s
  | _ :: l, s, h => (standsBy_beginCmd s fun e => h (List.mem_cons.mpr (.inl e.symm))).trans
      (standsBy_begins l _ fun e => h (List.mem_cons_of_mem _ e))

/-! ### A FLUSH begins (R87) -/

/-- Of the commands released, one begins and the others leave it as it is then. -/
theorem beginReleased_of_mem {s : State} {a : HostTag} (hn : (s.table.map (·.tag)).Nodup) (ha : a ∈ s.released) :
    ∃ v, StandsBy a s v ∧ StandsBy a (beginCmd a v) (beginReleased s) := by
  have hsub : s.released.Sublist (s.table.map (·.tag)) := List.filter_sublist.map _
  obtain ⟨l, m, hlm⟩ := List.append_of_mem ha
  have hnd : (l ++ a :: m).Nodup := hlm ▸ hn.sublist hsub
  obtain ⟨ham, hl⟩ : a ∉ m ∧ a ∉ l := by
    obtain ⟨h1, h2⟩ := List.nodup_cons.mp (List.nodup_middle.mp hnd)
    exact ⟨fun e => h1 (List.mem_append_right _ e), fun e => h1 (List.mem_append_left _ e)⟩
  refine ⟨_, standsBy_begins l s hl, ?_⟩
  unfold beginReleased
  rw [hlm, List.foldl_append, List.foldl_cons]
  exact standsBy_begins m _ ham

theorem cmd?_setActive {s : State} {a : HostTag} {k : Cmd} (hc : s.cmd? a = some k) :
    ∃ k', (s.setCmdState a .active).cmd? a = some k' ∧ k'.state = .active := by
  have hact : ∀ c ∈ (s.setCmdState a .active).table, c.tag = a → c.state = .active := fun c hc ht => by
    obtain ⟨d, _, rfl⟩ := List.mem_map.mp hc
    by_cases e : d.tag = a
    · rw [if_pos e]
    · rw [if_neg e] at ht; exact absurd ht e
  obtain ⟨hm, ht⟩ := cmd?_mem hc
  have hin : { k with state := .active } ∈ (s.setCmdState a .active).table := List.mem_map.mpr ⟨k, hm, if_pos ht⟩
  cases hf : (s.setCmdState a .active).cmd? a with
  | none => exact absurd (cmd?_eq_none.mp hf _ hin ht) nofun
  | some k' => exact ⟨k', rfl, hact k' (cmd?_mem hf).1 (cmd?_mem hf).2⟩

/-- A FLUSH that begins enters ACTIVE and joins the drive issue queue. -/
theorem beginCmd_flush {s : State} {a : HostTag} {k : Cmd} (hc : s.cmd? a = some k) (hk : k.kind = .flush) :
    (∃ k', (beginCmd a s).cmd? a = some k' ∧ k'.state = .active) ∧
      { who := .host a, op := .flush } ∈ (beginCmd a s).drive.queue := by
  set v := joinQueue { who := .host a, op := .flush } (s.setCmdState a .active) with hv
  have heq : beginCmd a s = makeRequests a v := by
    unfold beginCmd enterCmdActive
    rw [hc]
    dsimp only
    rw [hk]
    exact if_neg fun e => nomatch e.1
  have hasks := asksOf_makeRequests a v
  obtain ⟨k', hk', hst⟩ := cmd?_setActive hc
  obtain ⟨j, hj, hsame, _⟩ := hasks.cmd? (show v.cmd? a = some k' from hk')
  rw [heq]
  refine ⟨⟨j, hj, by rw [hsame]; exact hst⟩, ?_⟩
  rw [hasks.rest]
  exact List.mem_append_right _ (List.mem_singleton_self _)

/-- The state in which a store has left every list, before the commands released begin. -/
def State.storeLeft (s : State) (n : Nat) : State :=
  { s with table := s.table.map fun c => { c with waitStores := c.waitStores.filter fun m => decide (m ≠ n) } }

theorem storeEnded_eq (n : Nat) (s : State) : storeEnded n s = beginReleased (s.storeLeft n) := rfl

theorem cmd?_storeLeft (s : State) (n : Nat) (t : HostTag) : (s.storeLeft n).cmd? t =
    (s.cmd? t).map fun c => { c with waitStores := c.waitStores.filter fun m => decide (m ≠ n) } :=
  cmd?_map rfl (fun _ => rfl) fun _ _ => rfl

theorem tags_storeLeft (s : State) (n : Nat) : (s.storeLeft n).table.map (·.tag) = s.table.map (·.tag) := by
  unfold State.storeLeft
  rw [List.map_map]
  rfl

/-- A command in WAIT_OVERLAP is released as it waits for nothing any more. -/
theorem mem_released {s : State} {t : HostTag} : t ∈ s.released ↔
    ∃ c ∈ s.table, c.tag = t ∧ c.state = .waitOverlap ∧ c.waitFor = [] ∧ c.waitStores = [] := by
  simp only [State.released, List.mem_map, List.mem_filter, Bool.and_eq_true, decide_eq_true_eq]
  constructor
  · rintro ⟨c, ⟨hc, ⟨h1, h2⟩, h3⟩, ht⟩
    exact ⟨c, hc, ht, h1, h2, h3⟩
  · rintro ⟨c, hc, ht, h1, h2, h3⟩
    exact ⟨c, ⟨hc, ⟨h1, h2⟩, h3⟩, ht⟩

/-- A FLUSH that waited for the store alone begins (R87). -/
theorem storeEnded_begins {s : State} {n : Nat} {k : Cmd} (hn : (s.table.map (·.tag)).Nodup) (hk : k ∈ s.table)
    (hkind : k.kind = .flush) (hst : k.state = .waitOverlap) (hw : k.waitFor = []) (hall : ∀ m ∈ k.waitStores, m = n) :
    ∃ k', (storeEnded n s).cmd? k.tag = some k' ∧ k'.state = .active ∧
      { who := .host k.tag, op := .flush } ∈ (storeEnded n s).drive.queue := by
  have hempty : (k.waitStores.filter fun m => decide (m ≠ n)) = [] :=
    List.filter_eq_nil_iff.mpr fun m hm => by simpa using hall m hm
  have hrel : k.tag ∈ (s.storeLeft n).released :=
    mem_released.mpr ⟨_, List.mem_map.mpr ⟨k, hk, rfl⟩, rfl, hst, hw, hempty⟩
  obtain ⟨v, h1, h2⟩ := beginReleased_of_mem ((tags_storeLeft s n).symm ▸ hn) hrel
  have hcmd := h1.cmd.trans ((cmd?_storeLeft s n k.tag).trans
    (congrArg _ (cmd?_of_mem hn hk (by rw [hst]; exact nofun))))
  obtain ⟨⟨k', hk', hs'⟩, hq⟩ := beginCmd_flush hcmd hkind
  exact ⟨k', h2.cmd.trans hk', hs', h2.queue hq⟩

/-- One that waits for more goes on waiting. -/
theorem storeEnded_waits {s : State} {n : Nat} {k : Cmd} (hn : (s.table.map (·.tag)).Nodup) (hk : k ∈ s.table)
    (hst : k.state = .waitOverlap) (hw : k.waitFor ≠ [] ∨ ∃ m ∈ k.waitStores, m ≠ n) : (storeEnded n s).cmd? k.tag =
      some { k with waitStores := k.waitStores.filter fun m => decide (m ≠ n) } := by
  have hrel : k.tag ∉ (s.storeLeft n).released := fun h => by
    obtain ⟨c, hc, ht, _, hf, he⟩ := mem_released.mp h
    obtain ⟨d, hd, rfl⟩ := List.mem_map.mp hc
    obtain rfl : d = k := List.inj_on_of_nodup_map hn hd hk ht
    refine hw.elim (fun h => h hf) fun ⟨m, hm, hne⟩ => ?_
    exact absurd he (List.ne_nil_of_mem (List.mem_filter.mpr ⟨hm, by simpa using hne⟩))
  rw [storeEnded_eq, beginReleased, (standsBy_begins _ _ hrel).cmd, cmd?_storeLeft,
    cmd?_of_mem hn hk (by rw [hst]; exact nofun)]
  rfl

/-! ### Admission without pieces (R74, R87, R88, R90, R91) -/

/-- A refusal for CAPACITY tells the monitor of no violation. -/
theorem refuseAt_capacity (t : HostTag) (range : Option Range) (s : State) :
    let u := refuseAt t .capacity range s
    u.mon = { s.mon with refusal := u.mon.refusal } ∧ u.slots = s.slots ∧ u.win = s.win := by
  cases range <;> exact ⟨rfl, rfl, rfl⟩

/-- A command without data that waits for nothing enters ACTIVE, and its drive command joins the queue. -/
theorem enterTable_dataless {c : Cmd} {s : State} (hf : s.fresh c.tag) (hw : c.waitFor = []) (hs : c.waitStores = [])
    (hst : c.state = .active) (h1 : c.sends = false) (h2 : c.takes = false) : enterTable c s = s.begun c := by
  have hread : c.kind ≠ .read := fun e => by unfold Cmd.sends at h1; rw [e] at h1; cases h1
  have hwrite : c.kind ≠ .write := fun e => by unfold Cmd.takes at h2; rw [e] at h2; cases h2
  rw [enterTable_single hf hw hs hst hread hwrite]
  exact makeRequests_dataless ((begun_newest hf).cmd? (by rw [hst]; exact nofun)) h1 h2

/-- A PASS enters ACTIVE, and its drive command joins the queue (R91). -/
theorem pass_enters {s : State} {t : HostTag} (hf : s.fresh t) (words : Nat) (data : PassData) :
    let u := admitPlain { tag := t, kind := .pass, words := words, data := data, lba := 0, count := passSectors data } s
    ∃ k, u.cmd? t = some k ∧ k.kind = .pass ∧ k.words = words ∧ k.data = data ∧ k.count = passSectors data ∧
      k.state = .active ∧ u.drive = { s.drive with
        queue := s.drive.queue ++ [{ who := .host t, op := .pass words, lba := 0, count := passSectors data }] } := by
  dsimp only
  set d : Cmd := { tag := t, kind := .pass, words := words, data := data, lba := 0, count := passSectors data } with hd
  have hcmd : (s.begun d).cmd? t = some d := (begun_newest (c := d) hf).cmd? nofun
  have hasks := asksOf_makeRequests t (s.begun d)
  obtain ⟨k, hk, hsame, _⟩ := hasks.cmd? hcmd
  have heq : admitPlain d s = makeRequests t (s.begun d) := enterTable_single hf rfl rfl rfl nofun nofun
  rw [heq]
  exact ⟨k, hk, by rw [hsame], by rw [hsame], by rw [hsame], by rw [hsame], by rw [hsame], by rw [hasks.rest]; rfl⟩

theorem units_one {c : Cmd} (h1 : c.lba = 0) (h2 : c.count = 1) : c.units = 1 := by
  simp [Cmd.units, Cmd.firstUnit, Cmd.lastUnit, unitOf, h1, h2]

/-- A command that sends wants nothing more when all its units have been received. -/
theorem wanted_received {c : Cmd} {s : State} (hs : c.sends = true) (hr : c.units ≤ c.received) :
    wanted c s = .nothing := by
  unfold wanted wantedFill
  rw [if_pos hs]
  exact if_neg fun e => absurd e.1 (Nat.not_lt.mpr hr)

/-- An IDENTIFY enters ACTIVE, and an empty frame buffer takes its answer (R90). -/
theorem identify_enters {s : State} {t : HostTag} (hf : s.fresh t) :
    let u := admitPlain { tag := t, kind := .identify, lba := 0, count := 1 } s
    ∃ k, u.cmd? t = some k ∧ k.kind = .identify ∧ k.state = .active ∧ u.drive = s.drive ∧
      (s.buffer.frames = [] → s.buffer.requests = [] →
        ∃ f, u.buffer.frames = [f] ∧ f.holder = t ∧ f.dir = .toHost ∧ f.cond = .ready ∧ f.data = s.identityUnit) := by
  dsimp only
  set d : Cmd := { tag := t, kind := .identify, lba := 0, count := 1 } with hd
  have hn : (s.begun d).Newest s.table d := begun_newest hf
  have hcmd : (s.begun d).cmd? t = some d := hn.cmd? nofun
  have hasks := asksOf_makeRequests t (s.begun d)
  obtain ⟨k, hk, hsame, _⟩ := hasks.cmd? hcmd
  have hdrive : (s.begun d).drive = s.drive := by
    show { s.drive with queue := s.drive.queue ++ [] } = s.drive
    rw [List.append_nil]
  have heq : admitPlain d s = makeRequests t (s.begun d) := enterTable_single hf rfl rfl rfl nofun nofun
  rw [heq]
  refine ⟨k, hk, by rw [hsame], by rw [hsame], by rw [hasks.rest]; exact hdrive, fun hfr hrq => ?_⟩
  have hfill : makeRequests t (s.begun d) = followUp 15 t ((s.begun d).filled d) :=
    makeRequests_fill (c := d) hcmd (.inr rfl) rfl rfl (units_pos Nat.one_pos) hfr hrq
  rw [hfill, followUp_nothing 15 (cmd?_filled hn nofun) (wanted_received rfl (units_one rfl rfl).le)]
  exact ⟨_, rfl, rfl, rfl, rfl, rfl⟩

theorem mem_flushWaits {s : State} {w : HostTag} :
    w ∈ s.flushWaits ↔ ∃ o ∈ s.table, o.tag = w ∧ (o.kind = .write ∨ o.kind = .deallocate) := by
  simp only [State.flushWaits, List.mem_map, List.mem_filter, Bool.or_eq_true, decide_eq_true_eq]
  exact ⟨fun ⟨o, ⟨ho, hk⟩, ht⟩ => ⟨o, ho, ht, hk⟩, fun ⟨o, ho, ht, hk⟩ => ⟨o, ⟨ho, hk⟩, ht⟩⟩

/-- A FLUSH with something to wait for waits. -/
theorem flush_waits {s : State} (t : HostTag) (h : s.flushWaits ≠ [] ∨ s.storesPending ≠ []) :
    takeKind (.flush t) s = { s with table := s.table ++
      [{ tag := t, kind := .flush, state := .waitOverlap, waitFor := s.flushWaits, waitStores := s.storesPending }] } :=
  if_neg fun e => h.elim (absurd e.1) (absurd e.2)

/-- One with nothing to wait for enters ACTIVE. -/
theorem flush_enters {s : State} {t : HostTag} (hf : s.fresh t) (h1 : s.flushWaits = []) (h2 : s.storesPending = []) :
    takeKind (.flush t) s = s.begun { tag := t, kind := .flush } := by
  show enterTable { tag := t, kind := .flush, waitFor := s.flushWaits, waitStores := s.storesPending } s = _
  rw [h1, h2]
  exact enterTable_dataless hf rfl rfl rfl rfl rfl

/-- Settles O33: the kinds of R74, the FLUSH that a store releases, and the identity answer. -/
theorem otherKindsSorted : Obligations.OtherKindsSorted := by
  refine ⟨fun s n k hok hk hkind hst => ?_, fun s d hd => ?_, fun s t htakes htag => ?_, fun s t htakes htag => ?_⟩
  · have hn : (s.table.map (·.tag)).Nodup := hok.once.sublist (List.sublist_append_left _ _)
    exact ⟨fun hw hall => storeEnded_begins hn hk hkind hst hw hall, fun hw => storeEnded_waits hn hk hst hw⟩
  · have hx : s.identityUnit[(0 : Fin 8)] = identityAnswer d.sector s.presented 28 := by
      unfold State.identityUnit
      rw [hd]
      exact placeSectors_get _ _ _ _
    exact ⟨_, hx, identityAnswer_capacity _ _ _, identityAnswer_depth _ _ _,
      identityAnswer_features _ _ _ (by decide) (by decide), identityAnswer_features _ _ _ (by decide) (by decide),
      identityAnswer_rest _ _ _⟩
  · refine ⟨fun range => ⟨_, exec_takesKind (a := .other t range) htakes rfl rfl htag, refuses_refuseAt t .capacity range s.quiet,
      refuseAt_capacity t range s.quiet⟩, fun hq => ?_⟩
    have hqueued : tagQueued t = true := by
      cases t with
      | queued n => rfl
      | immediate => cases hq
    refine ⟨⟨refuseAt t .capacity none s.quiet, ?_, refuses_refuseAt t .capacity none s.quiet⟩, fun words data hok =>
      ⟨refuseAt t .capacity none s.quiet, ?_, refuses_refuseAt t .capacity none s.quiet⟩⟩
    · rw [exec_takesKind (a := .identify t) htakes rfl rfl htag]
      exact congrArg (fun u => Host.Outcome.next (pump u)) (if_pos hqueued)
    · rw [exec_takesKind (c := .pass t words data) (a := .pass t words data) htakes hok rfl htag]
      exact congrArg (fun u => Host.Outcome.next (pump u)) (if_pos hqueued)
  · have hf : s.quiet.fresh t := fresh_of_tagTest htag
    have hplain : t = .immediate → ¬ tagQueued t = true := fun e => by rw [e]; exact Bool.false_ne_true
    refine ⟨?_, fun h1 h2 => ?_, fun h => ?_, fun w => mem_flushWaits, fun ht words => ?_, fun ht words data hok => ?_,
      fun ht => ?_⟩
    · rw [exec_takesKind (a := .deallocate t) htakes rfl rfl htag]
      rfl
    · rw [exec_takesKind (a := .flush t) htakes rfl rfl htag, flush_enters hf h1 h2]
      rfl
    · rw [exec_takesKind (a := .flush t) htakes rfl rfl htag, flush_waits (s := s.quiet) t h]
      rfl
    · refine ⟨_, ?_, rfl⟩
      rw [exec_takesKind (c := .pass t words .none) (a := .pass t words .none) htakes rfl rfl htag]
      have heq : takeKind (.pass t words .none) s.quiet = s.quiet.begun { tag := t, kind := .pass, words := words } :=
        (if_neg (hplain ht)).trans (enterTable_dataless hf rfl rfl rfl rfl rfl)
      rw [heq]
      rfl
    · obtain ⟨k, hk⟩ := pass_enters hf words data
      refine ⟨_, k, ?_, hk⟩
      rw [exec_takesKind (c := .pass t words data) (a := .pass t words data) htakes hok rfl htag]
      exact congrArg (fun u => Host.Outcome.next (pump u)) (if_neg (hplain ht))
    · obtain ⟨k, hk⟩ := identify_enters hf
      refine ⟨_, k, ?_, hk⟩
      rw [exec_takesKind (a := .identify t) htakes rfl rfl htag]
      exact congrArg (fun u => Host.Outcome.next (pump u)) (if_neg (hplain ht))

end Sys2Proof.Machine
end

section
/-!
SUPPORT. Arbitrations and the sending of completions (R123, R127): what they leave as it is, and that every completion due
is sent.
-/

namespace Sys2Proof.Machine

/-! ### Arbitrations (R123) -/

/-- Frames have been granted between s and u: nothing but the commands' counts, the frame buffer, and the transfer on the
drive link has changed. -/
def Arbitrates (s u : State) : Prop :=
  u = { s with table := u.table, buffer := u.buffer, stamp := u.stamp,
               drive := { s.drive with hold := u.drive.hold, xfer := u.drive.xfer } }

namespace Arbitrates

variable {s u v : State}

theorem refl (s : State) : Arbitrates s s := rfl

theorem trans (h : Arbitrates s u) (k : Arbitrates u v) : Arbitrates s v := by
  unfold Arbitrates at *
  rw [k, h]

theorem foldl {α : Type} {f : State → α → State} (hf : ∀ s a, Arbitrates s (f s a)) :
    ∀ (l : List α) (s : State), Arbitrates s (l.foldl f s)
  | [], s => .refl s
  | a :: l, s => (hf s a).trans (foldl hf l (f s a))

theorem host (h : Arbitrates s u) : u.host = s.host := by rw [h]
theorem win (h : Arbitrates s u) : u.win = s.win := by rw [h]
theorem out (h : Arbitrates s u) : u.out = s.out := by rw [h]

end Arbitrates

theorem Asks.arbitrates {s u : State} (h : Asks s u) : Arbitrates s u := by
  unfold Arbitrates
  rw [h.rest]

theorem arbitrates_startDriveXfer (push : Bool) (t : HostTag) (n : Nat) (s : State) :
    Arbitrates s (startDriveXfer push t n s) := by
  unfold startDriveXfer
  split <;> rfl

theorem arbitrates_grant (r : Req) (s : State) : Arbitrates s (grant r s) := by
  unfold grant
  split
  · dsimp only
    split
    · exact Arbitrates.trans (u := (s.holdFrame _).tickStamp) rfl (arbitrates_startDriveXfer _ _ _ _)
    · rfl
    · rfl
  · exact .refl s

theorem arbitrates_arbitrateN : ∀ (fuel : Nat) (s : State), Arbitrates s (arbitrateN fuel s)
  | 0, s => .refl s
  | fuel + 1, s => by
    unfold arbitrateN
    split
    · exact .refl s
    · refine Arbitrates.trans ?_ (arbitrates_arbitrateN fuel _)
      refine Arbitrates.trans ?_ (asks_makeRequests _ _).arbitrates
      exact Arbitrates.trans (u := s.setRequests _) rfl (arbitrates_grant _ _)

theorem arbitrates_freeFrame (n : Nat) (s : State) : Arbitrates s (freeFrame n s) :=
  Arbitrates.trans (u := { s with buffer := _ }) rfl (arbitrates_arbitrateN 61 _)

/-! ### The completions still to be sent (R127, R193) -/

/-- The completions due, and one more for the control command in hand, if there is one. -/
def State.load (s : State) : Nat := s.host.due.length + if s.win.executing.isSome then 1 else 0

/-- Between s and u nothing is sent, and a completion becomes due at most for the control command, as it finishes. -/
structure Lightens (s u : State) : Prop where
  out : u.out = s.out
  due : s.host.due ⊆ u.host.due
  load : u.load ≤ s.load

namespace Lightens

variable {s u v : State}

theorem of_same (h1 : u.out = s.out) (h2 : u.host.due = s.host.due) (h3 : u.win = s.win) : Lightens s u :=
  ⟨h1, by rw [h2]; exact fun _ => id, by unfold State.load; rw [h2, h3]⟩

theorem refl (s : State) : Lightens s s := of_same rfl rfl rfl

theorem trans (h : Lightens s u) (k : Lightens u v) : Lightens s v :=
  ⟨k.out.trans h.out, fun _ hc => k.due (h.due hc), k.load.trans h.load⟩

theorem after (k : Lightens u v) (h1 : u.out = s.out) (h2 : u.host.due = s.host.due) (h3 : u.win = s.win) :
    Lightens s v := (of_same h1 h2 h3).trans k

theorem foldl {α : Type} {f : State → α → State} (hf : ∀ s a, Lightens s (f s a)) :
    ∀ (l : List α) (s : State), Lightens s (l.foldl f s)
  | [], s => .refl s
  | a :: l, s => (hf s a).trans (foldl hf l (f s a))

end Lightens

theorem Arbitrates.lightens {s u : State} (h : Arbitrates s u) : Lightens s u :=
  .of_same h.out (by rw [h.host]) h.win

theorem Begun.lightens {s u : State} (h : Begun s u) : Lightens s u := by
  unfold Begun at h
  exact .of_same (by rw [h]) (by rw [h]) (by rw [h])

theorem State.ServiceWork.lightens {s u : State} (h : s.ServiceWork u) : Lightens s u :=
  .of_same h.out (by rw [h.host]) h.win

theorem lightens_finishControl (r : Result) (d : Details) (s : State) : Lightens s (finishControl r d s) := by
  unfold finishControl
  split
  · exact .refl s
  · rename_i e he
    have hload : s.load = s.host.due.length + 1 := by unfold State.load; rw [he]; rfl
    dsimp only
    split
    · refine ⟨rfl, List.subset_append_left _ _, ?_⟩
      rw [hload]
      exact (List.length_append ..).le
    · exact ⟨rfl, fun _ => id, hload ▸ Nat.le_succ _⟩

theorem lightens_answer (st : Stage) (i : SlotIx) (r : Result) (s : State) : Lightens s (answer st i r s) := by
  unfold answer
  split
  · exact lightens_finishControl r .none s
  · exact .refl s

theorem lightens_leaveDraining (i : SlotIx) (s : State) : Lightens s (leaveDraining i s) := by
  have hidle : ∀ v, Lightens v (answer .idle i .ok (enterIdle i v)) := fun v =>
    (lightens_answer .idle i .ok (enterIdle i v)).after rfl rfl rfl
  have hop : ∀ (k : SvcKind) (ext) (v : State), v.out = s.out → v.host.due = s.host.due → v.win = s.win →
      Lightens s (requestOp k (.slot i) ext v) := fun k ext v h1 h2 h3 =>
    (serviceWork_requestOp k (.slot i) ext v).lightens.after h1 h2 h3
  unfold leaveDraining
  dsimp only
  split
  · split
    · exact hop _ _ _ rfl rfl rfl
    · exact (hidle _).after rfl rfl rfl
  · exact hop _ _ _ rfl rfl rfl
  · exact (hidle _).after rfl rfl rfl

theorem lightens_drainTest (i : SlotIx) (s : State) : Lightens s (drainTest i s) := by
  unfold drainTest
  dsimp only
  split
  · exact lightens_leaveDraining i s
  · exact .refl s

theorem lightens_endPiece (p : Piece) (s : State) : Lightens s (endPiece p s) := by
  unfold endPiece
  split
  · exact (lightens_drainTest _ _).after rfl rfl rfl
  · exact .refl s

theorem lightens_endWork (t : HostTag) (s : State) : Lightens s (endWork t s) := by
  have h1 : Lightens s (dropJobs (.host t) s) := by
    rw [dropJobs_rest]
    exact .of_same rfl rfl rfl
  have h2 : Lightens (leaveLinks t (dropRequests t (dropJobs (.host t) s))) (endWork t s) :=
    .foldl (fun s n => (arbitrates_freeFrame n s).lightens) _ _
  exact h1.trans (h2.after rfl rfl rfl)

theorem lightens_leaveTable (c : Cmd) (s : State) : Lightens s (leaveTable c s) := by
  have h1 := Lightens.foldl (fun s p => lightens_endPiece p s) ([c].flatMap (·.pieces))
    { s with table := s.table.filter fun d => decide (d.tag ≠ c.tag) }
  have h2 : ∀ v, Lightens v (releaseBehind c.tag v) := fun v =>
    (begun_beginReleased (dropWaits c.tag v)).lightens.after rfl rfl rfl
  exact (h1.trans (h2 _)).after rfl rfl rfl

theorem lightens_endCommand (t : HostTag) (s : State) : Lightens s (endCommand t s) := by
  unfold endCommand
  split
  · exact .refl s
  · rename_i c _
    exact (lightens_endWork t s).trans (lightens_leaveTable c _)

theorem lightens_endFailed (t : HostTag) (s : State) : Lightens s (endFailed t s) := by
  unfold endFailed
  split
  · rename_i c _
    exact lightens_leaveTable c s
  · exact .refl s

/-- A completion is sent, and its command ends. -/
theorem lightens_sendCompletion (c : Completion) (s : State) :
    Lightens (s.emit (.completion c)) (sendCompletion c s) := by
  unfold sendCompletion
  dsimp only
  split
  · split
    · split
      · exact lightens_endCommand c.tag _
      · exact .refl _
    · exact .refl _
  · exact lightens_endFailed c.tag _
  · exact lightens_endFailed c.tag _
  · exact .refl _

/-! ### Every completion due is sent -/

/-- The completions of a list have been sent. -/
def State.sent (s : State) (cs : List Completion) : Prop := ∀ c ∈ cs, .completion c ∈ s.out

theorem State.sent_nil (s : State) : s.sent [] := fun _ hc => absurd hc List.not_mem_nil

theorem sendDue_sends : ∀ (fuel : Nat) (s : State), s.load ≤ fuel →
    (sendDue fuel s).host.due = [] ∧ (sendDue fuel s).sent s.host.due ∧ s.out ⊆ (sendDue fuel s).out
  | 0, s, h => by
    have hnil : s.host.due = [] := List.length_eq_zero_iff.mp (Nat.le_zero.mp ((Nat.le_add_right _ _).trans h))
    exact ⟨hnil, by rw [hnil]; exact s.sent_nil, fun _ => id⟩
  | fuel + 1, s, h => by
    unfold sendDue
    split
    · rename_i hnil
      exact ⟨hnil, by rw [hnil]; exact s.sent_nil, fun _ => id⟩
    · rename_i c cs hdue
      set v := { s with host := { s.host with due := cs } } with hv
      obtain ⟨hout, hsub, hload⟩ := lightens_sendCompletion c v
      have hless : (v.emit (.completion c)).load ≤ fuel := by
        have hone : s.load = v.load + 1 := by
          unfold State.load
          rw [hdue, List.length_cons]
          exact Nat.add_right_comm _ _ _
        rw [hone] at h
        exact Nat.le_of_succ_le_succ h
      obtain ⟨h1, h2, h3⟩ := sendDue_sends fuel (sendCompletion c v) (hload.trans hless)
      have hin : ∀ o ∈ s.out ++ [.completion c], o ∈ (sendDue fuel (sendCompletion c v)).out :=
        fun o ho => h3 (hout ▸ ho)
      refine ⟨h1, ?_, fun o ho => hin o (List.mem_append_left _ ho)⟩
      rw [hdue]
      intro d hd
      rcases List.mem_cons.mp hd with e | hd
      · rw [e]; exact hin _ (List.mem_append_right _ (List.mem_singleton_self _))
      · exact h2 d (hsub hd)

/-- Between transfers every completion due is sent. -/
theorem sendAll_sends {s : State} (hup : s.host.up = true) (hb : s.host.between = true) :
    (sendAll s).host.due = [] ∧ (sendAll s).sent s.host.due := by
  have hload : s.load ≤ s.host.due.length + 30 := by
    unfold State.load
    refine Nat.add_le_add_left ?_ _
    split <;> decide
  have heq : sendAll s = sendDue (s.host.due.length + 30) s := if_pos ⟨hup, hb⟩
  obtain ⟨h1, h2, _⟩ := sendDue_sends _ s hload
  rw [heq]
  exact ⟨h1, h2⟩

end Sys2Proof.Machine
end

section
/-!
O34. The range sector of a DEALLOCATE (R88, R89, R127).
-/

namespace Sys2Proof.Machine

/-! ### The tests of its ranges (R89) -/

theorem rangeTests_hidden {s : State} {rs : List Range} {x : Range}
    (h : rs.find? (fun x => decide (s.presented < x.lba + x.len)) = some x) :
    rangeTests s rs = some (x, { reason := .hidden }) := by
  unfold rangeTests
  rw [show rs.find? (fun r => decide (s.presented < rangeStop r)) = some x from h]

/-- No range passes P. -/
theorem rangeTests_shown {s : State} {rs : List Range} (h : ∀ y ∈ rs, y.lba + y.len ≤ s.presented) :
    rs.find? (fun r => decide (s.presented < rangeStop r)) = none :=
  List.find?_eq_none.mpr fun y hy e => absurd (of_decide_eq_true e) (Nat.not_lt.mpr (h y hy))

theorem rangeTests_misuse {s : State} {rs : List Range} {x : Range} (h : ∀ y ∈ rs, y.lba + y.len ≤ s.presented)
    (hx : rs.find? (fun x => decide (s.presented - 16 < x.lba + x.len)) = some x) :
    rangeTests s rs = some (x, { reason := .controlMisuse }) := by
  unfold rangeTests
  rw [rangeTests_shown h, show rs.find? (fun r => decide (s.windowBase < rangeStop r)) = some x from hx]

/-- No range touches the control window. -/
theorem rangeTests_below {s : State} {rs : List Range} (h : ∀ y ∈ rs, y.lba + y.len ≤ s.presented - 16) :
    rs.find? (fun r => decide (s.windowBase < rangeStop r)) = none :=
  List.find?_eq_none.mpr fun y hy e => absurd (of_decide_eq_true e) (Nat.not_lt.mpr (h y hy))

theorem rangeTests_protected {s : State} {rs : List Range} {x : Range} {e : Extent}
    (h : ∀ y ∈ rs, y.lba + y.len ≤ s.presented - 16) (ht : firstTouched s.map rs = some (x, e)) :
    rangeTests s rs = some (x, { reason := .trimProtected, named := [e.slot] }) := by
  unfold rangeTests
  rw [rangeTests_shown fun y hy => (h y hy).trans (Nat.sub_le _ _), rangeTests_below h, ht]

/-- Ranges in unclaimed space are tested against the policy alone. -/
theorem rangeTests_policy {s : State} {rs : List Range} (h : ∀ y ∈ rs, y.lba + y.len ≤ s.presented - 16)
    (ht : firstTouched s.map rs = none) : rangeTests s rs =
      if s.win.deallocatePolicy = .pass then none else rs.head?.map fun r => (r, { reason := .policy }) := by
  unfold rangeTests
  rw [rangeTests_shown fun y hy => (h y hy).trans (Nat.sub_le _ _), rangeTests_below h, ht]

theorem rangeTests_nil (s : State) : rangeTests s [] = none := by
  unfold rangeTests
  exact ite_self _

/-! ### Its arrival (R88) -/

/-- The state in which the range sector of the DEALLOCATE in hand has come. -/
def State.sectorTaken (s : State) : State := { s.quiet with host := { s.host with rangeSector := none } }

theorem exec_rangeSector {s : State} {t : HostTag} {ranges : List Range} (hr : s.inReset = false)
    (ht : s.host.rangeSector = some t) (hx : s.host.between = true) (hl : ranges.length ≤ 64) :
    exec (.deallocateRangeSector ranges) s = .next (pump (rangeSectorArrives t ranges s.quiet)) := by
  have hact : rangeSector ranges s.quiet = pump (rangeSectorArrives t ranges s.quiet) := by
    unfold rangeSector
    rw [show s.quiet.host.rangeSector = some t from ht]
    exact if_pos hx
  have hexec : exec (.deallocateRangeSector ranges) s = act s (rangeSector ranges) := if_pos (decide_eq_true hl)
  rw [hexec, act_running s _ hr, hact]

/-- A range that fails a test refuses the DEALLOCATE. -/
theorem rangeSectorArrives_refuses {s : State} {t : HostTag} {ranges : List Range} {x : Range} {e : Refused}
    (h : rangeTests s.sectorTaken (ranges.filter fun r => decide (r.len ≠ 0)) = some (x, e)) :
    rangeSectorArrives t ranges s.quiet = takeHeld (refuse t x.lba x.len e.reason e.named s.sectorTaken) := by
  have hne : ¬ (ranges.filter fun r => decide (r.len ≠ 0)).isEmpty = true := fun hnil => by
    rw [List.isEmpty_iff.mp hnil, rangeTests_nil] at h
    cases h
  have h' : rangeTests { s.quiet with host := { s.quiet.host with rangeSector := none } } _ = some (x, e) := h
  unfold rangeSectorArrives
  dsimp only at h' ⊢
  rw [if_neg hne, h']
  rfl

/-- Ranges that pass admit it to ACTIVE (R89). -/
theorem rangeSectorArrives_admits {s : State} {t : HostTag} {ranges : List Range}
    (h : rangeTests s.sectorTaken (ranges.filter fun r => decide (r.len ≠ 0)) = none)
    (hne : (ranges.filter fun r => decide (r.len ≠ 0)) ≠ []) (hf : s.fresh t) :
    rangeSectorArrives t ranges s.quiet = takeHeld (s.sectorTaken.begun
      { tag := t, kind := .deallocate, ranges := ranges.filter fun r => decide (r.len ≠ 0), entries := ranges }) := by
  have hne' : ¬ (ranges.filter fun r => decide (r.len ≠ 0)).isEmpty = true := fun hnil =>
    hne (List.isEmpty_iff.mp hnil)
  have h' : rangeTests { s.quiet with host := { s.quiet.host with rangeSector := none } } _ = none := h
  unfold rangeSectorArrives
  dsimp only at h' ⊢
  rw [if_neg hne', h']
  exact congrArg takeHeld (enterTable_dataless hf rfl rfl rfl rfl rfl)

theorem between_of_ended {h : HostPort} (hx : h.xfer = none ∨ ∃ x, h.xfer = some x ∧ x.done = true) :
    h.between = true := by
  unfold HostPort.between
  rcases hx with e | ⟨x, e, hd⟩ <;> rw [e]
  exact hd

theorem between_of_moving {h : HostPort} {x : HostXfer} (hx : h.xfer = some x) (hd : x.done = false) :
    h.between = false := by
  unfold HostPort.between
  rw [hx]
  exact hd

/-- Settles O34: the tests of R89 in their order, the admission, and the two cases without effect. -/
theorem rangeSectorTested : Obligations.RangeSectorTested := by
  refine ⟨fun s t ranges hr ht hx hl => ?_, fun s ranges hr hidle hl => ?_⟩
  · have hb := between_of_ended hx
    have hexec := exec_rangeSector hr ht hb hl
    dsimp only
    have hrefuse : ∀ x e, rangeTests s.sectorTaken (ranges.filter fun r => decide (r.len ≠ 0)) = some (x, e) →
        ∃ u, exec (.deallocateRangeSector ranges) s = .next (pump (takeHeld u)) ∧
          s.sectorTaken.Refuses u t x.lba x.len e.reason := fun x e h => by
      rw [hexec, rangeSectorArrives_refuses h]
      exact ⟨_, rfl, refuses_refuse _ _ _ _ _ _⟩
    refine ⟨fun hnil => ?_, fun x h => hrefuse x _ (rangeTests_hidden h),
      fun x h1 h2 => hrefuse x _ (rangeTests_misuse h1 h2), fun x e h1 h2 =>
        hrefuse x { reason := .trimProtected, named := [e.slot] } ?_,
      fun x h1 h2 h3 h4 => hrefuse x { reason := .policy } ?_, fun h1 h2 h3 h4 hf => ?_⟩
    · refine ⟨sendAll (completionDue { tag := t, ending := .good } s.sectorTaken), ?_, rfl, fun hup => ?_⟩
      · rw [hexec]
        refine congrArg (fun u => Host.Outcome.next (pump (takeHeld u))) (if_pos ?_)
        rw [hnil]
        rfl
      · obtain ⟨h1, h2⟩ := sendAll_sends (s := completionDue { tag := t, ending := .good } s.sectorTaken) hup hb
        exact ⟨h2 _ (List.mem_append_right _ (List.mem_singleton_self _)), h1⟩
    · exact rangeTests_protected (s := s.sectorTaken) h1 h2
    · rw [rangeTests_policy (s := s.sectorTaken) h1 h2, h3]
      exact if_neg fun e => nomatch (show s.win.deallocatePolicy = .pass from e).symm.trans h4
    · have hpass : rangeTests s.sectorTaken (ranges.filter fun r => decide (r.len ≠ 0)) = none :=
        (rangeTests_policy (s := s.sectorTaken) h1 h2).trans (if_pos h4)
      rw [hexec, rangeSectorArrives_admits hpass h3 hf]
      rfl
  · have hact : rangeSector ranges s.quiet = s.quiet := by
      unfold rangeSector
      rcases hidle with hnone | ⟨x, hx, hd⟩
      · rw [show s.quiet.host.rangeSector = none from hnone]
      · split
        · exact if_neg (by rw [between_of_moving (h := s.quiet.host) hx hd]; exact Bool.false_ne_true)
        · rfl
    have hexec : exec (.deallocateRangeSector ranges) s = act s (rangeSector ranges) := if_pos (decide_eq_true hl)
    rw [hexec, act_running s _ hr, hact]
    rfl

end Sys2Proof.Machine
end

section
/-!
O37 and O42. Units arrive in their frames, from the drive and from the host (R80, R83, R85, R99, R125, R134, R193).
-/

namespace Sys2Proof.Machine

/-! ### A frame or a command after its own change -/

theorem frame?_modFrame {s : State} {n : Nat} {f : Frame} {g : Frame → Frame} (hg : ∀ x, (g x).num = x.num)
    (h : s.frame? n = some f) : (s.modFrame n g).frame? n = some (g f) := by
  obtain rfl : f.num = n := by simpa using List.find?_some h
  exact frame?_modFrame_same g hg h

theorem cmd?_modCmd {s : State} {t : HostTag} {c : Cmd} {f : Cmd → Cmd} (ht : ∀ c, (f c).tag = c.tag)
    (hs : ∀ c, (f c).state = c.state) (h : s.cmd? t = some c) : (s.modCmd t f).cmd? t = some (f c) := by
  have hkeeps : ∀ k : Cmd, (if k.tag = t then f k else k).tag = k.tag ∧ (if k.tag = t then f k else k).state = k.state :=
    fun k => by split; exacts [⟨ht k, hs k⟩, ⟨rfl, rfl⟩]
  rw [cmd?_map (u := s.modCmd t f) rfl (fun k => (hkeeps k).1) fun k _ => (hkeeps k).2, h]
  exact congrArg some (if_pos (cmd?_mem h).2)

/-! ### The job of a unit that stands whole in its frame (R125, R134) -/

theorem submitUnit_spec {c : Cmd} {f g : Frame} {d : JobDir} {s : State} {o : Owned} (hg : s.frame? f.num = some g)
    (ho : c.ownedOf f.unit = some o) : let u := submitUnit c f d s
    u.frame? f.num = some { g with cond := .inJob } ∧
    u.hasJob f.num d (.slot o.slot o.gen) (o.tweak f.unit) (.host c.tag) f.cls ∧
    u = { s with buffer := u.buffer, lanes := u.lanes } := by
  have heq : submitUnit c f d s = submitJob (unitJob c f o d) (s.modFrame f.num fun f => { f with cond := .inJob }) := by
    unfold submitUnit
    rw [ho]
  dsimp only
  rw [heq]
  refine ⟨?_, ?_, by rw [submitJob_rest]; rfl⟩
  · rw [submitJob_rest]
    exact frame?_modFrame (g := fun f => { f with cond := .inJob }) (fun _ => rfl) hg
  · obtain ⟨k, hk, e⟩ := jobs_submitJob (unitJob c f o d) (s.modFrame f.num fun f => { f with cond := .inJob })
    exact ⟨k, hk, by rw [e]; exact ⟨rfl, rfl, rfl, rfl, rfl, rfl⟩⟩

/-- What a whole unit's frame goes on to: a BULK unit stays as it is, a protected one gets its job. -/
structure State.UnitPasses (s u : State) (c : Cmd) (f g : Frame) (d : JobDir) (k : Condition) : Prop where
  frame : u.frame? f.num = some { g with cond := k }
  bulk : f.cls = .bulk → k = g.cond
  job : ∀ o, f.cls ≠ .bulk → c.ownedOf f.unit = some o → k = .inJob ∧
    u.hasJob f.num d (.slot o.slot o.gen) (o.tweak f.unit) (.host c.tag) f.cls
  rest : u = { s with buffer := u.buffer, lanes := u.lanes }

theorem unitPasses {c : Cmd} {f g : Frame} {s : State} (d : JobDir) (hg : s.frame? f.num = some g) :
    ∃ k, s.UnitPasses (if f.cls = .bulk then s else submitUnit c f d s) c f g d k := by
  by_cases hb : f.cls = .bulk
  · rw [if_pos hb]
    exact ⟨g.cond, hg, fun _ => rfl, fun _ h => absurd hb h, rfl⟩
  · rw [if_neg hb]
    cases ho : c.ownedOf f.unit with
    | none =>
      have heq : submitUnit c f d s = s := by unfold submitUnit; rw [ho]
      rw [heq]
      exact ⟨g.cond, hg, fun _ => rfl, fun _ _ h => absurd (ho.symm.trans h) nofun, rfl⟩
    | some o =>
      obtain ⟨h1, h2, h3⟩ := submitUnit_spec (d := d) hg ho
      refine ⟨.inJob, h1, fun h => absurd h hb, fun o' _ h => ?_, h3⟩
      obtain rfl : o = o' := Option.some.inj (ho.symm.trans h)
      exact ⟨rfl, h2⟩

/-! ### UNIT_RECEIVED (R80, R99) -/

/-- The state in which the sectors of a push have reached their frame. -/
def State.pushed (s : State) (x : DriveXfer) (c : Cmd) (f : Frame) (data : List Sector) : State :=
  (endDriveXfer x s).modFrame f.num fun f' =>
    { f' with data := placeSectors f'.data (x.lba % 8) data, present := x.lba % 8 + x.count - c.stageLo f.unit }

theorem receiveUnit_eq {s : State} {x : DriveXfer} {c : Cmd} {f : Frame} {data : List Sector}
    (hx : s.drive.xfer = some x) (hc : s.cmd? x.tag = some c) (hf : s.frame? x.frame = some f) (hp : x.push = true)
    (hl : data.length = x.count) :
    receiveUnit data s = if c.need f.unit ≤ x.lba % 8 + x.count - c.stageLo f.unit
      then unitWhole c f (s.pushed x c f data) else s.pushed x c f data := by
  unfold receiveUnit
  rw [hx]
  dsimp only
  rw [hc, hf]
  exact if_pos ⟨hp, hl⟩

theorem unitWhole_merge {c : Cmd} {f g : Frame} {s : State} (hst : c.state = .mergeRead) (hg : s.frame? f.num = some g) :
    (unitWhole c f s).frame? f.num = some { g with cond := .inJob } ∧ (unitWhole c f s).table = s.table ∧
      (unitWhole c f s).drive = s.drive := by
  have heq : unitWhole c f s = s.modFrame f.num fun f => { f with cond := .inJob } := if_pos hst
  rw [heq]
  exact ⟨frame?_modFrame (g := fun f => { f with cond := .inJob }) (fun _ => rfl) hg, rfl, rfl⟩

/-- A unit of a command that sends counts as received; its frame passes on, and further requests leave it so. -/
theorem unitWhole_sends {c : Cmd} {f g : Frame} {s : State} (hst : c.state ≠ .mergeRead) (hs : c.sends = true)
    (hc : s.cmd? c.tag = some c) (hg : s.frame? f.num = some g) : let u := unitWhole c f s
    ∃ k, u.frame? f.num = some { g with cond := k } ∧ (f.cls = .bulk → k = g.cond) ∧
      (∀ o, f.cls ≠ .bulk → c.ownedOf f.unit = some o → k = .inJob ∧
        u.hasJob f.num .decrypt (.slot o.slot o.gen) (o.tweak f.unit) (.host c.tag) f.cls) ∧
      u.drive = s.drive ∧ ∃ d, u.cmd? c.tag = some d ∧ c.received + 1 ≤ d.received := by
  set v := s.modCmd c.tag fun c => { c with received := c.received + 1 } with hv
  have hcv : v.cmd? c.tag = some { c with received := c.received + 1 } :=
    cmd?_modCmd (f := fun c => { c with received := c.received + 1 }) (fun _ => rfl) (fun _ => rfl) hc
  obtain ⟨k, hframe, hbulk, hjob, hrest⟩ := unitPasses (c := c) (f := f) (s := v) .decrypt hg
  set w := if f.cls = .bulk then v else submitUnit c f .decrypt v with hw
  have heq : unitWhole c f s = makeRequests c.tag w := if_neg hst
  have hcw : w.cmd? c.tag = some { c with received := c.received + 1 } := by rw [hrest]; exact hcv
  have hasks := asksOf_makeRequests c.tag w
  obtain ⟨d, hd, _, hle⟩ := hasks.cmd? hcw
  have hlanes : (makeRequests c.tag w).lanes = w.lanes := by rw [hasks.rest]
  dsimp only
  rw [heq]
  refine ⟨k, framesStand_makeRequests hcw hs _ _ hframe, hbulk, fun o h1 h2 => ?_, ?_, d, hd, hle⟩
  · refine ⟨(hjob o h1 h2).1, ?_⟩
    unfold State.hasJob
    rw [hlanes]
    exact (hjob o h1 h2).2
  · rw [hasks.rest, hrest]
    rfl

/-- Settles O37: the sectors in their frame, and what a whole unit goes on to. -/
theorem pushedUnitReceived : Obligations.PushedUnitReceived := by
  intro s data x c f hr hx hp hc hf hkind hl h1 h8
  obtain ⟨_, htag⟩ := cmd?_mem hc
  have hnum : f.num = x.frame := by simpa using List.find?_some hf
  have hf' : s.frame? f.num = some f := by rw [hnum]; exact hf
  have hok : transferOk data = true := by
    unfold transferOk
    rw [hl, decide_eq_true h1, decide_eq_true h8]
    rfl
  have hexec : exec (.unitReceived data) s = .next (pump (receiveUnit data s.quiet)) :=
    (if_pos hok).trans (act_running s _ hr)
  set v := s.quiet.pushed x c f data with hv
  have hrecv : receiveUnit data s.quiet = if c.need f.unit ≤ x.lba % 8 + x.count - c.stageLo f.unit
      then unitWhole c f v else v := receiveUnit_eq hx hc hf hp hl
  have hg : v.frame? f.num = some { f with
      data := placeSectors f.data (x.lba % 8) data, present := x.lba % 8 + x.count - c.stageLo f.unit } :=
    frame?_modFrame (s := endDriveXfer x s.quiet)
      (g := fun f' => { f' with
        data := placeSectors f'.data (x.lba % 8) data, present := x.lba % 8 + x.count - c.stageLo f.unit })
      (fun _ => rfl) hf'
  dsimp only
  rw [hexec, hrecv]
  by_cases hn : c.need f.unit ≤ x.lba % 8 + x.count - c.stageLo f.unit
  · rw [if_pos hn]
    by_cases hst : c.state = .mergeRead
    · obtain ⟨k1, k2, k3⟩ := unitWhole_merge hst hg
      rw [hnum] at k1
      exact ⟨_, _, rfl, k1, rfl, rfl, rfl, rfl, k3, fun h => absurd h (Nat.not_lt.mpr hn), fun _ _ => ⟨k2, rfl⟩,
        fun _ h => absurd hst h⟩
    · have hcv : v.cmd? c.tag = some c := by rw [htag]; exact hc
      obtain ⟨k, k1, k2, k3, k4, d, k5, k6⟩ := unitWhole_sends hst (hkind.resolve_right hst) hcv hg
      rw [hnum] at k1 k3
      refine ⟨_, _, rfl, k1, rfl, rfl, rfl, rfl, k4, fun h => absurd h (Nat.not_lt.mpr hn), fun _ h => absurd h hst,
        fun _ _ => ⟨⟨d, htag ▸ k5, k6⟩, k2, fun o => ?_⟩⟩
      rw [← htag]
      exact k3 o
  · rw [if_neg hn]
    rw [hnum] at hg
    exact ⟨v, _, rfl, hg, rfl, rfl, rfl, rfl, rfl, fun _ => ⟨rfl, rfl⟩, fun h => absurd h hn, fun h => absurd h hn⟩

/-! ### UNIT_TAKEN (R83, R85, R193) -/

/-- Where no request waits, a frame that is freed leaves the buffer, and nothing is granted. -/
theorem freeFrame_idle {s : State} {n : Nat} (h : s.buffer.requests = []) : freeFrame n s =
    { s with buffer := { s.buffer with frames := s.buffer.frames.filter fun f => decide (f.num ≠ n) } } := by
  unfold freeFrame arbitrate arbitrateN State.grantables
  dsimp only
  rw [h]
  rfl

theorem takeUnit_eq {s : State} {x : HostXfer} {c : Cmd} {f : Frame} {data : List Sector} (hx : s.host.xfer = some x)
    (hsend : x.send = false) (hd : x.done = false) (hc : s.cmd? x.tag = some c) (hf : s.frame? x.frame = some f)
    (hl : data.length = c.hostHi f.unit + 1 - c.hostLo f.unit) : takeUnit data s =
      if c.kind = .controlWrite then handOver c f (data.headD Sector.zero) (endHostXfer s)
      else intakeWhole c f data (endHostXfer s) := by
  unfold takeUnit
  rw [hx]
  dsimp only
  rw [hc, hf]
  exact if_pos ⟨hsend, hd, hl⟩

/-- The sector of a CONTROL_WRITE is handed to the window, and its frame is freed. -/
theorem handOver_spec (c : Cmd) (f : Frame) (r : Sector) (s : State) : let u := handOver c f r s
    u.host = s.host ∧
    u.win = { s.win with executing := some { tag := some c.tag, record := r, stage := .handed }, last := some r } ∧
    (s.buffer.requests = [] → u.buffer.frames = s.buffer.frames.filter fun g => decide (g.num ≠ f.num)) := by
  set v : State := { s.modCmd c.tag fun c => { c with taken := c.taken + 1 } with
    win := { s.win with executing := some { tag := some c.tag, record := r, stage := .handed }, last := some r } } with hv
  have heq : handOver c f r s = freeFrame f.num v := rfl
  have harb := arbitrates_freeFrame f.num v
  dsimp only
  rw [heq]
  exact ⟨harb.host, harb.win, fun h => by rw [freeFrame_idle (s := v) h]; rfl⟩

/-- The state in which the host sectors of a unit have reached their frame. -/
def State.placed (s : State) (c : Cmd) (f : Frame) (data : List Sector) : State :=
  s.modFrame f.num fun f => { f with data := placeSectors f.data (c.hostLo f.unit) data, present := c.need f.unit }

/-- The host sectors of any other unit stand in its frame, and the unit counts as taken. -/
theorem intakeWhole_spec {c : Cmd} {f : Frame} {data : List Sector} {s : State} (hc : s.cmd? c.tag = some c)
    (hf : s.frame? f.num = some f) : ∃ k, (intakeWhole c f data s).frame? f.num = some { f with
        data := placeSectors f.data (c.hostLo f.unit) data, present := c.need f.unit, cond := k } ∧
      (f.cls = .bulk → k = f.cond) ∧
      (∀ o, f.cls ≠ .bulk → c.ownedOf f.unit = some o → k = .inJob ∧
        (intakeWhole c f data s).hasJob f.num .encrypt (.slot o.slot o.gen) (o.tweak f.unit) (.host c.tag) f.cls) ∧
      (intakeWhole c f data s).host = s.host ∧ (intakeWhole c f data s).win = s.win ∧
      (intakeWhole c f data s).cmd? c.tag = some { c with taken := c.taken + 1 } := by
  have hplaced : (s.placed c f data).frame? f.num = some
      { f with data := placeSectors f.data (c.hostLo f.unit) data, present := c.need f.unit } :=
    frame?_modFrame (s := s)
      (g := fun f => { f with data := placeSectors f.data (c.hostLo f.unit) data, present := c.need f.unit })
      (fun _ => rfl) hf
  set v := (s.placed c f data).modCmd c.tag fun c => { c with taken := c.taken + 1 } with hv
  have hcv : v.cmd? c.tag = some { c with taken := c.taken + 1 } :=
    cmd?_modCmd (s := s.placed c f data) (f := fun c => { c with taken := c.taken + 1 }) (fun _ => rfl) (fun _ => rfl) hc
  obtain ⟨k, hframe, hbulk, hjob, hrest⟩ := unitPasses (c := c) (f := f) (s := v) .encrypt hplaced
  have heq : intakeWhole c f data s = if f.cls = .bulk then v else submitUnit c f .encrypt v := rfl
  rw [heq]
  refine ⟨k, hframe, hbulk, hjob, ?_, ?_, ?_⟩
  · rw [hrest]
    rfl
  · rw [hrest]
    rfl
  · rw [hrest]
    exact hcv

/-- Settles O42: the host's sectors in their frame, and the record of a CONTROL_WRITE in the window's hand. -/
theorem intakeUnitTaken : Obligations.IntakeUnitTaken := by
  intro s data x c f hr hx hsend hd hc hf hl h1 h8
  obtain ⟨_, htag⟩ := cmd?_mem hc
  have hnum : f.num = x.frame := by simpa using List.find?_some hf
  have hf' : s.frame? f.num = some f := by rw [hnum]; exact hf
  have hok : transferOk data = true := by
    unfold transferOk
    rw [decide_eq_true h1, decide_eq_true h8]
    rfl
  have hexec : exec (.unitTaken data) s = .next (pump (takeUnit data s.quiet)) :=
    (if_pos hok).trans (act_running s _ hr)
  have htake := takeUnit_eq (s := s.quiet) hx hsend hd hc hf hl
  have hdone : (endHostXfer s.quiet).host.xfer = some { x with done := true } := by
    show s.host.xfer.map _ = _
    rw [hx]
    rfl
  rw [hexec, htake]
  refine ⟨fun hk => ?_, fun hk => ?_⟩
  · rw [if_pos hk]
    obtain ⟨k1, k2, k3⟩ := handOver_spec c f (data.headD Sector.zero) (endHostXfer s.quiet)
    rw [hnum] at k3
    refine ⟨_, rfl, ?_, by rw [k2], by rw [k2]; rfl, by rw [k2]; rfl, by rw [k1]; exact hdone, k3⟩
    unfold State.handed
    rw [k2, htag]
  · rw [if_neg hk]
    have hcv : (endHostXfer s.quiet).cmd? c.tag = some c := by rw [htag]; exact hc
    obtain ⟨k, k1, k2, k3, k4, k5, k6⟩ := intakeWhole_spec (data := data) (s := endHostXfer s.quiet) hcv hf'
    rw [hnum] at k1 k3
    refine ⟨_, _, _, rfl, k1, rfl, rfl, htag ▸ k6, rfl, by rw [k4]; exact hdone, k5, k2, fun o => ?_⟩
    rw [← htag]
    exact k3 o

end Sys2Proof.Machine
end

section
/-!
SUPPORT. The order of first issue (R156), and a slot as pieces on it end (R11, R16, R19).
-/

namespace Sys2Proof.Machine

/-! ### The order of first issue (R156) -/

/-- A flight comes before another unless the other alone was issued, or was issued earlier. -/
theorem issuedBefore_iff {a b : Flight} :
    issuedBefore a b = true ↔ ∀ y, b.issued = some y → ∃ x, a.issued = some x ∧ x ≤ y := by
  unfold issuedBefore
  cases a.issued <;> cases b.issued <;> simp

theorem insertIssued_eq (f : Flight) : ∀ fs : List Flight,
    insertIssued f fs = fs.orderedInsert (fun a b => issuedBefore a b = true) f
  | [] => rfl
  | x :: xs => by
    unfold insertIssued
    rw [List.orderedInsert_cons, insertIssued_eq f xs]

theorem byIssue_eq (fs : List Flight) : byIssue fs = fs.insertionSort fun a b => issuedBefore a b = true := by
  have h : insertIssued = List.orderedInsert fun a b => issuedBefore a b = true :=
    funext fun f => funext fun fs => insertIssued_eq f fs
  unfold byIssue List.insertionSort
  rw [h]

theorem byIssue_perm (fs : List Flight) : (byIssue fs).Perm fs := by
  rw [byIssue_eq]
  exact List.perm_insertionSort _ fs

theorem issuedBefore_total (a b : Flight) : issuedBefore a b = true ∨ issuedBefore b a = true := by
  unfold issuedBefore
  cases a.issued <;> cases b.issued <;> simp
  omega

theorem issuedBefore_trans {a b c : Flight} (h : issuedBefore a b = true) (k : issuedBefore b c = true) :
    issuedBefore a c = true := by
  rw [issuedBefore_iff] at *
  intro z hz
  obtain ⟨y, hy, hyz⟩ := k z hz
  obtain ⟨x, hx, hxy⟩ := h y hy
  exact ⟨x, hx, hxy.trans hyz⟩

theorem byIssue_pairwise (fs : List Flight) : (byIssue fs).Pairwise fun a b => issuedBefore a b = true := by
  have htotal : Std.Total fun a b : Flight => issuedBefore a b = true := ⟨issuedBefore_total⟩
  have htrans : IsTrans Flight fun a b => issuedBefore a b = true := ⟨fun _ _ _ => issuedBefore_trans⟩
  rw [byIssue_eq]
  exact List.pairwise_insertionSort _ fs

/-! ### The pieces on a slot end (R16, R19) -/

/-- What a piece's end leaves of a slot as it is. -/
theorem pieceEnds_keeps (t : TitleSlot) (g : Nat) : t.pieceEnds g =
    { t with inFlight := t.inFlight - 1, retired := (t.pieceEnds g).retired } := by
  rw [pieceEnds_eq]

theorem retired_pieceEnds (t : TitleSlot) (g : Nat) : (t.pieceEnds g).retired = t.retired.bind fun x =>
    if x.gen = g then (if x.refs ≤ 1 then none else some { x with refs := x.refs - 1 }) else some x := by
  rw [pieceEnds_eq]
  dsimp only
  cases t.retired <;> rfl

/-- The count of a retired key after one piece, and then others. -/
theorem retiredAfter_cons (r : Option Retired) (o : Owned) (os : List Owned) :
    retiredAfter r (o :: os) = retiredAfter (r.bind fun x =>
      if x.gen = o.gen then (if x.refs ≤ 1 then none else some { x with refs := x.refs - 1 }) else some x) os := by
  cases r with
  | none => rfl
  | some x =>
    unfold retiredAfter
    dsimp only [Option.bind_some]
    by_cases hg : x.gen = o.gen
    · rw [if_pos hg, List.filter_cons_of_pos (by simpa using hg.symm), List.length_cons]
      by_cases h1 : x.refs ≤ 1
      · rw [if_pos h1, if_neg (Nat.succ_ne_zero _), if_pos (by omega)]
        rfl
      · rw [if_neg h1, if_neg (Nat.succ_ne_zero _), Option.bind_some]
        dsimp only
        set n := (os.filter fun p => decide (p.gen = x.gen)).length with hn
        by_cases h0 : n = 0
        · rw [if_pos h0, if_neg (by omega), h0]
        · rw [if_neg h0]
          by_cases h2 : x.refs ≤ n + 1
          · rw [if_pos h2, if_pos (by omega)]
          · rw [if_neg h2, if_neg (by omega), Nat.sub_sub, Nat.add_comm 1 n]
    · rw [if_neg hg, List.filter_cons_of_neg (by simpa using fun e => hg e.symm), Option.bind_some]

/-- A slot after its pieces have ended one by one. -/
theorem afterPieces_cons (t : TitleSlot) (o : Owned) (os : List Owned) :
    t.afterPieces (o :: os) = (t.pieceEnds o.gen).afterPieces os := by
  unfold TitleSlot.afterPieces
  rw [retiredAfter_cons, ← retired_pieceEnds, pieceEnds_keeps t o.gen, List.length_cons]
  dsimp only
  rw [Nat.sub_sub, Nat.add_comm 1]

theorem afterPieces_nil (t : TitleSlot) : t.afterPieces [] = t := by
  have h : retiredAfter t.retired [] = t.retired := by cases t.retired <;> rfl
  unfold TitleSlot.afterPieces
  rw [h]
  rfl

/-! ### The step out of DRAINING, slot by slot (R11, R38) -/

/-- Only the slot that leaves DRAINING changes, and only its extents leave the map. -/
theorem leaveDraining_other (i : SlotIx) (s : State) : (∀ k, k ≠ i → (leaveDraining i s).slot k = s.slot k) ∧
    (leaveDraining i s).map = s.map.filter fun e => decide (e.slot ≠ i) := by
  by_cases hk : (s.slot i).kind = some .recording
  · by_cases hd : (s.slot i).drain = some .closed
    · cases hdirty : (s.slot i).dirty with
      | true =>
        rw [leaveDraining_store hk hd hdirty, (serviceWork_requestOp _ _ _ _).map]
        exact ⟨fun k h => ((serviceWork_requestOp _ _ _ _).slot k).trans (State.slot_setSlot_other _ _ _ _ h), rfl⟩
      | false =>
        rw [leaveDraining_idle (.inr ⟨hd, hdirty⟩), (answer_slots _ _ _ _).2]
        exact ⟨fun k h => (answer_slot _ _ _ _ k).trans (State.slot_setSlot_other _ _ _ _ h), rfl⟩
    · rw [leaveDraining_erase hk hd, (serviceWork_requestOp _ _ _ _).map]
      exact ⟨fun k h => ((serviceWork_requestOp _ _ _ _).slot k).trans (State.slot_setSlot_other _ _ _ _ h), rfl⟩
  · rw [leaveDraining_idle (.inl hk), (answer_slots _ _ _ _).2]
    exact ⟨fun k h => (answer_slot _ _ _ _ k).trans (State.slot_setSlot_other _ _ _ _ h), rfl⟩

theorem drainTest_other (i : SlotIx) (s : State) : (∀ k, k ≠ i → (drainTest i s).slot k = s.slot k) ∧
    (drainTest i s).map ⊆ s.map ∧ ∀ e ∈ s.map, (s.slot e.slot).phase ≠ .draining → e ∈ (drainTest i s).map := by
  unfold drainTest
  dsimp only
  split
  · rename_i h
    obtain ⟨h1, h2⟩ := leaveDraining_other i s
    rw [h2]
    refine ⟨h1, List.filter_subset_self _, fun e he hne => List.mem_filter.mpr ⟨he, decide_eq_true fun e' => ?_⟩⟩
    exact hne (e' ▸ h.1)
  · exact ⟨fun _ _ => rfl, fun _ => id, fun _ he _ => he⟩

/-! ### A piece ends -/

/-- The pieces on a slot, the first of them apart. -/
theorem ownedOn_cons_of (p : Piece) (ps : List Piece) (i : SlotIx) :
    (∃ o, p.owned = some o ∧ o.slot = i ∧ ownedOn (p :: ps) i = o :: ownedOn ps i) ∨
    (∀ o, p.owned = some o → o.slot ≠ i) ∧ ownedOn (p :: ps) i = ownedOn ps i := by
  unfold ownedOn
  cases hp : p.owned with
  | none => exact .inr ⟨nofun, by rw [List.filterMap_cons_none hp]⟩
  | some o =>
    rw [List.filterMap_cons_some hp]
    by_cases h : o.slot = i
    · exact .inl ⟨o, rfl, h, List.filter_cons_of_pos (decide_eq_true h)⟩
    · exact .inr ⟨fun o' e => Option.some.inj e ▸ h, List.filter_cons_of_neg (by simpa using h)⟩

/-- The end of a piece on another slot. -/
theorem endPiece_other {p : Piece} {i : SlotIx} (s : State) (h : ∀ o, p.owned = some o → o.slot ≠ i) :
    (endPiece p s).slot i = s.slot i := by
  unfold endPiece
  cases hp : p.owned with
  | none => rfl
  | some o =>
    have hne : i ≠ o.slot := fun e => h o hp e.symm
    exact ((drainTest_other _ _).1 i hne).trans (State.slot_modSlot_other _ _ _ _ hne)

/-- A slot keeps its phase as a piece on it ends, unless it leaves DRAINING: then it was there without a store in
flight. -/
def TitleSlot.steady (t : TitleSlot) : Prop := t.phase ≠ .draining ∨ t.storeInFlight = true

theorem steady_pieceEnds {t : TitleSlot} (g : Nat) (h : t.steady) : (t.pieceEnds g).steady := by
  unfold TitleSlot.steady
  rw [pieceEnds_keeps]
  exact h

theorem endPiece_steady {p : Piece} {o : Owned} {s : State} (hp : p.owned = some o) (h : (s.slot o.slot).steady) :
    endPiece p s = s.setSlot o.slot ((s.slot o.slot).pieceEnds o.gen) :=
  endPiece_stays hp (h.imp_right .inr)

/-- The map as a piece ends: extents of a slot in DRAINING may leave it. -/
theorem endPiece_map (p : Piece) (s : State) : (endPiece p s).map ⊆ s.map ∧
    ∀ e ∈ s.map, (s.slot e.slot).phase ≠ .draining → e ∈ (endPiece p s).map := by
  unfold endPiece
  cases hp : p.owned with
  | none => exact ⟨fun _ => id, fun _ he _ => he⟩
  | some o =>
    obtain ⟨_, h2, h3⟩ := drainTest_other o.slot (s.modSlot o.slot fun t => t.pieceEnds o.gen)
    refine ⟨h2, fun e he hne => h3 e he ?_⟩
    by_cases hk : e.slot = o.slot
    · rw [hk] at hne ⊢
      rw [State.modSlot_eq, State.slot_setSlot_same, pieceEnds_keeps]
      exact hne
    · rw [State.slot_modSlot_other _ _ _ _ hk]
      exact hne

/-- A slot not in DRAINING is not in it after a piece's end. -/
theorem endPiece_phase {p : Piece} {s : State} {i : SlotIx} (h : (s.slot i).phase ≠ .draining) :
    ((endPiece p s).slot i).phase ≠ .draining := by
  rcases ownedOn_cons_of p [] i with ⟨o, hp, rfl, _⟩ | ⟨hne, _⟩
  · rw [endPiece_steady hp (.inl h), State.slot_setSlot_same, pieceEnds_keeps]
    exact h
  · rw [endPiece_other s hne]
    exact h

/-! ### All pieces of a list end -/

/-- A slot that keeps its phase, after all of them. -/
theorem endPieces_steady {i : SlotIx} : ∀ (ps : List Piece) (s : State), (s.slot i).steady →
    (ps.foldl (fun s p => endPiece p s) s).slot i = (s.slot i).afterPieces (ownedOn ps i)
  | [], s, _ => (afterPieces_nil _).symm
  | p :: ps, s, h => by
    rw [List.foldl_cons]
    rcases ownedOn_cons_of p ps i with ⟨o, hp, rfl, hcons⟩ | ⟨hne, hcons⟩
    · have hslot : (endPiece p s).slot o.slot = (s.slot o.slot).pieceEnds o.gen := by
        rw [endPiece_steady hp h, State.slot_setSlot_same]
      rw [endPieces_steady ps _ (hslot ▸ steady_pieceEnds _ h), hslot, hcons, afterPieces_cons]
    · rw [endPieces_steady ps _ ((endPiece_other s hne).symm ▸ h), endPiece_other s hne, hcons]

/-- Where no slot is in DRAINING, nothing but the slots changes. -/
theorem endPieces_rest : ∀ (ps : List Piece) (s : State), (∀ i, (s.slot i).phase ≠ .draining) →
    ps.foldl (fun s p => endPiece p s) s = { s with slots := (ps.foldl (fun s p => endPiece p s) s).slots }
  | [], _, _ => rfl
  | p :: ps, s, h => by
    have hone : endPiece p s = { s with slots := (endPiece p s).slots } := by
      cases hp : p.owned with
      | none =>
        have heq : endPiece p s = s := by unfold endPiece; rw [hp]
        rw [heq]
      | some o => rw [endPiece_steady hp (.inl (h o.slot))]; rfl
    have hrest := endPieces_rest ps (endPiece p s) fun i => endPiece_phase (h i)
    rw [List.foldl_cons]
    generalize ps.foldl (fun s p => endPiece p s) (endPiece p s) = u at hrest ⊢
    rw [hrest, hone]

theorem endPieces_map : ∀ (ps : List Piece) (s : State), (ps.foldl (fun s p => endPiece p s) s).map ⊆ s.map ∧
    ∀ e ∈ s.map, (s.slot e.slot).phase ≠ .draining → e ∈ (ps.foldl (fun s p => endPiece p s) s).map
  | [], _ => ⟨fun _ => id, fun _ he _ => he⟩
  | p :: ps, s => by
    obtain ⟨h1, h2⟩ := endPiece_map p s
    obtain ⟨k1, k2⟩ := endPieces_map ps (endPiece p s)
    exact ⟨fun _ he => h1 (k1 he), fun e he hne => k2 e (h2 e he hne) (endPiece_phase hne)⟩

end Sys2Proof.Machine
end

section
/-!
SUPPORT. The service operations that are asked for, or take their tags, as pieces end (R11, R149 to R151): what joins the
queue, the lanes and the flights.
-/

namespace Sys2Proof.Machine

/-! ### Flights by their tags -/

theorem flight?_eq_none {s : State} {g : SvcTag} : s.flight? g = none ↔ ∀ f ∈ s.cat.flights, f.tag ≠ g := by
  simp [State.flight?]

theorem flight?_isSome {s : State} {g : SvcTag} : (s.flight? g).isSome = true ↔ ∃ f ∈ s.cat.flights, f.tag = g := by
  simp [State.flight?]

theorem freeTag_spec {s : State} {g : SvcTag} (h : s.freeTag = some g) : ∀ f ∈ s.cat.flights, f.tag ≠ g := fun f hf => by
  have hall := List.find?_some h
  exact of_decide_eq_true (List.all_eq_true.mp hall f hf)

/-! ### What an operation adds -/

/-- Service operations have been asked for, or have taken free tags, between s and u: flights stay, and what joins the
drive issue queue or the lanes is of them. -/
structure Serves (s u : State) : Prop where
  flights : s.cat.flights ⊆ u.cat.flights
  queue : ∀ d ∈ u.drive.queue, d ∈ s.drive.queue ∨ ∃ g, d.who = .service g
  jobs : ∀ o, u.owns o → s.owns o ∨ ∃ g, o = .service g ∧ s.flight? g = none ∧ (u.flight? g).isSome = true

namespace Serves

variable {s u v : State}

theorem of_same (h1 : u.cat.flights = s.cat.flights) (h2 : u.drive.queue = s.drive.queue) (h3 : u.lanes = s.lanes) :
    Serves s u := ⟨by rw [h1]; exact fun _ => id, by rw [h2]; exact fun _ => .inl, fun o h => .inl (by
      unfold State.owns at *
      rw [h3] at h
      exact h)⟩

theorem refl (s : State) : Serves s s := of_same rfl rfl rfl

theorem trans (h : Serves s u) (k : Serves u v) : Serves s v where
  flights := fun _ hf => k.flights (h.flights hf)
  queue := fun d hd => (k.queue d hd).elim (h.queue d) .inr
  jobs := fun o ho => by
    rcases k.jobs o ho with ho | ⟨g, e, hu, hv⟩
    · rcases h.jobs o ho with ho | ⟨g, e, hs, hu⟩
      · exact .inl ho
      · obtain ⟨f, hf, ht⟩ := flight?_isSome.mp hu
        exact .inr ⟨g, e, hs, flight?_isSome.mpr ⟨f, k.flights hf, ht⟩⟩
    · exact .inr ⟨g, e, flight?_eq_none.mpr fun f hf => flight?_eq_none.mp hu f (h.flights hf), hv⟩

theorem after (k : Serves u v) (h1 : u.cat.flights = s.cat.flights) (h2 : u.drive.queue = s.drive.queue)
    (h3 : u.lanes = s.lanes) : Serves s v := (of_same h1 h2 h3).trans k

end Serves

theorem owns_submitJob {j : Job} {s : State} {o : Owner} (h : (submitJob j s).owns o) : s.owns o ∨ o = j.owner := by
  have hstart : ∀ l, (startsDone (startJob l { j with bypass := 0 } s)).owns o → s.owns o ∨ o = j.owner := by
    rintro l (⟨i, hi, e⟩ | ⟨m, x, hx, e⟩)
    · exact .inl (.inl ⟨i, startJob_jobs l _ s ▸ hi, e⟩)
    · have hx' : (s.lanes.setLane l (some ⟨{ j with bypass := 0 }, resolveKey s j.source, s.lanes.starts⟩)).lane m = some x :=
        hx
      rw [setLane_lane] at hx'
      split at hx'
      · rw [← e, ← Option.some.inj hx']; exact .inr rfl
      · exact .inl (.inr ⟨m, x, hx', e⟩)
  unfold submitJob at h
  split at h
  · exact hstart 0 h
  · exact hstart 1 h
  · rcases h with ⟨i, hi, e⟩ | h
    · rcases List.mem_append.mp hi with hi | hi
      · exact .inl (.inl ⟨i, hi, e⟩)
      · rw [← e, List.mem_singleton.mp hi]; exact .inr rfl
    · exact .inl (.inr h)

/-- What an operation that takes tag t makes of the state: its own flight alone may change, and its read or its job is
submitted. -/
structure Submits (t : SvcTag) (s u : State) : Prop where
  flights : ∃ g : Flight → Flight, (∀ x, (g x).tag = x.tag ∧ (x.tag ≠ t → g x = x)) ∧
    u.cat.flights = s.cat.flights.map g
  queue : ∀ d ∈ u.drive.queue, d ∈ s.drive.queue ∨ d.who = .service t
  jobs : ∀ o, u.owns o → s.owns o ∨ o = .service t

theorem submits_joinQueue {t : SvcTag} {e : DriveCmd} (s : State) (he : e.who = .service t) : Submits t s (joinQueue e s) where
  flights := ⟨id, fun _ => ⟨rfl, fun _ => rfl⟩, (List.map_id _).symm⟩
  queue := fun d hd => (List.mem_append.mp hd).imp_right fun hd => by rw [List.mem_singleton.mp hd, he]
  jobs := fun _ => .inl

theorem submits_formRecord (t : SvcTag) (x : DiskUnit) (tw : Tweak) (s : State) : Submits t s (formRecord t x tw s) where
  flights := by
    refine ⟨fun f => if f.tag = t then { f with content := .formed x } else f, fun f => ?_, ?_⟩
    · dsimp only
      by_cases e : f.tag = t
      · rw [if_pos e]; exact ⟨rfl, absurd e⟩
      · rw [if_neg e]; exact ⟨rfl, fun _ => rfl⟩
    · unfold formRecord
      rw [submitJob_cat]
      rfl
  queue := fun d hd => by
    unfold formRecord at hd
    rw [submitJob_rest] at hd
    exact .inl hd
  jobs := fun o ho => owns_submitJob ho

theorem submits_beginFlight (f : Flight) (s : State) : Submits f.tag s (beginFlight f s) := by
  have htitle : ∀ (i : Nat) (x : TitleFields), Submits f.tag s (formTitle f.tag i x s) := fun i x => by
    obtain ⟨h1, h2, h3⟩ := submits_formRecord f.tag
      (sealedRecord s.epoch i (nextGeneration (s.knownGen i)) x) (catalogueTweak (nextGeneration (s.knownGen i)) i)
      (setKnownGen i (some (nextGeneration (s.knownGen i))) s)
    exact ⟨h1, h2, h3⟩
  unfold beginFlight
  cases f.op.kind with
  | load i => exact submits_joinQueue s rfl
  | headerRead => exact submits_joinQueue s rfl
  | store i => exact htitle i _
  | erase i => exact htitle i _
  | headerWrite e => exact submits_formRecord f.tag _ _ s

theorem serves_takeTags : ∀ (n : Nat) (s : State), Serves s (takeTags n s)
  | 0, s => .refl s
  | n + 1, s => by
    unfold takeTags
    split
    · rename_i op rest t _ ht
      refine Serves.trans ?_ (serves_takeTags n _)
      set f : Flight := { tag := t, op := op } with hf
      set w : State := { s with cat := { s.cat with queue := rest, flights := s.cat.flights ++ [f] } } with hw
      obtain ⟨⟨g, hg, hflights⟩, hqueue, hjobs⟩ := submits_beginFlight f w
      have hfree := freeTag_spec ht
      refine ⟨fun x hx => ?_, fun d hd => (hqueue d hd).imp_right fun e => ⟨t, e⟩, fun o ho => ?_⟩
      · rw [hflights]
        exact List.mem_map.mpr ⟨x, List.mem_append_left _ hx, (hg x).2 (hfree x hx)⟩
      · refine (hjobs o ho).imp_right fun e => ⟨t, e, flight?_eq_none.mpr hfree, flight?_isSome.mpr ⟨g f, ?_, (hg f).1⟩⟩
        rw [hflights]
        exact List.mem_map.mpr ⟨f, List.mem_append_right _ (List.mem_singleton_self _), rfl⟩
    · exact .refl s

theorem serves_requestOp (k : SvcKind) (o : SvcOwner) (ext : Option (List RecExtent)) (s : State) :
    Serves s (requestOp k o ext s) := by
  unfold requestOp
  exact (serves_takeTags 4 _).after rfl rfl rfl

/-- Operations asked for stay so as another is. -/
theorem ops_requestOp (k : SvcKind) (o : SvcOwner) (ext : Option (List RecExtent)) (s : State) :
    s.ops ⊆ (requestOp k o ext s).ops := fun op hop => by
  unfold requestOp
  refine (takeTags_ops 4 _).mem_iff.mpr ?_
  rcases List.mem_append.mp hop with h | h
  · exact List.mem_append_left _ (List.mem_append_left _ h)
  · exact List.mem_append_right _ h

/-! ### Pieces end behind a reset of the host link (R94, R128) -/

/-- The control command in hand, if there is one, has lost its tag. -/
def State.untagged (s : State) : Prop := ∀ e, s.win.executing = some e → e.tag = none

/-- Slots have left DRAINING between s and u, behind a reset of the host link: their records are stored or erased by
service operations, and the control command in hand may have been answered. -/
structure Resumes (s u : State) : Prop where
  rest : u = { s with
    slots := u.slots, map := u.map, cat := u.cat, lanes := u.lanes, stamp := u.stamp,
    drive := { s.drive with queue := u.drive.queue },
    win := { s.win with executing := u.win.executing, reply := u.win.reply } }
  header : u.cat.header = s.cat.header
  serves : Serves s u
  ops : s.ops ⊆ u.ops
  untagged : s.untagged → u.untagged

namespace Resumes

variable {s u v : State}

theorem trans (h : Resumes s u) (k : Resumes u v) : Resumes s v where
  rest := by rw [k.rest, h.rest]
  header := k.header.trans h.header
  serves := h.serves.trans k.serves
  ops := fun _ ho => k.ops (h.ops ho)
  untagged := fun hs => k.untagged (h.untagged hs)

/-- The operations asked for stay so. -/
theorem asks (h : Resumes s u) {k : SvcKind} {o : SvcOwner} (ha : s.asks k o) : u.asks k o := by
  rw [State.asks_iff] at ha ⊢
  obtain ⟨op, hop, e⟩ := ha
  exact ⟨op, h.ops hop, e⟩

end Resumes

theorem resumes_slots (s : State) (slots : Vector TitleSlot 8) (map : List Extent) :
    Resumes s { s with slots := slots, map := map } := ⟨rfl, rfl, .of_same rfl rfl rfl, fun _ => id, id⟩

theorem Resumes.refl (s : State) : Resumes s s := resumes_slots s s.slots s.map

theorem resumes_requestOp (k : SvcKind) (o : SvcOwner) (ext : Option (List RecExtent)) (s : State) :
    Resumes s (requestOp k o ext s) where
  rest := by
    obtain ⟨h1, h2, _⟩ := serviceWork_requestOp k o ext s
    conv_lhs => rw [h1, h2]
    rw [h1]
  header := (serviceWork_requestOp k o ext s).header
  serves := serves_requestOp k o ext s
  ops := ops_requestOp k o ext s
  untagged := fun h => by
    unfold State.untagged
    rw [(serviceWork_requestOp k o ext s).win]
    exact h

theorem resumes_enterIdle (i : SlotIx) (s : State) : Resumes s (enterIdle i s) :=
  ⟨rfl, rfl, .of_same rfl rfl rfl, fun _ => id, id⟩

/-- The control command without a tag finishes: its reply is written, and no completion becomes due (R193). -/
theorem resumes_answer (st : Stage) (i : SlotIx) (x : Result) {s : State} (h : s.untagged) :
    Resumes s (answer st i x s) := by
  unfold answer finishControl
  split
  · split
    · exact .refl s
    · rename_i e he
      rw [h e he]
      exact ⟨rfl, rfl, .of_same rfl rfl rfl, fun _ => id, fun _ _ he => nomatch he⟩
  · exact .refl s

theorem resumes_leaveDraining (i : SlotIx) {s : State} (h : s.untagged) : Resumes s (leaveDraining i s) := by
  have hmap := resumes_slots s s.slots (s.map.filter fun e => decide (e.slot ≠ i))
  have hidle := (hmap.trans (resumes_enterIdle i _)).trans (resumes_answer .idle i .ok h)
  have hop := fun k ext x => (resumes_slots s (s.slots.set i x) (s.map.filter fun e => decide (e.slot ≠ i))).trans
    (resumes_requestOp k (.slot i) ext _)
  by_cases hk : (s.slot i).kind = some .recording
  · by_cases hd : (s.slot i).drain = some .closed
    · cases hdirty : (s.slot i).dirty with
      | true => rw [leaveDraining_store hk hd hdirty]; exact hop _ _ _
      | false => rw [leaveDraining_idle (.inr ⟨hd, hdirty⟩)]; exact hidle
    · rw [leaveDraining_erase hk hd]; exact hop _ _ _
  · rw [leaveDraining_idle (.inl hk)]; exact hidle

theorem resumes_endPiece (p : Piece) {s : State} (h : s.untagged) : Resumes s (endPiece p s) := by
  unfold endPiece
  split
  · rename_i o _
    refine (resumes_slots s (s.modSlot o.slot fun t => t.pieceEnds o.gen).slots s.map).trans ?_
    unfold drainTest
    dsimp only
    split
    · exact resumes_leaveDraining o.slot h
    · exact .refl _
  · exact .refl s

theorem resumes_endPieces : ∀ (ps : List Piece) {s : State}, s.untagged →
    Resumes s (ps.foldl (fun s p => endPiece p s) s)
  | [], s, _ => .refl s
  | p :: ps, _, h => (resumes_endPiece p h).trans (resumes_endPieces ps ((resumes_endPiece p h).untagged h))

/-! ### The last piece on a slot in DRAINING (R11, R28) -/

/-- The slot i, which was t in DRAINING without a store in flight, has left it (R11, R38). -/
structure State.Drained (u : State) (i : SlotIx) (t : TitleSlot) : Prop where
  map : ∀ e ∈ u.map, e.slot ≠ i
  stores : t.kind = some .recording → t.drain = some .closed → t.dirty = true →
    (u.slot i).phase = .storing ∧ u.asks (.store (t.number.getD 0)) (.slot i)
  erases : t.kind = some .recording → t.drain ≠ some .closed →
    (u.slot i).phase = .erasing ∧ (u.slot i).key = none ∧ (u.slot i).retired = none ∧
    u.asks (.erase (t.number.getD 0)) (.slot i)
  idle : t.kind ≠ some .recording ∨ (t.drain = some .closed ∧ t.dirty = false) → u.slot i = TitleSlot.empty

theorem drained_leaveDraining (i : SlotIx) (s : State) : (leaveDraining i s).Drained i (s.slot i) where
  map := (leaveDraining_left i s).2
  stores := fun hk hd h => by
    rw [leaveDraining_store hk hd h, (serviceWork_requestOp _ _ _ _).slot, State.slot_setSlot_same]
    exact ⟨rfl, asks_requestOp _ _ _ _⟩
  erases := fun hk hd => by
    rw [leaveDraining_erase hk hd, (serviceWork_requestOp _ _ _ _).slot, State.slot_setSlot_same]
    exact ⟨rfl, rfl, rfl, asks_requestOp _ _ _ _⟩
  idle := fun h => by rw [leaveDraining_idle h, answer_slot, enterIdle_slot]

/-- The same holds of a slot with another in-flight count and retired key. -/
theorem State.Drained.of_pieceEnds {u : State} {i : SlotIx} {t : TitleSlot} {g : Nat} (h : u.Drained i (t.pieceEnds g)) :
    u.Drained i t := by
  rw [pieceEnds_keeps] at h
  exact ⟨h.map, h.stores, h.erases, h.idle⟩

/-- A slot that has left DRAINING stays as it is while no piece on it ends. -/
theorem State.Drained.endPieces {i : SlotIx} {t : TitleSlot} {ps : List Piece} {s : State} (h : s.Drained i t)
    (hs : s.untagged) (hp : (s.slot i).steady) (hn : ownedOn ps i = []) :
    (ps.foldl (fun s p => endPiece p s) s).Drained i t := by
  have hslot : (ps.foldl (fun s p => endPiece p s) s).slot i = s.slot i := by
    rw [endPieces_steady ps s hp, hn, afterPieces_nil]
  have hres := resumes_endPieces ps hs
  refine ⟨fun e he => h.map e ((endPieces_map ps s).1 he), fun h1 h2 h3 => ?_, fun h1 h2 => ?_, fun h1 => ?_⟩
  · rw [hslot]
    exact ⟨(h.stores h1 h2 h3).1, hres.asks (h.stores h1 h2 h3).2⟩
  · obtain ⟨k1, k2, k3, k4⟩ := h.erases h1 h2
    rw [hslot]
    exact ⟨k1, k2, k3, hres.asks k4⟩
  · rw [hslot]
    exact h.idle h1

/-- A slot in DRAINING leaves it as the last of the pieces on it ends. -/
theorem endPieces_drains {i : SlotIx} : ∀ (ps : List Piece) {s : State}, s.untagged → (s.slot i).phase = .draining →
    (s.slot i).storeInFlight = false → (s.slot i).inFlight = (ownedOn ps i).length → (s.slot i).inFlight ≠ 0 →
    (ps.foldl (fun s p => endPiece p s) s).Drained i (s.slot i)
  | [], s, _, _, _, hn, h0 => absurd hn h0
  | p :: ps, s, hs, hp, hst, hn, h0 => by
    rw [List.foldl_cons]
    have hs' := (resumes_endPiece p hs).untagged hs
    rcases ownedOn_cons_of p ps i with ⟨o, ho, rfl, hcons⟩ | ⟨hne, hcons⟩
    · rw [hcons, List.length_cons] at hn
      by_cases hlast : ownedOn ps o.slot = []
      · have hone : (s.slot o.slot).inFlight = 1 := by rw [hn, hlast]; rfl
        have heq : endPiece p s = leaveDraining o.slot (s.setSlot o.slot ((s.slot o.slot).pieceEnds o.gen)) := by
          unfold endPiece
          rw [ho]
          dsimp only
          rw [State.modSlot_eq]
          refine drainTest_leaves ?_ ?_ ?_ <;> rw [State.slot_setSlot_same, pieceEnds_keeps]
          · exact hp
          · show (s.slot o.slot).inFlight - 1 = 0
            rw [hone]
          · exact hst
        have hleft := drained_leaveDraining o.slot (s.setSlot o.slot ((s.slot o.slot).pieceEnds o.gen))
        rw [State.slot_setSlot_same, ← heq] at hleft
        refine hleft.of_pieceEnds.endPieces hs' (.inl ?_) hlast
        rw [heq]
        exact (leaveDraining_left _ _).1
      · have hmore : 1 < (s.slot o.slot).inFlight := by
          rw [hn]
          exact Nat.succ_lt_succ (List.length_pos_iff.mpr hlast)
        have hslot : (endPiece p s).slot o.slot = (s.slot o.slot).pieceEnds o.gen := by
          rw [endPiece_stays ho (.inr (.inl hmore)), State.slot_setSlot_same]
        have hkeep := pieceEnds_keeps (s.slot o.slot) o.gen
        have hrec := endPieces_drains (i := o.slot) ps hs' (by rw [hslot, hkeep]; exact hp) (by rw [hslot, hkeep]; exact hst)
          (by rw [hslot, hkeep]; show _ - 1 = _; rw [hn]; rfl) (by rw [hslot, hkeep]; exact Nat.sub_ne_zero_of_lt hmore)
        rw [hslot] at hrec
        exact hrec.of_pieceEnds
    · have hslot := endPiece_other s hne
      have hrec := endPieces_drains (i := i) ps hs' (by rw [hslot]; exact hp) (by rw [hslot]; exact hst)
        (by rw [hslot, hn, hcons]) (by rw [hslot]; exact h0)
      rw [hslot] at hrec
      exact hrec

end Sys2Proof.Machine
end

section
/-!
O13. The reset of the host link, and its return (R94, R128, R141, R159, R206, R207).
-/

namespace Sys2Proof.Machine

/-- The state in which all traffic has been cleared and the drive link is in its reset, before the pieces end. -/
def State.cleared (s : State) : State := emitLinkReset (clearTraffic s.quiet)

theorem exec_hostLinkReset {s : State} (hr : s.inReset = false) (hup : s.host.up = true) :
    exec .hostLinkReset s = .next ((s.table.flatMap (·.pieces)).foldl (fun s p => endPiece p s) s.cleared) :=
  (act_running s Machine.hostLinkResets hr).trans (congrArg _ (if_pos hup))

theorem cleared_rest (s : State) : s.cleared = { clearTraffic s.quiet with out := s.cleared.out } := by
  unfold State.cleared emitLinkReset
  split <;> rfl

theorem cleared_out (s : State) : s.cleared.out = if s.drive.asking then [] else [.driveLinkReset] := by
  have h : s.cleared = if s.drive.asking then clearTraffic s.quiet else (clearTraffic s.quiet).emit .driveLinkReset := rfl
  rw [h]
  cases s.drive.asking <;> rfl

theorem cleared_untagged (s : State) : s.cleared.untagged := by
  intro e he
  rw [cleared_rest] at he
  obtain ⟨x, _, rfl⟩ := Option.map_eq_some_iff.mp he
  rfl

theorem cleared_owns (s : State) (o : Owner) : ¬ s.cleared.owns o := by
  rw [cleared_rest]
  rintro (⟨j, hj, _⟩ | ⟨l, x, hx, _⟩)
  · exact List.not_mem_nil hj
  · fin_cases l <;> exact nomatch hx

theorem cleared_slot (s : State) (i : SlotIx) : s.cleared.slot i = s.slot i := by
  rw [cleared_rest]
  rfl

/-- The operations in flight keep their tags, and their frames are erased (R159). -/
theorem cleared_flights (s : State) :
    s.cleared.cat.flights = s.cat.flights.map fun f => { f with content := .erased } := by
  rw [cleared_rest]
  rfl

theorem cleared_flight? {s : State} {g : SvcTag} (h : s.cleared.flight? g = none) : s.flight? g = none := by
  rw [flight?_eq_none] at h ⊢
  intro f hf
  exact h { f with content := .erased } (by rw [cleared_flights]; exact List.mem_map.mpr ⟨f, hf, rfl⟩)

/-- What the reset leaves of the drive link. -/
theorem cleared_link (s : State) : s.cleared.drive.link = if s.drive.asking then s.drive.link else .resetting := by
  rw [cleared_rest]
  rfl

theorem cleared_map (s : State) : s.cleared.map = s.map := by
  rw [cleared_rest]
  rfl

theorem cleared_queue (s : State) : s.cleared.drive.queue = [] := by
  rw [cleared_rest]
  rfl

end Sys2Proof.Machine

namespace Sys2Proof
open Machine

/-- Settles O13: what the reset of the host link ends and keeps, and its return. -/
theorem hostLinkResets : Obligations.HostLinkResets := by
  refine ⟨fun s hr hup => ⟨_, exec_hostLinkReset hr hup, ?_⟩, fun fs => ⟨byIssue_perm fs, ?_⟩, fun s hr hup => ?_,
    fun s hr hp => ?_, fun s hr hp => ?_⟩
  · set ps := s.table.flatMap (·.pieces) with hps
    have hun := cleared_untagged s
    obtain ⟨hrest, hheader, hserves, _, _⟩ := resumes_endPieces ps hun
    have hsteady := fun i => endPieces_steady (i := i) ps s.cleared
    have hmap := (endPieces_map ps s.cleared).2
    have hdrains := fun i => endPieces_drains (i := i) ps hun
    have hidle := endPieces_rest ps s.cleared
    simp only [cleared_slot, cleared_map] at hsteady hmap hdrains hidle
    set t := ps.foldl (fun s p => endPiece p s) s.cleared with ht
    have hlanes : (∀ i, (s.slot i).phase ≠ .draining) → t.lanes = {} := fun h => by
      rw [hidle h, cleared_rest]
      rfl
    have hjobs : ∀ o, t.owns o → ∃ g, o = .service g ∧ s.flight? g = none ∧ (t.flight? g).isSome = true := fun o ho => by
      obtain ⟨g, e, h1, h2⟩ := (hserves.jobs o ho).resolve_left (cleared_owns s o)
      exact ⟨g, e, cleared_flight? h1, h2⟩
    have hqueue : ∀ d ∈ t.drive.queue, ∃ g, d.who = .service g := fun d hd =>
      (hserves.queue d hd).resolve_left (by rw [cleared_queue]; exact List.not_mem_nil)
    have hflights : ∀ f ∈ s.cat.flights, { f with content := .erased } ∈ t.cat.flights := fun f hf =>
      hserves.flights (by rw [cleared_flights]; exact List.mem_map.mpr ⟨f, hf, rfl⟩)
    have hout : t.out = s.cleared.out := by rw [hrest]
    have hlink : t.drive.link = s.cleared.drive.link := by rw [hrest]
    rw [cleared_out] at hout
    rw [cleared_link] at hlink
    rw [cleared_rest] at hrest hheader
    refine ⟨by rw [hrest]; rfl, by rw [hrest]; rfl, by rw [hrest]; rfl, hqueue, by rw [hrest]; rfl, by rw [hrest]; rfl,
      by rw [hrest]; rfl, by rw [hrest]; rfl, by rw [hrest]; rfl, by rw [hrest]; rfl, fun h => ?_, fun h => ?_,
      fun h => ?_, fun j hj => ?_, fun i h => hsteady i (.inl h), fun i h1 h2 h3 => ⟨fun h4 => hsteady i (.inr h4),
        fun h4 => ?_⟩, hmap, hflights, by rw [hrest]; rfl, by rw [hrest]; rfl, by rw [hrest]; rfl, by rw [hrest]; rfl,
      by rw [hrest]; rfl, by rw [hrest]; rfl, hheader, by rw [hrest]; rfl⟩
    · rw [hlink, hout, h]
      exact ⟨rfl, rfl⟩
    · rw [hlink, hout, h]
      exact ⟨rfl, rfl⟩
    · rw [hlanes h]
      exact ⟨rfl, rfl, rfl⟩
    · exact hjobs j.owner (hj.imp (fun h => ⟨j, h, rfl⟩) fun ⟨l, x, hx, e⟩ => ⟨l, x, hx, by rw [e]⟩)
    · obtain ⟨k1, k2, k3, k4⟩ := hdrains i h1 h4 h2 h3
      exact ⟨k1, k2, k3, k4⟩
  · exact (byIssue_pairwise fs).imp issuedBefore_iff.mp
  · exact (act_running s Machine.hostLinkResets hr).trans (congrArg _ (if_neg (by
      rw [State.quiet_host, hup]
      exact Bool.false_ne_true)))
  · exact (act_running s hostLinkReturns hr).trans (congrArg _ (if_neg hp))
  · exact (act_running s hostLinkReturns hr).trans (congrArg _ (if_pos hp))

end Sys2Proof
end

section
/-!
O39. A merge read completes good (R98, R99).
-/

namespace Sys2Proof.Machine

/-! ### The merge list (R98) -/

theorem mem_setMerge {c : Cmd} {u : Nat} {st : MergeState} {m : MergeEntry} :
    m ∈ (c.setMerge u st).merges ↔
      (m ∈ c.merges ∧ m.unit ≠ u) ∨ ∃ x ∈ c.merges, x.unit = u ∧ m = { x with state := st } := by
  refine List.mem_map.trans ⟨?_, ?_⟩
  · rintro ⟨x, hx, rfl⟩
    by_cases e : x.unit = u
    · rw [if_pos e]
      exact .inr ⟨x, hx, e, rfl⟩
    · rw [if_neg e]
      exact .inl ⟨hx, e⟩
  · rintro (⟨hm, e⟩ | ⟨x, hx, e, rfl⟩)
    · exact ⟨m, hm, if_neg e⟩
    · exact ⟨x, hx, if_pos e⟩

/-- The entries of the unit are in the state put. -/
theorem setMerge_state {c : Cmd} {u : Nat} {st : MergeState} {m : MergeEntry} (h : m ∈ (c.setMerge u st).merges)
    (hu : m.unit = u) : m.state = st := by
  obtain ⟨_, hne⟩ | ⟨_, _, _, rfl⟩ := mem_setMerge.mp h
  · exact absurd hu hne
  · rfl

/-- An entry still PENDING after one of unit u has moved on is an entry of another unit, as it was. -/
theorem setMerge_pending {c : Cmd} {u : Nat} {st : MergeState} (hst : st ≠ .pending) {m : MergeEntry} :
    (m ∈ (c.setMerge u st).merges ∧ m.state = .pending) ↔ (m ∈ c.merges ∧ m.unit ≠ u) ∧ m.state = .pending := by
  refine and_congr_left fun hp => mem_setMerge.trans (or_iff_left ?_)
  rintro ⟨_, _, _, rfl⟩
  exact hst hp

theorem nextMerge_some {c : Cmd} {m : MergeEntry} (h : c.nextMerge = some m) : m ∈ c.merges ∧ m.state = .pending :=
  ⟨List.mem_of_find?_eq_some h, by simpa using List.find?_some h⟩

theorem nextMerge_none {c : Cmd} (h : c.nextMerge = none) {m : MergeEntry} (hm : m ∈ c.merges) : m.state ≠ .pending :=
  fun hp => List.find?_eq_none.mp h m hm (decide_eq_true hp)

/-! ### The command of a tag replaced, and its drive command complete -/

theorem cmd?_state {s : State} {t : HostTag} {c : Cmd} (h : s.cmd? t = some c) : c.state ≠ .failed := by
  have hp := List.find?_some h
  rw [Bool.and_eq_true, decide_eq_true_eq, decide_eq_true_eq] at hp
  exact hp.2

/-- A command at work put in place of the one of its tag is the one found. -/
theorem cmd?_putCmd {s : State} {t : HostTag} {c k : Cmd} (hc : s.cmd? t = some c) (ht : k.tag = c.tag)
    (hs : k.state = c.state) : (s.modCmd t fun _ => k).cmd? t = some k := by
  have honly : ∀ x ∈ (s.modCmd t fun _ => k).table, x.tag = t → x = k := fun x hx hxt => by
    obtain ⟨y, _, rfl⟩ := List.mem_map.mp hx
    by_cases e : y.tag = t
    · exact if_pos e
    · rw [if_neg e] at hxt
      exact absurd hxt e
  obtain ⟨hm, htag⟩ := cmd?_mem hc
  have hin : k ∈ (s.modCmd t fun _ => k).table := List.mem_map.mpr ⟨c, hm, if_pos htag⟩
  cases hf : (s.modCmd t fun _ => k).cmd? t with
  | none => exact absurd (hs.symm.trans (cmd?_eq_none.mp hf k hin (ht.trans htag))) (cmd?_state hc)
  | some x => rw [honly x (cmd?_mem hf).1 (cmd?_mem hf).2]

theorem completing_of {s : State} {t : HostTag} {d : DriveCmd} (hl : s.drive.link = .up)
    (he : s.drive.errorRead = false) (hd : s.driveCmdOf t = some d) (hm : d.moved = d.count) :
    s.completing t = some d := by
  unfold State.completing
  rw [hd]
  exact if_pos ⟨driveWorks_of hl he, hm⟩

/-! ### The next merge read (R99) -/

theorem joinMergeRead_none {c : Cmd} (s : State) (h : c.nextMerge = none) : joinMergeRead c s = s := by
  unfold joinMergeRead
  rw [h]

/-- The entry that is read next becomes READING, and its merge read joins the queue. -/
theorem joinMergeRead_some {s : State} {c : Cmd} {m : MergeEntry} (hc : s.cmd? c.tag = some c)
    (h : c.nextMerge = some m) : let u := joinMergeRead c s
    u.cmd? c.tag = some (c.setMerge m.unit .reading) ∧ u.lanes = s.lanes ∧
      u.drive = s.drive.queued { who := .host c.tag, op := .mergeRead, lba := 8 * m.unit, count := 8 } := by
  have heq : joinMergeRead c s = (joinQueue { who := .host c.tag, op := .mergeRead, lba := 8 * m.unit, count := 8 } s).modCmd
      c.tag fun c => c.setMerge m.unit .reading := by
    unfold joinMergeRead
    rw [h]
  dsimp only
  rw [heq]
  exact ⟨cmd?_modCmd (f := fun c => c.setMerge m.unit .reading) (fun _ => rfl) (fun _ => rfl) hc, rfl, rfl⟩

/-! ### MERGE_READ_COMPLETE (R99) -/

/-- The state in which the base in frame f has been read back and its decrypt job submitted, before the next read. -/
def State.baseRead (s : State) (t : HostTag) (c : Cmd) (f : Frame) (o : Owned) (e : MergeEntry) : State :=
  submitJob (baseJob t f o.slot e)
    ((driveCompletes (.host t) s).modCmd t fun _ => c.setMerge e.unit .decrypting)

theorem mergeReadEnds_eq {s : State} {t : HostTag} {c : Cmd} {d : DriveCmd} {e : MergeEntry} {f : Frame} {o : Owned}
    (hc : s.cmd? t = some c) (hd : s.completing t = some d) (hop : d.op = .mergeRead) (he : c.reading = some e)
    (hf : s.frameOf t e.unit = some f) (ho : c.ownedOf e.unit = some o) :
    mergeReadEnds t s = joinMergeRead (c.setMerge e.unit .decrypting) (s.baseRead t c f o e) := by
  unfold mergeReadEnds
  rw [hc, hd]
  dsimp only
  rw [hop, he]
  dsimp only
  rw [hf, ho]
  rfl

theorem baseRead_spec {s : State} {t : HostTag} {c : Cmd} (f : Frame) (o : Owned) (e : MergeEntry)
    (hc : s.cmd? t = some c) : let v := s.baseRead t c f o e
    v.cmd? t = some (c.setMerge e.unit .decrypting) ∧
      v.hasJob f.num .decrypt (.slot o.slot e.gen) e.tweak (.host t) .record ∧
      v.drive = (driveCompletes (.host t) s).drive := by
  set w := (driveCompletes (.host t) s).modCmd t fun _ => c.setMerge e.unit .decrypting
  have hrest : s.baseRead t c f o e = { w with lanes := (s.baseRead t c f o e).lanes } := submitJob_rest _ w
  have hcw : w.cmd? t = some (c.setMerge e.unit .decrypting) :=
    cmd?_putCmd (s := driveCompletes (.host t) s) hc rfl rfl
  obtain ⟨j, hj, rfl⟩ := jobs_submitJob (baseJob t f o.slot e) w
  refine ⟨?_, ⟨_, hj, rfl, rfl, rfl, rfl, rfl, rfl⟩, ?_⟩
  · rw [hrest]
    exact hcw
  · rw [hrest]
    rfl

/-- Settles O39, by whether the merge list has another base to read. -/
theorem mergeReadsFollow : Obligations.MergeReadsFollow := by
  intro s t c d e f o hr hl herr hc hd hm hop he hf ho
  set c1 := c.setMerge e.unit .decrypting
  set v := s.quiet.baseRead t c f o e
  have hends : mergeReadEnds t s.quiet = joinMergeRead c1 v :=
    mergeReadEnds_eq (s := s.quiet) hc (completing_of hl herr hd hm) hop he hf ho
  have hexec : exec (.mergeReadComplete t) s = .next (pump (joinMergeRead c1 v)) := by
    rw [← hends]
    exact act_running s (fun s => pump (mergeReadEnds t s)) hr
  obtain ⟨hcv, hjob, hdrive⟩ := baseRead_spec (s := s.quiet) f o e hc
  have hst : MergeState.decrypting ≠ .pending := nofun
  obtain rfl : c1.tag = t := (cmd?_mem hc).2
  cases hnext : c1.nextMerge with
  | none =>
    have hover : ∀ m ∈ c.merges, m.unit ≠ e.unit → m.state ≠ .pending := fun m hmem hne hp =>
      nextMerge_none hnext ((setMerge_pending hst).mpr ⟨⟨hmem, hne⟩, hp⟩).1 hp
    rw [joinMergeRead_none v hnext] at hexec
    exact ⟨v, c1, hexec, hcv, hjob, fun m => setMerge_state, by rw [hdrive]; rfl, fun _ => by rw [hdrive]; rfl,
      fun m hmem hne hp _ => absurd hp (hover m hmem hne)⟩
  | some n =>
    obtain ⟨⟨hn, hne⟩, hpend⟩ := (setMerge_pending hst).mp (nextMerge_some hnext)
    obtain ⟨hcu, hlanes, hqueued⟩ := joinMergeRead_some hcv hnext
    rw [hdrive] at hqueued
    refine ⟨_, c1.setMerge n.unit .reading, hexec, hcu, ?_, fun m hmem hu => ?_, by rw [hqueued]; rfl,
      fun hover => absurd hpend (hover n hn hne), fun m _ _ _ honly => ?_⟩
    · unfold State.hasJob
      rw [hlanes]
      exact hjob
    · obtain ⟨hold, _⟩ | ⟨x, _, hx, rfl⟩ := mem_setMerge.mp hmem
      · exact setMerge_state hold hu
      · exact absurd (hx.symm.trans hu) hne
    · obtain rfl := honly n hn hne
      exact ⟨by rw [hqueued]; rfl, fun m' => setMerge_state⟩

end Sys2Proof.Machine
end

section
/-!
O35. Frame requests (R117, R118, R123, R124, R126): which are grantable, what a grant takes, and the order and the end of
an arbitration.
-/

namespace Sys2Proof.Machine

/-! ### Grantable requests (R117, R118) -/

theorem receive_iff {r : Req} : r.receive = true ↔ r.kind = .push ∨ (r.kind = .fill ∧ r.cls = .play) := by
  unfold Req.receive
  cases r.kind <;> cases r.cls <;> simp

theorem blockedBy_eq_false {waiting : List Req} {r : Req} : r.blockedBy waiting = false ↔
    ∀ q ∈ waiting, q.tag = r.tag → q.receive = true → r.unit ≤ q.unit := by
  unfold Req.blockedBy
  simp

theorem framesFree_one {s : State} : 1 ≤ s.framesFree ↔ s.buffer.frames.length < 60 := by
  show 1 ≤ 60 - s.buffer.frames.length ↔ _
  omega

theorem framesFree_two {s : State} : 2 ≤ s.framesFree ↔ s.buffer.frames.length ≤ 58 := by
  show 2 ≤ 60 - s.buffer.frames.length ↔ _
  omega

theorem grantable_receive {r : Req} {s : State} (h : r.receive = true) : grantable r s = true ↔
    s.framesHeld r.tag < 8 ∧ s.buffer.frames.length < 60 ∧
      ∀ q ∈ s.buffer.requests, q.tag = r.tag → q.receive = true → r.unit ≤ q.unit := by
  unfold grantable
  rw [if_pos h, Bool.and_eq_true, Bool.and_eq_true, decide_eq_true_eq, decide_eq_true_eq, Bool.not_eq_true',
    blockedBy_eq_false, framesFree_one]
  rfl

theorem grantable_bulk {r : Req} {s : State} (h : r.receive = false) (hb : r.cls = .bulk) : grantable r s = true ↔
    s.framesHeld r.tag < 8 ∧ s.buffer.frames.length ≤ 58 ∧ s.buffer.frames.length < 15 * (s.buffer.ceiling + 1) := by
  unfold grantable
  rw [if_neg (by rw [h]; exact Bool.false_ne_true), if_pos hb, Bool.and_eq_true, Bool.and_eq_true, decide_eq_true_eq,
    decide_eq_true_eq, decide_eq_true_eq, framesFree_two]
  rfl

theorem grantable_other {r : Req} {s : State} (h : r.receive = false) (hb : r.cls ≠ .bulk) : grantable r s = true ↔
    s.framesHeld r.tag < 8 ∧ s.buffer.frames.length ≤ 58 := by
  unfold grantable
  rw [if_neg (by rw [h]; exact Bool.false_ne_true), if_neg hb, Bool.and_eq_true, decide_eq_true_eq, decide_eq_true_eq,
    framesFree_two]
  rfl

/-- A grantable request finds a free frame. -/
theorem frames_of_grantable {r : Req} {s : State} (h : grantable r s = true) : s.buffer.frames.length < 60 := by
  cases hr : r.receive with
  | true => exact ((grantable_receive hr).mp h).2.1
  | false =>
    by_cases hb : r.cls = .bulk
    · exact ((grantable_bulk hr hb).mp h).2.1.trans_lt (by decide)
    · exact ((grantable_other hr hb).mp h).2.trans_lt (by decide)

theorem grantable_iff (r : Req) (s : State) : grantable r s = true ↔
    s.framesHeld r.tag < 8 ∧
    (r.kind = .push ∨ (r.kind = .fill ∧ r.cls = .play) →
      s.buffer.frames.length < 60 ∧ ∀ q ∈ s.buffer.requests, q.tag = r.tag →
        (q.kind = .push ∨ (q.kind = .fill ∧ q.cls = .play)) → r.unit ≤ q.unit) ∧
    (r.kind ≠ .push → r.cls = .bulk →
      s.buffer.frames.length ≤ 58 ∧ s.buffer.frames.length < 15 * (s.buffer.ceiling + 1)) ∧
    (r.kind ≠ .push → r.cls ≠ .bulk → ¬ (r.kind = .fill ∧ r.cls = .play) → s.buffer.frames.length ≤ 58) := by
  simp only [← receive_iff]
  cases hr : r.receive with
  | true =>
    rw [grantable_receive hr]
    have hplay : r.kind ≠ .push → r.kind = .fill ∧ r.cls = .play := (receive_iff.mp hr).resolve_left
    have hbulk : r.kind ≠ .push → r.cls ≠ .bulk := fun hk hb => nomatch (hplay hk).2.symm.trans hb
    exact ⟨fun ⟨h8, h⟩ => ⟨h8, fun _ => h, fun hk hb => absurd hb (hbulk hk), fun hk _ hn => absurd (hplay hk) hn⟩,
      fun ⟨h8, h, _⟩ => ⟨h8, h rfl⟩⟩
  | false =>
    obtain ⟨hpush, hplay⟩ := not_or.mp fun h => Bool.false_ne_true (hr.symm.trans (receive_iff.mpr h))
    by_cases hb : r.cls = .bulk
    · rw [grantable_bulk hr hb]
      exact ⟨fun ⟨h8, h⟩ => ⟨h8, nofun, fun _ _ => h, fun _ hn => absurd hb hn⟩, fun ⟨h8, _, h, _⟩ => ⟨h8, h hpush hb⟩⟩
    · rw [grantable_other hr hb]
      exact ⟨fun ⟨h8, h⟩ => ⟨h8, nofun, fun _ hn => absurd hn hb, fun _ _ _ => h⟩,
        fun ⟨h8, _, _, h⟩ => ⟨h8, h hpush hb hplay⟩⟩

/-! ### What a grant takes (R118) -/

theorem grantedFrame_takes (r : Req) (c : Cmd) (n : Nat) (s : State) : (grantedFrame r c n s).num = n ∧
    (grantedFrame r c n s).holder = r.tag ∧ (grantedFrame r c n s).unit = r.unit ∧ (grantedFrame r c n s).cls = r.cls := by
  unfold grantedFrame
  split <;> exact ⟨rfl, rfl, rfl, rfl⟩

theorem grant_frames {r : Req} {s : State} {c : Cmd} {n : Nat} (hc : s.cmd? r.tag = some c) (hn : s.lowestFree = some n) :
    (grant r s).buffer.frames = insertFrame (grantedFrame r c n s) s.buffer.frames := by
  unfold grant
  rw [hc, hn]
  dsimp only
  split
  · rw [startDriveXfer_rest]; rfl
  · rfl
  · rfl

/-- Every shared frame below the lowest-numbered free one is in use. -/
theorem lowestFree_least {s : State} {n m : Nat} (h : s.lowestFree = some n) (h4 : 4 ≤ m) (hm : m < n) :
    ∃ f ∈ s.buffer.frames, f.num = m := by
  obtain ⟨_, before, after, happ, hbefore⟩ := List.find?_eq_some_iff_append.mp h
  have hmem : m ∈ before := by
    have hin : m ∈ before ++ n :: after := happ ▸ List.mem_range'_1.mpr ⟨h4, by have := (lowestFree_spec h).1.2; omega⟩
    have hsorted : (before ++ n :: after).Pairwise (· < ·) := happ ▸ List.pairwise_lt_range' (s := 4) (n := 60)
    rcases List.mem_append.mp hin with hin | hin
    · exact hin
    · rcases List.mem_cons.mp hin with e | hin
      · omega
      · have := (List.pairwise_cons.mp (List.pairwise_append.mp hsorted).2.1).1 m hin
        omega
  simpa using hbefore m hmem

/-- A grant to a command at work takes one more frame. -/
theorem length_grant {r : Req} {s : State} (hc : (s.cmd? r.tag).isSome = true) (hf : s.buffer.frames.length < 60) :
    (grant r s).buffer.frames.length = s.buffer.frames.length + 1 := by
  obtain ⟨c, hc⟩ := Option.isSome_iff_exists.mp hc
  obtain ⟨n, hn⟩ := exists_lowestFree hf
  rw [grant_frames hc hn, (insertFrame_perm _ _).length_eq, List.length_cons]

theorem length_le_followUp : ∀ (fuel : Nat) (t : HostTag) (s : State),
    s.buffer.frames.length ≤ (followUp fuel t s).buffer.frames.length
  | 0, _, _ => le_rfl
  | fuel + 1, t, s => by
    unfold followUp
    split
    · exact le_rfl
    · rename_i c hc
      split
      · exact le_rfl
      · refine le_trans ?_ (length_le_followUp fuel t _)
        exact (List.length_map _).ge
      · rename_i r hw
        split
        · rename_i hg
          have hat : (s.cmd? r.tag).isSome = true := by rw [wanted_tag hw, (cmd?_mem hc).2, hc]; rfl
          refine le_trans ?_ (length_le_followUp fuel t _)
          rw [length_grant hat (frames_of_grantable hg)]
          exact Nat.le_succ _
        · exact le_rfl

/-! ### The order of an arbitration (R123) -/

/-- The tier of a waiting request, the first of them 0. -/
def Req.tier (q : Req) : Nat :=
  if q.kind = .push then 0 else if q.kind = .fill ∧ q.cls = .play then 1
  else if q.cls = .bulk ∧ 16 ≤ q.bypass then 2 else if q.cls = .record then 3 else 4

theorem push_iff_tier (q : Req) : decide (q.kind = .push) = true ↔ q.tier = 0 := by
  unfold Req.tier
  split_ifs <;> simp_all

theorem receive_iff_tier {q : Req} (h : 1 ≤ q.tier) : q.receive = true ↔ q.tier = 1 := by
  rw [receive_iff]
  unfold Req.tier at *
  split_ifs at * <;> simp_all

theorem passed_iff_tier {q : Req} (h : 2 ≤ q.tier) :
    (decide (q.cls = .bulk) && decide (16 ≤ q.bypass)) = true ↔ q.tier = 2 := by
  unfold Req.tier at *
  split_ifs at * <;> simp_all

theorem record_iff_tier {q : Req} (h : 3 ≤ q.tier) : decide (q.cls = .record) = true ↔ q.tier = 3 := by
  unfold Req.tier at *
  split_ifs at * <;> simp_all

theorem tier_le_four (q : Req) : q.tier ≤ 4 := by
  unfold Req.tier
  split_ifs <;> decide

theorem pickRequest_none {gs : List Req} (h : pickRequest gs = none) : gs = [] := by
  unfold pickRequest at h
  repeat' split at h
  all_goals first
    | contradiction
    | exact List.head?_eq_none_iff.mp h

section pick

variable {r : Req} {before after : List Req}

/-- The first request of tier k, where r is the oldest request of the first tier that has one and the tiers before k are
empty. -/
theorem find?_tier (hb : ∀ q ∈ before, r.tier < q.tier) (ha : ∀ q ∈ after, r.tier ≤ q.tier) {p : Req → Bool} {k : Nat}
    (hp : ∀ {q : Req}, k ≤ q.tier → (p q = true ↔ q.tier = k)) (hk : k ≤ r.tier) :
    (before ++ r :: after).find? p = if r.tier = k then some r else none := by
  split
  · rename_i h
    refine List.find?_eq_some_iff_append.mpr ⟨(hp hk).mpr h, before, after, rfl, fun q hq => ?_⟩
    have := hb q hq
    rw [Bool.not_eq_true', Bool.eq_false_iff, ne_eq, hp (by omega)]
    omega
  · refine List.find?_eq_none.mpr fun q hq => ?_
    have hle : r.tier ≤ q.tier := (List.mem_append.mp hq).elim (fun hq => (hb q hq).le) fun hq =>
      (List.mem_cons.mp hq).elim (fun e => e ▸ le_rfl) (ha q)
    rw [hp (by omega)]
    omega

/-- The arbiter takes the oldest request of the first tier that has one (R123). -/
theorem pickRequest_first (hb : ∀ q ∈ before, r.tier < q.tier) (ha : ∀ q ∈ after, r.tier ≤ q.tier) :
    pickRequest (before ++ r :: after) = some r := by
  have hfind := fun {p : Req → Bool} {k : Nat} => find?_tier hb ha (p := p) (k := k)
  unfold pickRequest
  rw [hfind (k := 0) (fun _ => push_iff_tier _) (Nat.zero_le _)]
  by_cases h0 : r.tier = 0
  · rw [if_pos h0]
  rw [if_neg h0, hfind (k := 1) receive_iff_tier (by omega)]
  by_cases h1 : r.tier = 1
  · rw [if_pos h1]
  rw [if_neg h1, hfind (k := 2) passed_iff_tier (by omega)]
  by_cases h2 : r.tier = 2
  · rw [if_pos h2]
  rw [if_neg h2, hfind (k := 3) record_iff_tier (by omega)]
  by_cases h3 : r.tier = 3
  · rw [if_pos h3]
  obtain rfl : before = [] := List.eq_nil_iff_forall_not_mem.mpr fun q hq => by
    have := hb q hq
    have := tier_le_four q
    omega
  rw [if_neg h3]
  rfl

end pick

/-! ### One grant after another (R123, R124) -/

/-- The state in which the waiting request r has been granted, and the requests that follow it made. -/
def State.afterGrant (s : State) (r : Req) : State :=
  makeRequests r.tag (grant r (s.setRequests ((s.buffer.requests.erase r).map (passOver s.grantables r))))

theorem arbitrateN_succ {s : State} {r : Req} (n : Nat) (h : pickRequest s.grantables = some r) :
    arbitrateN (n + 1) s = arbitrateN n (s.afterGrant r) := by
  conv_lhs => unfold arbitrateN
  rw [h]
  rfl

theorem arbitrateN_none {s : State} (n : Nat) (h : s.grantables = []) : arbitrateN n s = s := by
  cases n with
  | zero => rfl
  | succ n =>
    unfold arbitrateN
    rw [h]
    rfl

theorem grantables_eq_nil {s : State} : s.grantables = [] ↔ ∀ q ∈ s.buffer.requests, grantable q s = false := by
  unfold State.grantables
  rw [List.filter_eq_nil_iff]
  simp

/-- Every command whose request waits is at work. -/
def State.asked (s : State) : Prop := ∀ q ∈ s.buffer.requests, (s.cmd? q.tag).isSome = true

theorem Fades.asked {s u : State} (h : Fades [] s u) (hs : s.asked) : u.asked := fun q hq => by
  have hat : (s.cmd? q.tag).isSome = true := (h.requests q hq).elim (fun ⟨p, hp, e, _⟩ => e ▸ hs p hp) And.left
  obtain ⟨c, hc⟩ := Option.isSome_iff_exists.mp hat
  obtain ⟨d, hd, _⟩ := h.kept List.not_mem_nil hc
  rw [hd]
  rfl

/-- An arbitration ends with no waiting request grantable, for each grant takes one of the 60 frames. -/
theorem grantables_arbitrateN : ∀ (n : Nat) (s : State), s.asked → 60 ≤ s.buffer.frames.length + n →
    (arbitrateN n s).grantables = []
  | 0, s, _, hn => grantables_eq_nil.mpr fun q _ => Bool.eq_false_iff.mpr fun h => by
      exact absurd (frames_of_grantable (s := s) h) (Nat.not_lt.mpr hn)
  | n + 1, s, hs, hn => by
    cases hp : pickRequest s.grantables with
    | none =>
      have hnil := pickRequest_none hp
      rw [arbitrateN_none _ hnil, hnil]
    | some r =>
      obtain ⟨hr, hg⟩ := List.mem_filter.mp (pickRequest_mem hp)
      have hfades : Fades [] s (s.afterGrant r) := by
        rw [show s.afterGrant r = arbitrateN 1 s from (arbitrateN_succ 0 hp).symm]
        exact fades_arbitrateN 1 s
      set v := s.setRequests ((s.buffer.requests.erase r).map (passOver s.grantables r))
      have hone : (grant r v).buffer.frames.length = s.buffer.frames.length + 1 :=
        length_grant (s := v) (hs r hr) (frames_of_grantable (s := s) hg)
      have hlen : s.buffer.frames.length + 1 ≤ (s.afterGrant r).buffer.frames.length :=
        hone.ge.trans (length_le_followUp 16 r.tag (grant r v))
      rw [arbitrateN_succ n hp]
      exact grantables_arbitrateN n _ (hfades.asked hs) (by omega)

theorem mem_grantables {s : State} {q : Req} : q ∈ s.grantables ↔ q ∈ s.buffer.requests ∧ grantable q s = true :=
  List.mem_filter

/-- A request passed over by a grant to r (R124). -/
theorem passOver_spec {s : State} {q : Req} (r : Req) (hq : q ∈ s.buffer.requests) :
    (¬ (r.kind = .push ∨ (r.kind = .fill ∧ r.cls = .play)) ∧ q.cls = .bulk ∧ q.kind ≠ .push ∧ grantable q s = true →
      passOver s.grantables r q = { q with bypass := min 16 (q.bypass + 1) }) ∧
    ((r.kind = .push ∨ (r.kind = .fill ∧ r.cls = .play)) ∨ q.cls ≠ .bulk ∨ q.kind = .push ∨ grantable q s = false →
      passOver s.grantables r q = q) := by
  rw [← receive_iff]
  refine ⟨fun ⟨h1, h2, h3, h4⟩ => if_pos ⟨h1, h2, h3, mem_grantables.mpr ⟨hq, h4⟩⟩, fun h => if_neg ?_⟩
  rintro ⟨h1, h2, h3, h4⟩
  rcases h with h | h | h | h
  · exact h1 h
  · exact h h2
  · exact h3 h
  · exact Bool.false_ne_true (h.symm.trans (mem_grantables.mp h4).2)

/-- Settles O35: what is grantable, what a grant takes, and how an arbitration goes on and ends. -/
theorem framesGranted : Obligations.FramesGranted := by
  refine ⟨grantable_iff, fun r c s hc hf => ?_, fun n s h => freeFrame_idle h, fun _ _ => rfl,
    fun s h => arbitrateN_none 61 (grantables_eq_nil.mpr h), fun s hs => ?_, fun s n r before after hg hb ha => ?_⟩
  · obtain ⟨n, hn⟩ := exists_lowestFree hf
    obtain ⟨⟨h4, h63⟩, hfree⟩ := lowestFree_spec hn
    exact ⟨n, h4, h63, hfree, fun m => lowestFree_least hn, grantedFrame r c n s,
      grant_frames hc hn ▸ mem_insertFrame.mpr (.inl rfl), grantedFrame_takes r c n s⟩
  · exact grantables_eq_nil.mp (grantables_arbitrateN 61 s hs (by omega))
  · have hpick : pickRequest s.grantables = some r := by
      unfold State.grantables
      rw [hg]
      exact pickRequest_first hb ha
    have hr : r ∈ s.buffer.requests := (mem_grantables.mp (pickRequest_mem hpick)).1
    refine ⟨_, arbitrateN_succ n hpick, ?_, fun k q hq => ⟨passOver s.grantables r q, ?_, ?_⟩⟩
    · rw [List.length_map, List.length_erase_add_one hr]
    · rw [List.getElem?_map, hq]; rfl
    · exact passOver_spec r (List.mem_of_mem_erase (List.mem_of_getElem? hq))

end Sys2Proof.Machine
end

section
/-!
O36. Units start on the drive link (R83, R84, R118, R119, R125): into the frame of a PUSH, or from the frame of a pull.
-/

namespace Sys2Proof.Machine

/-! ### A unit ready for the drive (R83, R125) -/

theorem takingInto_iff {s : State} {n : Nat} : s.takingInto n = true ↔
    ∃ x, s.host.xfer = some x ∧ x.frame = n ∧ x.send = false ∧ x.done = false := by
  unfold State.takingInto
  cases s.host.xfer <;> simp [and_assoc]

theorem readyForDrive_iff (f : Frame) (c : Cmd) (s : State) : f.readyForDrive c s = true ↔
    f.dir = .toDrive ∧ (f.cond = .ready ∨ (f.cond = .passing ∧ f.fromHost = true ∧ (c.need f.unit ≤ f.present ∨
      ∃ x, s.host.xfer = some x ∧ x.frame = f.num ∧ x.send = false ∧ x.done = false))) := by
  unfold Frame.readyForDrive Frame.arrived
  simp only [Bool.and_eq_true, Bool.or_eq_true, decide_eq_true_eq, takingInto_iff]
  tauto

/-- The unit that a drive command pulls next is given from its frame, if that is ready. -/
theorem pullFrame_ready {s : State} {t : HostTag} {c : Cmd} {d : DriveCmd} {f : Frame} (ht : c.tag = t)
    (hf : s.frameOf t (unitOf d.next) = some f) (h : f.readyForDrive c s = true) : s.pullFrame c d = some f := by
  unfold State.pullFrame
  rw [ht, hf]
  exact if_pos h

theorem pullFrame_none {s : State} {t : HostTag} {c : Cmd} {d : DriveCmd} (ht : c.tag = t)
    (h : ∀ f, s.frameOf t (unitOf d.next) = some f → f.readyForDrive c s = false) : s.pullFrame c d = none := by
  unfold State.pullFrame
  rw [ht]
  cases hf : s.frameOf t (unitOf d.next) with
  | none => rfl
  | some f => exact if_neg (by rw [h f hf]; exact Bool.false_ne_true)

/-! ### The grant of a PUSH (R118, R119) -/

/-- The transfer of a command's next unit on the drive link (R119). -/
def DriveCmd.unitXfer (d : DriveCmd) (push : Bool) (t : HostTag) (n : Nat) : DriveXfer :=
  { push := push, tag := t, frame := n, lba := d.next, count := d.nextCount }

/-- Without a hold of the link the transfer is all that changes. -/
theorem startDriveXfer_of {s : State} {t : HostTag} {d : DriveCmd} (push : Bool) (n : Nat) (hd : s.driveCmdOf t = some d)
    (hh : s.drive.hold = none) :
    startDriveXfer push t n s = { s with drive := { s.drive with xfer := some (d.unitXfer push t n) } } := by
  unfold startDriveXfer
  rw [hd]
  dsimp only
  rw [← hh]
  rfl

theorem grant_push {r : Req} {s : State} {c : Cmd} {n : Nat} (hk : r.kind = .push) (hc : s.cmd? r.tag = some c)
    (hn : s.lowestFree = some n) :
    grant r s = startDriveXfer true r.tag n (s.holdFrame (grantedFrame r c n s)).tickStamp := by
  unfold grant
  rw [hc, hn, hk]

/-! ### The drive link is free for a unit (R119) -/

/-- The drive can move the next unit of its command d for the host command c of tag t. -/
structure State.MovesUnit (s : State) (t : HostTag) (c : Cmd) (d : DriveCmd) : Prop where
  free : s.linkFree = true
  cmd : s.cmd? t = some c
  driveCmd : s.driveCmdOf t = some d
  left : d.moved < d.count

theorem linkFree_of {s : State} (hl : s.drive.link = .up) (he : s.drive.errorRead = false) (hh : s.drive.hold = none)
    (hx : s.drive.xfer = none) : s.linkFree = true := by
  unfold State.linkFree
  rw [driveWorks_of hl he, hh, hx]
  rfl

section moves

variable {s : State} {t : HostTag} {c : Cmd} {d : DriveCmd}

theorem pushUnit_of (h : s.MovesUnit t c d) (hp : pushes d c = true) : pushUnit t s =
    (s.frameOf t (unitOf d.next)).elim
      (requestPush { kind := .push, cls := c.classOf (unitOf d.next), tag := t, unit := unitOf d.next } s)
      fun f => startDriveXfer true t f.num s := by
  unfold pushUnit
  rw [h.cmd, h.driveCmd]
  dsimp only
  rw [if_pos ⟨h.free, hp, h.left⟩]
  cases s.frameOf t (unitOf d.next) <;> rfl

theorem pullUnit_of (h : s.MovesUnit t c d) (hp : pulls d c = true) : pullUnit t s =
    (s.pullFrame c d).elim { s with drive := { s.drive with hold := some (.pull t) } }
      fun f => startDriveXfer false t f.num s := by
  unfold pullUnit
  rw [h.cmd, h.driveCmd]
  dsimp only
  rw [if_pos ⟨h.free, hp, h.left⟩]
  cases s.pullFrame c d <;> rfl

end moves

/-- A PUSH that is granted at once: its frame is new, and its transfer starts in it. -/
theorem grant_starts {r : Req} {s : State} {c : Cmd} {d : DriveCmd} (hk : r.kind = .push) (hc : s.cmd? r.tag = some c)
    (hd : s.driveCmdOf r.tag = some d) (hh : s.drive.hold = none) (hg : grantable r s = true) :
    ∃ f ∈ (grant r s).buffer.frames, (∀ g ∈ s.buffer.frames, g.num ≠ f.num) ∧ f.holder = r.tag ∧ f.unit = r.unit ∧
      f.cls = r.cls ∧ f.cond = (if r.cls = .bulk then .passing else .filling) ∧
      (grant r s).drive = { s.drive with xfer := some (d.unitXfer true r.tag f.num) } ∧ (grant r s).table = s.table := by
  obtain ⟨n, hn⟩ := exists_lowestFree (frames_of_grantable hg)
  obtain ⟨hnum, hholder, hunit, hcls⟩ := grantedFrame_takes r c n s
  have hcond : (grantedFrame r c n s).cond = if r.cls = .bulk then .passing else .filling := by
    unfold grantedFrame
    rw [hk]
  have heq := (grant_push hk hc hn).trans
    (startDriveXfer_of (s := (s.holdFrame (grantedFrame r c n s)).tickStamp) true n hd hh)
  refine ⟨_, grant_frames hc hn ▸ mem_insertFrame.mpr (.inl rfl), ?_, hholder, hunit, hcls, hcond, ?_, ?_⟩
  · rw [hnum]
    exact (lowestFree_spec hn).2
  · rw [hnum, heq]
    rfl
  · rw [heq]
    rfl

/-- Settles O36: what counts as ready, and how pushes and pulls start, stall or hold. -/
theorem driveTransfersStart : Obligations.DriveTransfersStart := by
  refine ⟨readyForDrive_iff, fun s t c d hr hl he hh hx hc hd hp hleft => ?_,
    fun s t c d hr hl he hh hx hc hd hp hleft => ?_⟩
  · have hmoves : s.quiet.MovesUnit t c d := ⟨linkFree_of (s := s.quiet) hl he hh hx, hc, hd, hleft⟩
    have hexec : exec (.drivePushUnit t) s = .next (pump (pushUnit t s.quiet)) :=
      act_running s (fun s => pump (pushUnit t s)) hr
    rw [hexec, pushUnit_of hmoves hp]
    refine ⟨fun f hf => ?_, fun hf hg => ?_, fun hf hg => ?_⟩
    · rw [show s.quiet.frameOf t (unitOf d.next) = some f from hf]
      exact congrArg (fun u => Host.Outcome.next (pump u)) (startDriveXfer_of (s := s.quiet) true f.num hd hh)
    · obtain ⟨f, h1, h2, h3, h4, h5, h6, h7, h8⟩ := grant_starts (s := s.quiet)
        (r := { kind := .push, cls := c.classOf (unitOf d.next), tag := t, unit := unitOf d.next }) rfl hc hd hh hg
      rw [show s.quiet.frameOf t (unitOf d.next) = none from hf]
      exact ⟨_, f, congrArg (fun u => Host.Outcome.next (pump u)) (if_pos hg), h1, h2, h3, h4, h5, h6, h7, h8⟩
    · rw [show s.quiet.frameOf t (unitOf d.next) = none from hf]
      exact congrArg (fun u => Host.Outcome.next (pump u)) (if_neg (Bool.eq_false_iff.mp hg))
  · have hmoves : s.quiet.MovesUnit t c d := ⟨linkFree_of (s := s.quiet) hl he hh hx, hc, hd, hleft⟩
    have hexec : exec (.drivePullUnit t) s = .next (pullUnit t s.quiet) := act_running s _ hr
    rw [hexec, pullUnit_of hmoves hp]
    refine ⟨fun f hf hready => ?_, fun hnone => ?_⟩
    · rw [pullFrame_ready (s := s.quiet) (cmd?_mem hc).2 hf hready]
      exact congrArg Host.Outcome.next (startDriveXfer_of (s := s.quiet) false f.num hd hh)
    · rw [pullFrame_none (s := s.quiet) (cmd?_mem hc).2 hnone]
      rfl

end Sys2Proof.Machine
end

section
/-!
O43. HOST_TRANSFER_END while a WINDOW_READ is on the host link (R82, R127): its transfer has not finished, but the step
produces sectors of it as every step does.
-/

namespace Sys2Proof.Machine

/-! ### A step while a WINDOW_READ is on the link (R82) -/

/-- The transfer of the WINDOW_READ that the host link is serving goes on. -/
theorem serving_goesOn {s : State} {x : HostXfer} {c : Cmd} {f : Frame} (h : s.serving = some (x, c, f)) :
    s.host.xfer = some x ∧ x.done = false := by
  unfold State.serving at h
  split at h
  · rename_i y hy
    split at h
    · split at h
      · rename_i hgoes
        obtain ⟨_, _, _, hdone⟩ := hgoes
        obtain rfl : y = x := congrArg Prod.fst (Option.some.inj h)
        exact ⟨hy, hdone⟩
      · cases h
    · cases h
  · cases h

theorem produceSectors_serving {s : State} {x : HostXfer} {c : Cmd} {f : Frame} (n : Nat)
    (h : s.serving = some (x, c, f)) :
    (∃ k, (produceSectors n s).host.xfer = some { x with made := x.made + k }) ∧
      (produceSectors n s).freeReads = s.freeReads + 1 := by
  unfold produceSectors
  rw [h]
  exact ⟨⟨_, rfl⟩, rfl⟩

/-- No completion goes and no transfer starts while a transfer is in progress (R127). -/
theorem startNext_sendAll_busy {s : State} {x : HostXfer} (hx : s.host.xfer = some x) (hd : x.done = false) :
    startNext (sendAll s) = s := by
  have hbetween : s.host.between = false := by
    unfold HostPort.between
    rw [hx]
    exact hd
  have hsend : sendAll s = s := if_neg fun ⟨_, h⟩ => Bool.false_ne_true (hbetween.symm.trans h)
  rw [hsend]
  exact if_neg fun ⟨_, h, _⟩ => nomatch hx.symm.trans h

/-- The host port does nothing but go on with the WINDOW_READ. -/
theorem pump_serving {s : State} {x : HostXfer} {c : Cmd} {f : Frame} (h : s.serving = some (x, c, f)) :
    pump s = serveOn s := by
  obtain ⟨⟨k, hk⟩, _⟩ := produceSectors_serving (Config.sectorsGone s.freeReads) h
  exact startNext_sendAll_busy (s := serveOn s) hk (serving_goesOn h).2

/-- HOST_TRANSFER_END reads the free number of sectors that have gone, and produces those. -/
theorem hostTransferEnd_serving {s : State} {x : HostXfer} {c : Cmd} {f : Frame} (hr : s.inReset = false)
    (h : s.serving = some (x, c, f)) :
    exec .hostTransferEnd s = .next (serveOn s.quiet) ∧ (serveOn s.quiet).freeReads = s.freeReads + 1 := by
  have hq : s.quiet.serving = some (x, c, f) := h
  obtain ⟨hx, hd⟩ := serving_goesOn hq
  have hends : transferEnds s.quiet = s.quiet := by
    unfold transferEnds
    rw [hx]
    exact if_neg (by rw [hd]; exact Bool.false_ne_true)
  have hexec : exec .hostTransferEnd s = .next (pump (transferEnds s.quiet)) :=
    act_running s (fun s => pump (transferEnds s)) hr
  rw [hexec, hends, pump_serving hq]
  exact ⟨rfl, (produceSectors_serving _ hq).2⟩

/-! ### The part with a WINDOW_READ on the link -/

/-- A WINDOW_READ of the first unit of the control window of a drive of 2,097,152 sectors. -/
def firstUnitRead : Cmd := { tag := .queued 9, kind := .windowRead, lba := 2088944, count := 8, received := 1 }

/-- Its unit's frame. -/
def firstUnitFrame : Frame :=
  { num := 4, holder := .queued 9, unit := 261118, dir := .toHost, cls := .bulk, cond := .ready, present := 8,
    data := UnitData.zero }

/-- Its transfer, of which the first sector has been produced. -/
def firstUnitXfer : HostXfer := { frame := 4, tag := .queued 9, send := true, made := 1 }

/-- The part in READY with both links up and that unit on the host link. -/
def windowOnLink : State :=
  { inReset := false, phase := .ready, identity := some { capacity := 2097152, queued := true, depth := 32, sector := 0#4096 }
    host := { up := true, xfer := some firstUnitXfer }, table := [firstUnitRead], buffer := { frames := [firstUnitFrame] }
    drive := { link := .up }, cat := { header := .valid 7 }, stamp := 1, freeReads := 1 }

theorem serving_windowOnLink : windowOnLink.serving = some (firstUnitXfer, firstUnitRead, firstUnitFrame) := rfl

/-- Refutes O43 in its clause on HOST_TRANSFER_END without a finished transfer: with a WINDOW_READ on the host link the step
reads a free number and produces sectors (R82), which the clause on a WINDOW_READ in transfer says too, so that it does not
leave the part as it was. -/
theorem not_hostPortWorks : ¬ Obligations.HostPortWorks := by
  rintro ⟨_, _, _, _, _, _, _, _, _, hunfinished, _⟩
  obtain ⟨hexec, hreads⟩ := hostTransferEnd_serving (s := windowOnLink) rfl serving_windowOnLink
  have hsame := hexec.symm.trans (hunfinished windowOnLink firstUnitXfer rfl rfl rfl)
  rw [Host.Outcome.next.inj hsame] at hreads
  exact absurd hreads (by decide)

end Sys2Proof.Machine
end

section
/-!
O58. SET_POLICY (R122, R180, R203): the encodings of its fields, the settings that it replaces, and its answers.
-/

namespace Sys2Proof.Machine

/-! ### A record with a field outside its encoding (R195) -/

/-- Check 6 as the first test of a command that has passed checks 4 and 5. -/
theorem checkRecord_fields (row : ControlRow) (ok : Sector → State → Bool) (body : Sector → State → State) :
    checkRecord row ok body = checkRecord row noFields fun r s =>
      if ok r s = false then finishControl .badParam .none s else body r s := by
  funext r s
  unfold checkRecord noFields
  rw [if_neg (c := true = false) (by decide)]

/-- A record that fails check 6 is answered BAD_PARAM. -/
theorem act_runControl_badParam {row : ControlRow} {ok : Sector → State → Bool} {body : Sector → State → State} {s : State}
    {tag : Option HostTag} {r : Sector} (h : s.Passes row tag r) (hok : ok r (s.base row) = false) :
    act s (runControl row ok body) = .next (pump (finishControl .badParam .none (s.base row))) := by
  have heq : runControl row ok body = runControl row noFields fun r s =>
      if ok r s = false then finishControl .badParam .none s else body r s := by
    unfold runControl
    rw [checkRecord_fields]
  rw [heq, act_runControl h rfl, if_pos hok]

/-! ### The encodings of section 11.9 -/

theorem settingOfNat_isSome (now : Setting) (n : Nat) :
    (settingOfNat now n).isSome = true ↔ n = 0 ∨ n = 1 ∨ n = 255 := by
  unfold settingOfNat
  split <;> simp_all

theorem settingOfNat_getD (now : Setting) (n : Nat) :
    (settingOfNat now n).getD now = if n = 0 then .pass else if n = 1 then .refuse else now := by
  unfold settingOfNat
  split <;> simp_all

theorem ceilingOfNat_isSome (now n : Nat) : (ceilingOfNat now n).isSome = true ↔ n ≤ 3 ∨ n = 255 := by
  unfold ceilingOfNat
  split_ifs <;> simp_all

theorem ceilingOfNat_getD (now n : Nat) : (ceilingOfNat now n).getD now = if n ≤ 3 then n else now := by
  unfold ceilingOfNat
  split_ifs <;> rfl

theorem reactionOfNat_isSome (now : Reaction) (n : Nat) : (reactionOfNat now n).isSome = true ↔ n ≤ 3 ∨ n = 255 := by
  unfold reactionOfNat
  split <;> simp_all
  omega

theorem reactionOfNat_getD (now : Reaction) (n : Nat) : (reactionOfNat now n).getD now =
    if n = 0 then .count else if n = 1 then .halt else if n = 2 then .alarm else if n = 3 then .fault else now := by
  unfold reactionOfNat
  split <;> simp_all

/-- The fields of a record that hold values of their encodings, one by one. -/
theorem policyFields_iff (r : Sector) (s : State) : policyFields r s = true ↔
    (∀ o ∈ [16, 17, 18], Sector.field r o 1 = 0 ∨ Sector.field r o 1 = 1 ∨ Sector.field r o 1 = 255) ∧
    (Sector.field r 19 1 ≤ 3 ∨ Sector.field r 19 1 = 255) ∧
    ∀ k : Fin 10, Sector.field r (20 + k.val) 1 ≤ 3 ∨ Sector.field r (20 + k.val) 1 = 255 := by
  unfold policyFields recReaction
  simp only [Bool.and_eq_true, settingOfNat_isSome, ceilingOfNat_isSome, List.all_eq_true, reactionOfNat_isSome,
    List.mem_finRange, true_implies, List.forall_mem_cons, List.not_mem_nil, false_implies, implies_true, and_true,
    and_assoc]

/-! ### The settings replaced (R122, R180, R203) -/

/-- The ceiling that a record sets (R122). -/
def State.ceilingSet (s : State) (r : Sector) : Nat :=
  (ceilingOfNat s.buffer.ceiling (Sector.field r 19 1)).getD s.buffer.ceiling

/-- The state in which the settings of a record have replaced those of s, before any arbitration. -/
def State.policySet (s : State) (r : Sector) : State :=
  { s with
    buffer := { s.buffer with ceiling := s.ceilingSet r }
    win := { s.win with
      readPolicy := (settingOfNat s.win.readPolicy (Sector.field r 16 1)).getD s.win.readPolicy
      writePolicy := (settingOfNat s.win.writePolicy (Sector.field r 17 1)).getD s.win.writePolicy
      deallocatePolicy := (settingOfNat s.win.deallocatePolicy (Sector.field r 18 1)).getD s.win.deallocatePolicy }
    mon := { s.mon with
      reactions := Vector.ofFn fun k => (recReaction r s.mon k).getD s.mon.reactions[k]
      window := windowOfNat s.mon.window (Sector.field r 32 4) } }

/-- The state that SET_POLICY answers in: a raised ceiling has started an arbitration (R122). -/
def State.policyTaken (s : State) (r : Sector) : State :=
  if s.buffer.ceiling < s.ceilingSet r then arbitrate (s.policySet r) else s.policySet r

theorem policyBody_eq (r : Sector) (s : State) :
    policyBody r s = finishControl .ok (.window (windowOfNat s.mon.window (Sector.field r 32 4))) (s.policyTaken r) := rfl

theorem arbitrates_policyTaken (s : State) (r : Sector) : Arbitrates (s.policySet r) (s.policyTaken r) := by
  unfold State.policyTaken
  split
  · exact arbitrates_arbitrateN 61 _
  · exact .refl _

theorem ceiling_policyTaken (s : State) (r : Sector) : (s.policyTaken r).buffer.ceiling = s.ceilingSet r := by
  unfold State.policyTaken
  split
  · exact (traffic_arbitrate (s.policySet r)).keeps.ceiling
  · rfl

theorem Arbitrates.mon {s u : State} (h : Arbitrates s u) : u.mon = s.mon := by rw [h]
theorem Arbitrates.slots {s u : State} (h : Arbitrates s u) : u.slots = s.slots := by rw [h]
theorem Arbitrates.map {s u : State} (h : Arbitrates s u) : u.map = s.map := by rw [h]
theorem Arbitrates.clock {s u : State} (h : Arbitrates s u) : u.clock = s.clock := by rw [h]

/-- Settles O58: BAD_PARAM for a field outside its encoding, and the settings replaced otherwise. -/
theorem policySet : Obligations.PolicySet := by
  intro s tag r hp len setting
  have hfields : policyFields r s.accepted = policyFields r s := rfl
  have hw : s.accepted.waiting tag r .handed := hp.waiting_base
  refine ⟨fun hbad => ⟨_, ?_, answered_finishControl .badParam .none hw⟩, fun hok => ?_, policyFields_iff r s⟩
  · exact act_runControl_badParam (ok := policyFields) (body := policyBody) hp (hfields.trans hbad)
  · have hexec : exec .setPolicy s = .next (pump (policyBody r s.accepted)) :=
      act_runControl (ok := policyFields) (body := policyBody) hp (hfields.trans hok)
    have harb := arbitrates_policyTaken s.accepted r
    have hans : (s.accepted.policyTaken r).Answered (policyBody r s.accepted) tag r .ok (.window len) := by
      rw [policyBody_eq]
      exact answered_finishControl .ok (.window len) ((congrArg ControlWindow.executing harb.win).trans hw)
    have hwin := hans.window
    rw [harb.win] at hwin
    have hceil : (policyBody r s.accepted).buffer.ceiling = s.ceilingSet r :=
      (congrArg (fun u : State => u.buffer.ceiling) hans.rest).trans (ceiling_policyTaken s.accepted r)
    have hmon : (policyBody r s.accepted).mon = (s.policySet r).mon :=
      (congrArg State.mon hans.rest).trans harb.mon
    refine ⟨_, hexec, ⟨_, by rw [hwin], rfl, rfl, rfl, rfl, by rw [hwin], rfl⟩, by rw [hwin], ?_, ?_, ?_, ?_, ?_,
      fun k => ?_, (congrArg State.slots hans.rest).trans harb.slots,
      (congrArg State.map hans.rest).trans harb.map,
      (congrArg State.clock hans.rest).trans harb.clock, by rw [hwin]; rfl, s.accepted.policySet r, ?_⟩
    · rw [hwin]; exact settingOfNat_getD _ _
    · rw [hwin]; exact settingOfNat_getD _ _
    · rw [hwin]; exact settingOfNat_getD _ _
    · rw [hceil]; exact ceilingOfNat_getD _ _
    · rw [hmon]; rfl
    · rw [hmon]
      simp only [State.policySet, Fin.getElem_fin, Vector.getElem_ofFn]
      exact reactionOfNat_getD _ _
    · rw [hceil, hmon]
      exact ⟨rfl, by rw [hwin]; rfl, hans⟩

end Sys2Proof.Machine
end

section
/-!
SUPPORT. What a lane does when its job is over (R131, R135, R136, R139): which waiting job it starts, and the lanes after
the jobs of an owner are gone.
-/

namespace Sys2Proof.Machine

/-! ### The job that a selection starts (R136) -/

/-- The place of a class in the order of selection, the highest class 0. -/
def Class.rank (c : Class) : Nat := if c = .record then 0 else if c = .play then 1 else if c = .service then 2 else 3

theorem rank_injective : Function.Injective Class.rank := fun a b h => by
  cases a <;> cases b <;> simp_all [Class.rank]

theorem rank_le_three (c : Class) : c.rank ≤ 3 := by cases c <;> decide

section select

variable {j : Job} {before after : List Job}

/-- The oldest job whose count is 8 goes before every class. -/
theorem selectJob_bypassed (h8 : 8 ≤ j.bypass) (hb : ∀ i ∈ before, i.bypass < 8) :
    selectJob (before ++ j :: after) = some j := by
  have hfind : (before ++ j :: after).find? (fun i => decide (i.bypass ≥ 8)) = some j :=
    List.find?_eq_some_iff_append.mpr ⟨decide_eq_true h8, before, after, rfl, fun i hi => by simpa using hb i hi⟩
  unfold selectJob
  rw [hfind]

/-- Where j is the oldest job of the highest class that waits: the oldest job of its class, or of a higher one. -/
theorem oldestOf_first (hb : ∀ i ∈ before, j.cls.rank < i.cls.rank) (ha : ∀ i ∈ after, j.cls.rank ≤ i.cls.rank)
    {c : Class} (hc : c.rank ≤ j.cls.rank) : oldestOf c (before ++ j :: after) = if j.cls = c then some j else none := by
  unfold oldestOf
  split
  · rename_i hj
    refine List.find?_eq_some_iff_append.mpr ⟨decide_eq_true hj, before, after, rfl, fun i hi => ?_⟩
    have hne : i.cls ≠ c := fun e => (hb i hi).ne (by rw [hj, e])
    simpa using hne
  · rename_i hj
    have hlt : c.rank < j.cls.rank := hc.lt_of_ne fun e => hj (rank_injective e).symm
    refine List.find?_eq_none.mpr fun i hi => ?_
    have hle : j.cls.rank ≤ i.cls.rank := by
      rcases List.mem_append.mp hi with hi | hi
      · exact (hb i hi).le
      · rcases List.mem_cons.mp hi with rfl | hi
        · exact le_rfl
        · exact ha i hi
    have hne : i.cls ≠ c := fun e => (hlt.trans_le hle).ne (by rw [e])
    simpa using hne

/-- Without a job whose count is 8, the oldest of the highest class that waits. -/
theorem selectJob_class (h8 : ∀ i ∈ before ++ j :: after, i.bypass < 8) (hb : ∀ i ∈ before, j.cls.rank < i.cls.rank)
    (ha : ∀ i ∈ after, j.cls.rank ≤ i.cls.rank) : selectJob (before ++ j :: after) = some j := by
  have hfind : (before ++ j :: after).find? (fun i => decide (i.bypass ≥ 8)) = none :=
    List.find?_eq_none.mpr fun i hi => by simpa using h8 i hi
  have hfirst := fun {c : Class} => oldestOf_first hb ha (c := c)
  unfold selectJob
  rw [hfind]
  cases hj : j.cls with
  | record => rw [hfirst (c := .record) (by rw [hj]), if_pos hj]
  | play =>
    rw [hfirst (c := .record) (by rw [hj]; decide), if_neg (by rw [hj]; decide),
      hfirst (c := .play) (by rw [hj]), if_pos hj]
  | service =>
    rw [hfirst (c := .record) (by rw [hj]; decide), if_neg (by rw [hj]; decide),
      hfirst (c := .play) (by rw [hj]; decide), if_neg (by rw [hj]; decide),
      hfirst (c := .service) (by rw [hj]), if_pos hj]
  | bulk =>
    obtain rfl : before = [] := List.eq_nil_iff_forall_not_mem.mpr fun i hi => by
      have hlt := hb i hi
      rw [hj] at hlt
      exact absurd hlt (Nat.not_lt.mpr (rank_le_three i.cls))
    rw [hfirst (c := .record) (by rw [hj]; decide), if_neg (by rw [hj]; decide),
      hfirst (c := .play) (by rw [hj]; decide), if_neg (by rw [hj]; decide),
      hfirst (c := .service) (by rw [hj]; decide), if_neg (by rw [hj]; decide)]
    rfl

/-- In both cases of R136 the job selected stands before any copy of itself. -/
theorem erase_selected (hj : j ∉ before) : (before ++ j :: after).erase j = before ++ after := by
  rw [List.erase_append_right _ hj, List.erase_cons_head]

end select

/-! ### A freed lane (R131, R135, R136) -/

theorem refillLane_selected {s : State} {j : Job} (l : Fin 2) (h : selectJob s.lanes.jobs = some j) :
    (refillLane l s).lanes.lane l = some { job := j, key := resolveKey s j.source, start := s.lanes.starts } ∧
    (refillLane l s).lanes.jobs = (s.lanes.jobs.erase j).map Job.passed := by
  have heq : refillLane l s = startsDone (startJob l j
      { s with lanes := { s.lanes with jobs := (s.lanes.jobs.erase j).map Job.passed } }) := by
    unfold refillLane selectLane
    rw [h]
  rw [heq]
  exact ⟨(setLane_lane _ l l _).trans (if_pos rfl), startJob_jobs l j _⟩

theorem refillLane_none {s : State} (l : Fin 2) (h : selectJob s.lanes.jobs = none) :
    (refillLane l s).lanes.lane l = none ∧ (refillLane l s).lanes.jobs = s.lanes.jobs := by
  have heq : refillLane l s = startsDone { s with lanes := s.lanes.setLane l none } := by
    unfold refillLane selectLane
    rw [h]
  rw [heq]
  exact ⟨(setLane_lane _ l l _).trans (if_pos rfl), setLane_jobs _ l _⟩

/-- With no job waiting the lane is idle. -/
theorem refillLane_idle {s : State} (l : Fin 2) (h : s.lanes.jobs = []) :
    (refillLane l s).lanes.lane l = none ∧ (refillLane l s).lanes.jobs = [] := by
  obtain ⟨hlane, hjobs⟩ := refillLane_none l (s := s) (by rw [h]; rfl)
  exact ⟨hlane, hjobs.trans h⟩

theorem setLane_starts (x : Transform) (l : Fin 2) (r : Option Running) : (x.setLane l r).starts = x.starts := by
  unfold Transform.setLane; split <;> rfl

theorem refillLane_starts (l : Fin 2) (s : State) : (refillLane l s).lanes.starts = s.lanes.starts + 1 := by
  unfold refillLane selectLane
  split
  · exact congrArg (· + 1) (setLane_starts _ _ _)
  · exact congrArg (· + 1) (setLane_starts _ _ _)

/-- The job that a freed lane runs started at this moment. -/
theorem start_refillLane {s : State} {l : Fin 2} {x : Running} (h : (refillLane l s).lanes.lane l = some x) :
    x.start = s.lanes.starts := by
  cases hj : selectJob s.lanes.jobs with
  | none =>
    obtain ⟨hidle, _⟩ := refillLane_none l hj
    exact absurd (hidle.symm.trans h) nofun
  | some j =>
    obtain ⟨hrun, _⟩ := refillLane_selected l hj
    rw [hrun] at h
    exact Option.some.inj h ▸ rfl

theorem otherLane_ne (l : Fin 2) : otherLane l ≠ l := by fin_cases l <;> decide

/-- The key of a generation: the current one, or the retired one (R131). -/
theorem resolveKey_current {s : State} {i : SlotIx} {gen : Nat} {k : Key} (hg : (s.slot i).gen = some gen)
    (hk : (s.slot i).key = some k) : resolveKey s (.slot i gen) = .slot k := by
  unfold resolveKey keyOfGen
  dsimp only
  rw [if_pos hg, hk]

theorem resolveKey_retired {s : State} {i : SlotIx} {gen refs : Nat} {k : Key} (hg : (s.slot i).gen ≠ some gen)
    (hr : (s.slot i).retired = some { key := k, gen := gen, refs := refs }) : resolveKey s (.slot i gen) = .slot k := by
  unfold resolveKey keyOfGen
  dsimp only
  rw [if_neg hg, hr]
  dsimp only
  rw [if_pos rfl]

/-! ### The jobs of an owner are gone (R139) -/

/-- A lane runs a job of an owner. -/
def State.laneRuns (s : State) (o : Owner) (l : Fin 2) : Prop := ∃ r, s.lanes.lane l = some r ∧ r.job.owner = o

theorem runsFor_iff {s : State} {o : Owner} {l : Fin 2} : runsFor o (s.lanes.lane l) = true ↔ s.laneRuns o l := by
  unfold runsFor State.laneRuns
  cases s.lanes.lane l <;> simp

theorem clearLane_runs {s : State} {o : Owner} {l : Fin 2} (h : s.laneRuns o l) : clearLane o l s = refillLane l s :=
  if_pos (runsFor_iff.mpr h)

theorem clearLane_not_runs {s : State} {o : Owner} {l : Fin 2} (h : ¬ s.laneRuns o l) : clearLane o l s = s :=
  if_neg fun e => h (runsFor_iff.mp e)

/-- Refilling lane 0 leaves what lane 1 runs. -/
theorem laneRuns_one_refilled {s : State} {o : Owner} : (refillLane 0 s).laneRuns o 1 ↔ s.laneRuns o 1 := by
  unfold State.laneRuns
  rw [(refillLane_lanes 0 s).2.2 1 (by decide)]

/-- The state in which the waiting jobs of an owner are withdrawn. -/
def State.withoutJobs (s : State) (o : Owner) : State :=
  { s with lanes := { s.lanes with jobs := s.lanes.jobs.filter fun j => decide (j.owner ≠ o) } }

theorem laneRuns_withoutJobs {s : State} {o : Owner} {l : Fin 2} : (s.withoutJobs o).laneRuns o l ↔ s.laneRuns o l :=
  Iff.rfl

theorem dropJobs_clears (o : Owner) (s : State) : dropJobs o s = clearLane o 1 (clearLane o 0 (s.withoutJobs o)) :=
  dropJobs_eq o s

section drop

variable {s : State} {o : Owner}

theorem dropJobs_both (h0 : s.laneRuns o 0) (h1 : s.laneRuns o 1) :
    dropJobs o s = refillLane 1 (refillLane 0 (s.withoutJobs o)) := by
  rw [dropJobs_clears, clearLane_runs (laneRuns_withoutJobs.mpr h0),
    clearLane_runs (laneRuns_one_refilled.mpr (laneRuns_withoutJobs.mpr h1))]

theorem dropJobs_one {l : Fin 2} (h : s.laneRuns o l) (hother : ¬ s.laneRuns o (otherLane l)) :
    dropJobs o s = refillLane l (s.withoutJobs o) := by
  rw [dropJobs_clears]
  obtain rfl | rfl : l = 0 ∨ l = 1 := by omega
  · have hone : ¬ (refillLane 0 (s.withoutJobs o)).laneRuns o 1 := laneRuns_one_refilled.not.mpr hother
    rw [clearLane_runs (laneRuns_withoutJobs.mpr h), clearLane_not_runs hone]
  · have hzero : ¬ (s.withoutJobs o).laneRuns o 0 := laneRuns_withoutJobs.not.mpr hother
    rw [clearLane_not_runs hzero, clearLane_runs (laneRuns_withoutJobs.mpr h)]

theorem dropJobs_none (h0 : ¬ s.laneRuns o 0) (h1 : ¬ s.laneRuns o 1) : dropJobs o s = s.withoutJobs o := by
  rw [dropJobs_clears, clearLane_not_runs (laneRuns_withoutJobs.not.mpr h0),
    clearLane_not_runs (laneRuns_withoutJobs.not.mpr h1)]

end drop

/-- When both lanes are freed, the job of lane 0 starts first. -/
theorem starts_in_order {s : State} {x y : Running} (hx : (refillLane 1 (refillLane 0 s)).lanes.lane 0 = some x)
    (hy : (refillLane 1 (refillLane 0 s)).lanes.lane 1 = some y) : x.start < y.start := by
  rw [(refillLane_lanes 1 _).2.2 0 (by decide)] at hx
  rw [start_refillLane hx, start_refillLane hy, refillLane_starts]
  exact Nat.lt_succ_self _

end Sys2Proof.Machine
end

section
/-!
O44. The end of a job (R129, R135, R136, R138, R139): its unit moves on or its service operation ends, and the lane makes
its selection.
-/

namespace Sys2Proof.Machine

/-! ### Which job can end (R135) -/

theorem endsNext_iff {x : Transform} {l : Fin 2} : x.endsNext l = true ↔
    ∀ r q, x.lane l = some r → x.lane (otherLane l) = some q → r.start ≤ q.start := by
  unfold Transform.endsNext
  cases x.lane l <;> cases x.lane (otherLane l) <;> simp

theorem exec_jobEnd {s : State} (l : Fin 2) (hr : s.inReset = false) :
    exec (.jobEnd l) s = .next (pump (laneEnds l s.quiet)) := act_running s (fun s => pump (laneEnds l s)) hr

theorem laneEnds_first {s : State} {l : Fin 2} {r : Running} (hl : s.lanes.lane l = some r)
    (hq : ∀ q, s.lanes.lane (otherLane l) = some q → r.start ≤ q.start) :
    laneEnds l s = startsDone (selectLane l (handBack r s)) := by
  unfold laneEnds
  rw [hl]
  refine if_pos (endsNext_iff.mpr fun r' q hr' => ?_)
  rw [← Option.some.inj (hl.symm.trans hr')]
  exact hq q

theorem laneEnds_nothing {s : State} {l : Fin 2} (h : s.lanes.lane l = none ∨ ∃ r q, s.lanes.lane l = some r ∧
    s.lanes.lane (otherLane l) = some q ∧ q.start < r.start) : laneEnds l s = s := by
  unfold laneEnds
  rcases h with h | ⟨r, q, hr, hq, hlt⟩
  · rw [h]
  · rw [hr]
    exact if_neg fun e => Nat.not_le.mpr hlt (endsNext_iff.mp e r q hr hq)

/-! ### The data of a frame while requests are made -/

/-- The frame of a number is there afterwards, with the data it had. -/
def DataStand (s u : State) : Prop := ∀ n f, s.frame? n = some f → ∃ g, u.frame? n = some g ∧ g.data = f.data

theorem DataStand.refl (s : State) : DataStand s s := fun _ f h => ⟨f, h, rfl⟩

theorem DataStand.trans {s u v : State} (h : DataStand s u) (k : DataStand u v) : DataStand s v := fun n f hf => by
  obtain ⟨g, hg, hgd⟩ := h n f hf
  obtain ⟨g', hg', hgd'⟩ := k n g hg
  exact ⟨g', hg', hgd'.trans hgd⟩

theorem FramesStand.dataStand {s u : State} (h : FramesStand s u) : DataStand s u := fun n f hf => ⟨f, h n f hf, rfl⟩

theorem dataStand_modFrame {s : State} {n : Nat} {g : Frame → Frame} (hn : ∀ x, (g x).num = x.num)
    (hd : ∀ x, (g x).data = x.data) : DataStand s (s.modFrame n g) := fun m f hf => by
  by_cases e : m = n
  · subst e; exact ⟨g f, frame?_modFrame hn hf, hd f⟩
  · exact ⟨f, (frame?_modFrame_other g hn e).trans hf, rfl⟩

theorem dataStand_followUp : ∀ (fuel : Nat) (t : HostTag) (s : State), DataStand s (followUp fuel t s)
  | 0, _, s => .refl s
  | fuel + 1, t, s => by
    unfold followUp
    split
    · exact .refl s
    · split
      · exact .refl s
      · rename_i n _ _
        have htake : DataStand s (takeBase t n s) := dataStand_modFrame (s := s)
          (g := fun f => { f with cond := .filling, fromHost := true, order := s.stamp }) (fun _ => rfl) fun _ => rfl
        exact htake.trans (dataStand_followUp fuel t _)
      · split
        · exact (framesStand_grant s).dataStand.trans (dataStand_followUp fuel t _)
        · exact .refl s

theorem joinRun_buffer (c : Cmd) (op : DriveOp) (k : Nat) (s : State) : (joinRun c op k s).buffer = s.buffer := by
  unfold joinRun; split <;> rfl

/-- A command that enters ACTIVE makes its requests over the frames as they stand. -/
theorem dataStand_enterCmdActive (t : HostTag) (s : State) : DataStand s (enterCmdActive t s) := by
  have hreq : ∀ w : State, w.buffer = s.buffer → DataStand s (makeRequests t w) := fun w hw n f hf =>
    dataStand_followUp 16 t w n f (by unfold State.frame?; rw [hw]; exact hf)
  unfold enterCmdActive
  split
  · exact .refl s
  · rename_i c _
    refine hreq _ ?_
    cases c.kind with
    | read =>
      dsimp only
      split
      · rfl
      · exact joinRun_buffer _ _ _ _
    | write => exact joinRun_buffer _ _ _ _
    | flush | deallocate | pass | windowRead | identify | controlWrite => rfl

/-! ### A WRITE enters ACTIVE (R72, R79) -/

theorem modCmd_setCmdState {s : State} {t : HostTag} {k : Cmd} (st : CmdState) (ht : k.tag = t) :
    (s.modCmd t fun _ => k).setCmdState t st = (s.setCmdState t st).modCmd t fun _ => { k with state := st } := by
  have htable : ∀ l : List Cmd,
      (l.map fun c => if c.tag = t then k else c).map (fun c => if c.tag = t then { c with state := st } else c) =
      (l.map fun c => if c.tag = t then { c with state := st } else c).map
        fun c => if c.tag = t then { k with state := st } else c := fun l => by
    rw [List.map_map, List.map_map]
    refine List.map_congr_left fun c _ => ?_
    by_cases e : c.tag = t <;> simp [e, ht]
  exact congrArg (fun table => { s with table := table }) (htable s.table)

theorem cmd?_joinRun {s : State} {c k : Cmd} (op : DriveOp) (i : Nat) (hk : s.cmd? c.tag = some k) :
    ∃ n, (joinRun c op i s).cmd? c.tag = some { k with nextRun := n } := by
  unfold joinRun
  split
  · refine ⟨i + 1, cmd?_modCmd (s := joinQueue _ s) (f := fun c => { c with nextRun := i + 1 }) ?_ ?_ hk⟩
    · exact fun _ => rfl
    · exact fun _ => rfl
  · exact ⟨k.nextRun, hk⟩

/-- A WRITE put into the table in place of the one of its tag enters ACTIVE with the merge list it has. -/
theorem enterCmdActive_write {s : State} {t : HostTag} {c k : Cmd} (hc : s.cmd? t = some c) (ht : k.tag = t)
    (hs : k.state = c.state) (hw : k.kind = .write) :
    ∃ k', (enterCmdActive t (s.modCmd t fun _ => k)).cmd? t = some k' ∧ k'.state = .active ∧ k'.merges = k.merges := by
  obtain ⟨a, ha, hact⟩ := cmd?_setActive hc
  have hput : (s.modCmd t fun _ => k).cmd? t = some k := cmd?_putCmd hc (ht.trans (cmd?_mem hc).2.symm) hs
  have hset : ((s.modCmd t fun _ => k).setCmdState t .active).cmd? t = some { k with state := .active } := by
    rw [modCmd_setCmdState _ ht]
    exact cmd?_putCmd ha (ht.trans (cmd?_mem ha).2.symm) hact.symm
  have heq : enterCmdActive t (s.modCmd t fun _ => k) =
      makeRequests t (joinRun k .write 0 ((s.modCmd t fun _ => k).setCmdState t .active)) := by
    unfold enterCmdActive
    rw [hput]
    dsimp only
    rw [hw]
  subst ht
  obtain ⟨n, hjoin⟩ := cmd?_joinRun .write 0 hset
  obtain ⟨k', hk', hsame, _⟩ := (asksOf_makeRequests k.tag _).cmd? hjoin
  exact ⟨k', heq ▸ hk', by rw [hsame], by rw [hsame]⟩

/-! ### A merge base is held (R99, R100) -/

theorem basesHeld_iff {c : Cmd} : c.basesHeld = true ↔ ∀ m ∈ c.merges, m.base = .zero ∨ m.state = .held := by
  unfold Cmd.basesHeld
  simp

/-- With the base of unit u held, every base is if every one of another unit is. -/
theorem basesHeld_setMerge {c : Cmd} {u : Nat} : (c.setMerge u .held).basesHeld = true ↔
    ∀ m ∈ c.merges, m.unit ≠ u → m.base = .zero ∨ m.state = .held := by
  rw [basesHeld_iff]
  refine ⟨fun h m hm hu => h m (mem_setMerge.mpr (.inl ⟨hm, hu⟩)), fun h m hm => ?_⟩
  rcases mem_setMerge.mp hm with ⟨hm, hu⟩ | ⟨_, _, _, rfl⟩
  · exact h m hm hu
  · exact .inr rfl

theorem begun_baseHeld (c : Cmd) (f : Frame) (s : State) : Begun s (baseHeld c f s) := by
  unfold baseHeld
  dsimp only
  split
  · exact (begun_modCmd s c.tag _).trans (begun_enterCmdActive _ _)
  · exact begun_modCmd s c.tag _

theorem dataStand_baseHeld (c : Cmd) (f : Frame) (s : State) : DataStand s (baseHeld c f s) := by
  unfold baseHeld
  dsimp only
  split
  · exact dataStand_enterCmdActive c.tag (s.modCmd c.tag fun _ => c.setMerge f.unit .held)
  · exact .refl s

/-- The write after the base of its unit is held: ACTIVE with the last base, and otherwise as it was. -/
theorem baseHeld_write {s : State} {c : Cmd} (f : Frame) (hc : s.cmd? c.tag = some c) (hk : c.kind = .write) :
    ∃ k', (baseHeld c f s).cmd? c.tag = some k' ∧ k'.merges = (c.setMerge f.unit .held).merges ∧
      k'.state = if (c.setMerge f.unit .held).basesHeld then .active else c.state := by
  unfold baseHeld
  dsimp only
  split
  · obtain ⟨k', hk', hst, hm⟩ := enterCmdActive_write (k := c.setMerge f.unit .held) hc rfl rfl hk
    exact ⟨k', hk', hm, hst⟩
  · exact ⟨c.setMerge f.unit .held, cmd?_putCmd hc rfl rfl, rfl, rfl⟩

/-! ### The job of a host command ends (R129, R138) -/

/-- The frame takes what the job made of its unit, with its condition and its way from here. -/
def Frame.worked (f : Frame) (data : UnitData) (cond : Condition) (dir : Direction) (order : Nat) : Frame :=
  { f with data := data, cond := cond, dir := dir, order := order }

/-- The state in which frame f has taken what the job made of its unit. -/
def State.jobDone (s : State) (f : Frame) (data : UnitData) (cond : Condition) (dir : Direction) : State :=
  (s.modFrame f.num fun f => f.worked data cond dir s.stamp).tickStamp

section host

variable {s : State} {r : Running} {t : HostTag} {c : Cmd} {f : Frame}

theorem frame?_jobDone {n : Nat} (data : UnitData) (cond : Condition) (dir : Direction) (hf : s.frame? n = some f) :
    (s.jobDone f data cond dir).frame? n = some (f.worked data cond dir s.stamp) := by
  obtain rfl : f.num = n := by simpa using List.find?_some hf
  exact frame?_modFrame (g := fun f => f.worked data cond dir s.stamp) (fun _ => rfl) hf

/-- A write in MERGE_READ has a base in the frame; any other unit is READY for the drive or for the host. -/
theorem hostJobEnd_eq (hc : s.cmd? t = some c) (hf : s.frame? r.job.frame = some f) : hostJobEnd r t s =
    let data := transformUnit r.job.dir r.key r.job.tweak f.data
    if c.state = .mergeRead then baseHeld c f (s.jobDone f data .base .toDrive)
    else if r.job.dir = .encrypt then servePull t (s.jobDone f data .ready .toDrive)
    else s.jobDone f data .ready .toHost := by
  unfold hostJobEnd
  rw [hc, hf]
  dsimp only
  by_cases hst : c.state = .mergeRead
  · rw [if_pos hst, if_pos hst]
    rfl
  · rw [if_neg hst, if_neg hst]
    cases r.job.dir <;> rfl

theorem servePull_rest (t : HostTag) (s : State) : servePull t s = { s with drive := (servePull t s).drive } := by
  unfold servePull
  split
  · split
    · split
      · rw [startDriveXfer_rest]
      · rfl
    · rfl
  · rfl

/-- Under a title key the unit becomes its transform, or the inverse (R129). -/
theorem transformUnit_slot (d : JobDir) (k : Key) (w : Tweak) (x : UnitData) : transformUnit d (.slot k) w x =
    if d = .encrypt then Config.transform k w x else (Config.transform k w).symm x := by
  cases d <;> rfl

/-- The frame of a unit whose job ends: READY on its way if it is no merge base. -/
structure State.UnitMoves (s u : State) (r : Running) (c : Cmd) (f g : Frame) : Prop where
  frame : u.frame? r.job.frame = some g
  data : g.data = transformUnit r.job.dir r.key r.job.tweak f.data
  ready : c.state ≠ .mergeRead → g.cond = .ready ∧ g.dir = if r.job.dir = .encrypt then .toDrive else .toHost
  rest : u.lanes = s.lanes ∧ u.slots = s.slots

theorem unitMoves_hostJobEnd (hc : s.cmd? t = some c) (hf : s.frame? r.job.frame = some f) :
    ∃ g, s.UnitMoves (hostJobEnd r t s) r c f g := by
  rw [hostJobEnd_eq hc hf]
  dsimp only
  set data := transformUnit r.job.dir r.key r.job.tweak f.data
  by_cases hst : c.state = .mergeRead
  · rw [if_pos hst]
    have hbegun := begun_baseHeld c f (s.jobDone f data .base .toDrive)
    obtain ⟨g, hg, hdata⟩ := dataStand_baseHeld c f _ _ _ (frame?_jobDone data .base .toDrive hf)
    exact ⟨g, hg, hdata, fun h => absurd hst h, by rw [hbegun]; rfl, by rw [hbegun]; rfl⟩
  · rw [if_neg hst]
    by_cases hd : r.job.dir = .encrypt
    · rw [if_pos hd]
      refine ⟨f.worked data .ready .toDrive s.stamp, ?_, rfl, fun _ => ⟨rfl, (if_pos hd).symm⟩, ?_⟩
      · rw [servePull_rest]
        exact frame?_jobDone data .ready .toDrive hf
      · rw [servePull_rest]
        exact ⟨rfl, rfl⟩
    · rw [if_neg hd]
      exact ⟨f.worked data .ready .toHost s.stamp, frame?_jobDone data .ready .toHost hf, rfl,
        fun _ => ⟨rfl, (if_neg hd).symm⟩, rfl, rfl⟩

/-- The merge list of a write whose base has been decrypted, and the state that follows from it (R99, R100). -/
theorem baseHeld_hostJobEnd (hc : s.cmd? t = some c) (hf : s.frame? r.job.frame = some f) (hst : c.state = .mergeRead)
    (hk : c.kind = .write) : ∃ k', (hostJobEnd r t s).cmd? t = some k' ∧
      (∀ m ∈ k'.merges, m.unit = f.unit → m.state = .held) ∧
      ((∀ m ∈ c.merges, m.unit ≠ f.unit → m.base = .zero ∨ m.state = .held) → k'.state = .active) ∧
      ((∃ m ∈ c.merges, m.unit ≠ f.unit ∧ m.base = .read ∧ m.state ≠ .held) → k'.state = .mergeRead) := by
  obtain rfl := (cmd?_mem hc).2
  rw [hostJobEnd_eq hc hf]
  dsimp only
  rw [if_pos hst]
  obtain ⟨k', hk', hm, hstate⟩ := baseHeld_write (s := s.jobDone f _ .base .toDrive) f hc hk
  refine ⟨k', hk', fun m hmem => setMerge_state (hm ▸ hmem), fun hall => ?_, ?_⟩
  · rw [hstate, if_pos (basesHeld_setMerge.mpr hall)]
  · rintro ⟨m, hmem, hu, hread, hnot⟩
    have hopen : ¬ (c.setMerge f.unit .held).basesHeld = true := fun h =>
      (basesHeld_setMerge.mp h m hmem hu).elim (fun e => nomatch hread.symm.trans e) hnot
    rw [hstate, if_neg hopen, hst]

end host

/-! ### A service job ends (R144, R146, R150, R151) -/

section service

variable {s : State} {g : SvcTag} {f : Flight} {unit : DiskUnit}

theorem serviceJobEnd_formed (hf : s.flight? g = some f) (hu : f.content = .formed unit) : serviceJobEnd g s =
    joinQueue (serviceCmd g .forcedWrite f.op.kind.index s) (s.modFlight g fun f => { f with content := .whole unit }) := by
  unfold serviceJobEnd
  rw [hf]
  dsimp only
  rw [hu]

theorem serviceJobEnd_whole (hf : s.flight? g = some f) (hu : f.content = .whole unit) :
    serviceJobEnd g s = opRead f unit s := by
  unfold serviceJobEnd
  rw [hf]
  dsimp only
  rw [hu]

theorem opRead_load {i : Nat} (hk : f.op.kind = .load i) :
    opRead f unit s = loadEnd f i (s.classify i unit) (setKnownGen i (foundGen unit) s) := by
  unfold opRead
  rw [hk]

theorem opRead_header (hk : f.op.kind = .headerRead) :
    opRead f unit s = headerEnd (s.headerOf unit) (endFlight f.tag s) := by
  unfold opRead
  rw [hk]

end service

/-- Settles O44: what the end of a job hands back, what the withdrawal of jobs frees, and the job that a lane starts. -/
theorem jobEnds : Obligations.JobEnds := by
  have hends : ∀ {s : State} {l : Fin 2} {r : Running}, s.inReset = false → s.lanes.lane l = some r →
      (∀ q, s.lanes.lane (otherLane l) = some q → r.start ≤ q.start) →
      exec (.jobEnd l) s = .next (pump (startsDone (selectLane l (handBack r s.quiet)))) := fun hr hl hq =>
    (exec_jobEnd _ hr).trans (congrArg (fun u => Host.Outcome.next (pump u)) (laneEnds_first hl hq))
  refine ⟨fun s l r t c f k hr hl hq ho hc hf hkey => ?_, fun s l r g f hr hl hq ho hf => ?_, fun s l hr h => ?_,
    fun s o => ?_, fun s l => ?_⟩
  · have hback : handBack r s.quiet = hostJobEnd r t s.quiet := by unfold handBack; rw [ho]
    obtain ⟨g, hg, hdata, hready, hlanes, hslots⟩ := unitMoves_hostJobEnd (s := s.quiet) hc hf
    rw [hkey, transformUnit_slot] at hdata
    exact ⟨_, g, hback ▸ hends hr hl hq, hlanes, hslots, hg, hdata, hready, fun hst hk =>
      baseHeld_hostJobEnd (s := s.quiet) hc hf hst hk⟩
  · have hback : handBack r s.quiet = serviceJobEnd g s.quiet := by unfold handBack; rw [ho]
    have hexec := hback ▸ hends hr hl hq
    refine ⟨fun unit hu => ⟨_, hexec, ?_⟩, fun unit i hu hk => ?_, fun unit hu hk => ?_⟩
    · rw [serviceJobEnd_formed (s := s.quiet) hf hu]
      exact ⟨rfl, rfl, flight?_modFlight (s := s.quiet) hf (fun f => { f with content := .whole unit }) fun _ => rfl, rfl⟩
    · rw [hexec, serviceJobEnd_whole (s := s.quiet) hf hu, opRead_load hk]
      rfl
    · rw [hexec, serviceJobEnd_whole (s := s.quiet) hf hu, opRead_header hk]
      rfl
  · rw [exec_jobEnd l hr, laneEnds_nothing (s := s.quiet) h]
    rfl
  · refine ⟨fun h0 h1 => ⟨dropJobs_both h0 h1, fun x y hx hy => ?_⟩, fun l => dropJobs_one, dropJobs_none⟩
    rw [dropJobs_both h0 h1] at hx hy
    exact starts_in_order hx hy
  · refine ⟨(refillLane_lanes l s).2.2 _ (otherLane_ne l), refillLane_idle l, fun before j after hjobs hsel => ?_, rfl,
      fun i gen k => ⟨resolveKey_current, fun refs => resolveKey_retired⟩⟩
    have hpick : selectJob (before ++ j :: after) = some j ∧ j ∉ before := by
      rcases hsel with ⟨h8, hb⟩ | ⟨h8, hb, ha⟩
      · exact ⟨selectJob_bypassed h8 hb, fun hj => (hb j hj).not_ge h8⟩
      · exact ⟨selectJob_class h8 hb ha, fun hj => (hb j hj).false⟩
    obtain ⟨hrun, hleft⟩ := refillLane_selected l (hjobs ▸ hpick.1)
    rw [hjobs, erase_selected hpick.2] at hleft
    exact ⟨hrun, hleft⟩

end Sys2Proof.Machine
end

section
/-!
O45. What a unit read at an index is, by its clear part and its seal (R144, R145, R146).
-/

namespace Sys2Proof.Machine

/-! ### Seals (R145) -/

/-- The seal of a title record opens exactly if it is this part's, under the tweak of the clear generation, over the
clear part and the fields (R145). -/
theorem sealOpens_iff {i : Nat} {c : TitleClear} {b : TitleSeal} : sealOpens i c b = true ↔
    b.ours = true ∧ b.tweak = { title := 0, seq := c.gen, unit := i } ∧ b.check.clear = c ∧
      b.check.fields = b.fields := by
  obtain ⟨_, _, _, ⟨_, _⟩⟩ := b
  simp only [sealOpens, Bool.and_eq_true, decide_eq_true_eq, TitleCheck.mk.injEq, and_assoc]
  rfl

/-! ### Records at an index (R146) -/

section classify

variable {s : State} {i : Nat}

/-- The clear part decides alone where the marker is absent or the epoch another header's. -/
theorem decidesClear_iff {unit : DiskUnit} : s.decidesClear unit = true ↔
    (titleClear unit).marker = false ∨ (titleClear unit).epoch ≠ s.epoch := by
  simp [State.decidesClear]

theorem not_decidesClear {unit : DiskUnit} (hm : (titleClear unit).marker = true)
    (he : (titleClear unit).epoch = s.epoch) : ¬ s.decidesClear unit = true := by
  simp [decidesClear_iff, hm, he]

theorem classify_clear (unit : DiskUnit) (h : (titleClear unit).marker = false ∨ (titleClear unit).epoch ≠ s.epoch) :
    s.classify i unit = .empty := if_pos (decidesClear_iff.mpr h)

theorem classify_header {c : HeaderClear} (b : HeaderSeal) (hm : c.marker = true) (he : c.epoch = s.epoch) :
    s.classify i (.header c b) = .damaged := if_neg (not_decidesClear (unit := .header c b) hm he)

variable {c : TitleClear} {b : TitleSeal}

theorem classify_damaged (hm : c.marker = true) (he : c.epoch = s.epoch)
    (h : c.index ≠ i ∨ c.gen = 0 ∨ sealOpens i c b = false) : s.classify i (.title c b) = .damaged :=
  (if_neg (not_decidesClear (unit := .title c b) hm he)).trans (if_pos h)

theorem classify_opens (hm : c.marker = true) (he : c.epoch = s.epoch) (hi : c.index = i) (hg : c.gen ≠ 0)
    (ho : sealOpens i c b = true) : s.classify i (.title c b) =
      if b.fields.state = .empty then .empty else .title b.fields :=
  (if_neg (not_decidesClear (unit := .title c b) hm he)).trans (if_neg (by simp [hi, hg, ho]))

end classify

/-! ### The header (R144) -/

section header

variable {s : State}

theorem headerOf_absent (unit : DiskUnit) (h : (headerClear unit).marker = false) : s.headerOf unit = .absent :=
  if_pos h

theorem headerOf_header {c : HeaderClear} (b : HeaderSeal) (hm : c.marker = true) : s.headerOf (.header c b) =
    if b.ours = true ∧ b.tweak = { title := 0, seq := 0, unit := 0 } ∧ b.check = c ∧ c.capacity = s.driveCapacity
    then .valid c.epoch else .foreign :=
  if_neg (ne_false_of_eq_true (b := c.marker) hm)

theorem headerOf_title {c : TitleClear} (b : TitleSeal) (hm : c.marker = true) : s.headerOf (.title c b) = .foreign :=
  if_neg (ne_false_of_eq_true (b := c.marker) hm)

end header

/-- Settles O45, by the tests of R146 and R144 in their order. -/
theorem recordsClassified : Obligations.RecordsClassified := by
  refine ⟨fun s i c b => ⟨classify_clear (.title c b), classify_damaged, fun hm he hi hg ho h => ?_,
      fun hm he hi hg ho h => ?_, fun _ _ => sealOpens_iff.mpr ⟨rfl, rfl, rfl, rfl⟩, fun hm he h => ?_⟩,
    fun s i c b => ⟨classify_clear (.header c b), classify_header b, headerOf_absent (.header c b),
      fun hm h1 h2 h3 h4 => ?_, fun hm h => ?_⟩,
    fun s c b => ⟨headerOf_absent (.title c b), headerOf_title b⟩⟩
  · rw [classify_opens hm he hi hg ho, if_pos h]
  · rw [classify_opens hm he hi hg ho, if_neg h]
  · refine classify_damaged hm he (.inr (.inr (Bool.eq_false_iff.mpr fun ho => ?_)))
    obtain ⟨h1, h2, h3, h4⟩ := sealOpens_iff.mp ho
    simp [h1, h2, h3, h4] at h
  · rw [headerOf_header b hm, if_pos ⟨h1, h2, h3, h4⟩]
  · rw [headerOf_header b hm, if_neg]
    rintro ⟨h1, h2, h3, h4⟩
    simp [h1, h2, h3, h4] at h

end Sys2Proof.Machine
end

section
/-!
O60. FORMAT and SWEEP: their tests in order, the header of a new epoch, and the index at which a sweep begins (R152,
R161 to R163).
-/

namespace Sys2Proof.Machine

/-! ### Claims of slots (R152) -/

theorem slotClaims_iff {s : State} {j : Nat} :
    s.slotClaims j = true ↔ ∃ x k, s.claim? j = some x ∧ x.owner = .slot k := by
  unfold State.slotClaims
  cases s.claim? j with
  | none => simp
  | some x => cases hx : x.owner <;> simp [hx]

theorem slotClaims_of_claimed {s u : State} (h : u.claimed = s.claimed) (j : Nat) :
    u.slotClaims j = s.slotClaims j := by
  rw [State.slotClaims_eq, State.slotClaims_eq, h]

/-! ### FORMAT (R161) -/

theorem holdsRecording_iff {s : State} :
    s.holdsRecording = true ↔ ∃ i, (s.slot i).phase ≠ .idle ∧ (s.slot i).kind = some .recording := by
  simp [State.holdsRecording, TitleSlot.isRecording, mem_allSlots]

section format

variable {s : State}

theorem formatBody_holds (r : Sector) (h : s.holdsRecording = true) : formatBody r s = finishControl .state .none s :=
  if_pos h

theorem formatBody_sweeping (r : Sector) (h : ¬ s.holdsRecording = true) (hs : s.cat.sweeping = true) :
    formatBody r s = finishControl .busy .none s := (if_neg h).trans (if_pos hs)

theorem formatBody_writes (r : Sector) (h : ¬ s.holdsRecording = true) (hs : s.cat.sweeping = false) :
    formatBody r s = writeHeader s := (if_neg h).trans (if_neg (ne_true_of_eq_false hs))

/-- The header is written, and the command waits for the write. -/
theorem writeHeader_spec {tag : Option HostTag} {r : Sector} {st : Stage} (hw : (drawEpoch s).waiting tag r st) :
    ((drawEpoch s).staged tag r .header).ServiceWork (writeHeader s) ∧
      (writeHeader s).asks (.headerWrite s.newEpoch) .header := by
  unfold writeHeader
  rw [setStage_eq_staged .header hw]
  exact ⟨(serviceWork_takeClaim 0 .header _).trans (serviceWork_requestOp _ _ _ _), asks_requestOp _ _ _ _⟩

theorem drawEpoch_valid {e : Nat} (h : s.cat.header = .valid e) : drawEpoch s = s := by unfold drawEpoch; rw [h]

theorem newEpoch_valid {e : Nat} (h : s.cat.header = .valid e) : s.newEpoch = if 65535 ≤ e then 1 else e + 1 := by
  unfold State.newEpoch; rw [h]; rfl

theorem drawEpoch_draws (h : ∀ e, s.cat.header ≠ .valid e) : drawEpoch s = s.drawn := by
  unfold drawEpoch
  split
  · exact absurd ‹_› (h _)
  all_goals rfl

theorem newEpoch_draws (h : ∀ e, s.cat.header ≠ .valid e) : s.newEpoch = s.freshEpoch := by
  unfold State.newEpoch
  split
  · exact absurd ‹_› (h _)
  all_goals rfl

end format

/-! ### SWEEP (R162, R163) -/

theorem headerValid_iff {s : State} : s.headerValid = true ↔ ∃ e, s.cat.header = .valid e := by
  unfold State.headerValid
  cases s.cat.header <;> simp

section sweep

variable {s : State}

theorem sweepBody_unformatted (r : Sector) (h : s.headerValid = false) :
    sweepBody r s = finishControl .unformatted .none s := if_pos h

theorem sweepBody_clockUnset (r : Sector) (h : s.headerValid = true) (hc : s.clock = none) :
    sweepBody r s = finishControl .clockUnset .none s := (if_neg (ne_false_of_eq_true h)).trans (if_pos hc)

theorem sweepBody_sweeping (r : Sector) (h : s.headerValid = true) (hc : s.clock ≠ none) (hs : s.cat.sweeping = true) :
    sweepBody r s = finishControl .busy .none s :=
  (if_neg (ne_false_of_eq_true h)).trans ((if_neg hc).trans (if_pos hs))

theorem sweepBody_starts (r : Sector) (h : s.headerValid = true) (hc : s.clock ≠ none) (hs : s.cat.sweeping = false) :
    sweepBody r s = startSweep (finishControl .ok .none s) :=
  (if_neg (ne_false_of_eq_true h)).trans ((if_neg hc).trans (if_neg (ne_true_of_eq_false hs)))

end sweep

/-- The sweep has begun, and stands before index 1. -/
def State.sweepBegun (s : State) : State := { s with cat := { s.cat with sweeping := true, erased := 0 } }

theorem startSweep_eq (s : State) : startSweep s = sweepTo 1023 1 s.sweepBegun := rfl

/-- A move of the sweep touches no more of the window than the flags. -/
theorem sweepTo_win : ∀ (n j : Nat) (s : State), (sweepTo n j s).win = { s.win with flags := (sweepTo n j s).win.flags }
  | 0, _, _ => rfl
  | n + 1, j, s => by
    unfold sweepTo
    split
    · exact sweepTo_win n _ s
    · rw [(serviceWork_requestOp _ _ _ _).win]; rfl

theorem startSweep_keeps (s : State) : (startSweep s).slots = s.slots ∧ (startSweep s).map = s.map ∧
    (startSweep s).cat.erased = 0 ∧ (startSweep s).win = { s.win with flags := (startSweep s).win.flags } := by
  rw [startSweep_eq]
  obtain ⟨hslots, hmap, herased, _, _⟩ := sweepTo_keeps 1023 1 s.sweepBegun
  exact ⟨hslots, hmap, herased, sweepTo_win 1023 1 s.sweepBegun⟩

/-- The sweep begins at the first index that no slot claims. -/
theorem startSweep_first {s : State} {j : Nat} (h1 : 1 ≤ j) (h2 : j ≤ 1023) (hj : s.slotClaims j = false)
    (hm : ∀ m, 1 ≤ m → m < j → s.slotClaims m = true) :
    (startSweep s).cat.sweeping = true ∧ (startSweep s).cat.progress = j ∧ (startSweep s).asks (.load j) .sweep ∧
      ∃ c ∈ (startSweep s).cat.claims, c.index = j ∧ c.owner = .sweep := by
  rw [startSweep_eq, sweepTo_next 1023 1 j s.sweepBegun h1 (by omega) hm hj]
  have hwork := serviceWork_requestOp (.load j) .sweep none
    (takeClaim j .sweep { s.sweepBegun with cat := { s.sweepBegun.cat with progress := j } })
  refine ⟨hwork.sweeping, hwork.progress, asks_requestOp _ _ _ _, State.mem_claimed.mp ?_⟩
  rw [requestOp_claimed, takeClaim_claimed]
  exact List.mem_append_right _ (List.mem_singleton_self _)

/-- A sweep that finds every index claimed by a slot is over at once. -/
theorem startSweep_done {s : State} (hm : ∀ m, 1 ≤ m → m ≤ 1023 → s.slotClaims m = true) :
    (startSweep s).cat.sweeping = false ∧ (startSweep s).cat.progress = 0 ∧
      (startSweep s).hasFlag .sweepDone = true := by
  rw [startSweep_eq, sweepTo_end 1023 1 s.sweepBegun fun m h1 h2 => hm m h1 (by omega)]
  exact ⟨rfl, rfl, hasFlag_setFlag _ _⟩

/-- FORMAT acts on the state with the nonce replaced (R161, R196). -/
theorem exec_format {s : State} {tag : Option HostTag} {r : Sector}
    (h : s.Passes { code := 19, authorised := true, inUnformatted := true } tag r) :
    exec .format s = .next (pump (formatBody r s.accepted)) ∧ s.accepted.waiting tag r .handed :=
  ⟨act_runControl (ok := noFields) (body := formatBody) h rfl, h.waiting_base⟩

/-- SWEEP is not authorised (R162). -/
theorem exec_sweep {s : State} {tag : Option HostTag} {r : Sector} (h : s.Passes { code := 20 } tag r) :
    exec .sweep s = .next (pump (sweepBody r s.quiet)) ∧ s.quiet.waiting tag r .handed :=
  ⟨act_runControl (ok := noFields) (body := sweepBody) h rfl, h.handed⟩

/-- Settles O60, by the tests of the two commands in their order and by the sweep's move to its first index. -/
theorem catalogueCommands : Obligations.CatalogueCommands := by
  refine ⟨fun s tag r hp => ?_, fun s tag r hp => ⟨fun h => ?_, fun e he => ?_, fun j => slotClaims_iff⟩⟩
  · intro holds
    obtain ⟨hexec, hw⟩ := exec_format hp
    have hholds : s.accepted.holdsRecording = true ↔ holds := holdsRecording_iff
    refine ⟨fun h => ⟨_, hexec, ?_⟩, fun h hs => ⟨_, hexec, ?_⟩, fun h hs e he => ⟨_, hexec, ?_⟩,
      fun h hs he => ⟨_, hexec, ?_⟩⟩
    · rw [formatBody_holds r (hholds.mpr h)]
      exact answered_finishControl .state .none hw
    · rw [formatBody_sweeping r (mt hholds.mp h) hs]
      exact answered_finishControl .busy .none hw
    · have hd : drawEpoch s.accepted = s.accepted := drawEpoch_valid he
      have hspec := writeHeader_spec (s := s.accepted) (by rw [hd]; exact hw)
      rw [hd, newEpoch_valid (s := s.accepted) he] at hspec
      rw [formatBody_writes r (mt hholds.mp h) hs]
      exact hspec
    · have hd : drawEpoch s.accepted = s.accepted.drawn := drawEpoch_draws he
      have hspec := writeHeader_spec (s := s.accepted) (by rw [hd]; exact hw)
      rw [hd, newEpoch_draws (s := s.accepted) he] at hspec
      rw [formatBody_writes r (mt hholds.mp h) hs]
      exact hspec
  · obtain ⟨hexec, hw⟩ := exec_sweep hp
    have hv : s.quiet.headerValid = false := Bool.eq_false_iff.mpr fun hv => by
      obtain ⟨e, he⟩ := headerValid_iff.mp hv
      exact h e he
    refine ⟨_, hexec, ?_⟩
    rw [sweepBody_unformatted r hv]
    exact answered_finishControl .unformatted .none hw
  · obtain ⟨hexec, hw⟩ := exec_sweep hp
    have hv : s.quiet.headerValid = true := headerValid_iff.mpr ⟨e, he⟩
    refine ⟨fun hc => ⟨_, hexec, ?_⟩, fun hc hs => ⟨_, hexec, ?_⟩, fun hc hs => ⟨_, hexec, ?_⟩⟩
    · rw [sweepBody_clockUnset r hv hc]
      exact answered_finishControl .clockUnset .none hw
    · rw [sweepBody_sweeping r hv hc hs]
      exact answered_finishControl .busy .none hw
    · rw [sweepBody_starts r hv hc hs]
      have hans := answered_finishControl .ok .none hw
      set v := finishControl .ok .none s.quiet
      obtain ⟨hslots, hmap, herased, hwin⟩ := startSweep_keeps v
      have hclaims := slotClaims_of_claimed (s := s) (u := v) (by rw [hans.rest]; rfl)
      rw [hans.window] at hwin
      exact ⟨⟨_, by rw [hwin], rfl, rfl, rfl, rfl, by rw [hwin], rfl⟩, by rw [hwin], herased,
        by rw [hslots, hans.rest]; rfl, by rw [hmap, hans.rest]; rfl,
        fun j h1 h2 hj hm => startSweep_first h1 h2 ((hclaims j).trans hj) fun m a b => (hclaims m).trans (hm m a b),
        fun hm => startSweep_done fun m a b => (hclaims m).trans (hm m a b)⟩

end Sys2Proof.Machine
end

section
/-!
SUPPORT. What stays on the links while commands are taken and while operations fail: what the part sent before in the
step, the drive port apart from its queue, and the event flags (R158, R159, R201).
-/

namespace Sys2Proof.Machine

/-! ### Taking commands sends nothing -/

theorem Begun.out {s u : State} (h : Begun s u) : u.out = s.out := by unfold Begun at h; rw [h]

theorem out_refuse (t : HostTag) (lba count : Nat) (r : Reason) (named : List SlotIx) (s : State) :
    (refuse t lba count r named s).out = s.out := by rw [(refuses_refuse t lba count r named s).rest]

theorem out_refuseAt (t : HostTag) (r : Reason) (range : Option Range) (s : State) :
    (refuseAt t r range s).out = s.out := by
  unfold refuseAt; split <;> exact out_refuse _ _ _ _ _ _

theorem out_applyTrial (x : Tested) (s : State) : (applyTrial x s).out = s.out := by
  unfold applyTrial
  split
  · split <;> rfl
  · rfl

theorem out_foldl {α : Type} {f : State → α → State} (hf : ∀ s a, (f s a).out = s.out) :
    ∀ (l : List α) (s : State), (l.foldl f s).out = s.out
  | [], _ => rfl
  | a :: l, s => (out_foldl hf l (f s a)).trans (hf s a)

theorem out_admitData (write : Bool) (t : HostTag) (lba count : Nat) (xs : List Tested) (s : State) :
    (admitData write t lba count xs s).out = s.out := by
  unfold admitData
  refine (begun_enterTable _ _).out.trans ?_
  refine (congrArg State.out (violated_countExpired _ _).rest).trans ?_
  exact (out_foldl (fun s p => by rw [raiseFlight_rest]) _ _).trans
    (out_foldl (fun s x => out_applyTrial x s) xs s)

theorem out_admitBelow (write : Bool) (t : HostTag) (lba count : Nat) (s : State) :
    (admitBelow write t lba count s).out = s.out := by
  unfold admitBelow
  dsimp only
  split
  · exact out_refuse _ _ _ _ _ _
  · split
    · exact out_refuse _ _ _ _ _ _
    · exact out_admitData _ _ _ _ _ _

theorem out_admitRange (write : Bool) (t : HostTag) (lba count : Nat) (s : State) :
    (admitRange write t lba count s).out = s.out := by
  unfold admitRange
  split
  · exact out_refuse _ _ _ _ _ _
  · split
    · split
      · split
        · rfl
        · exact out_refuse _ _ _ _ _ _
      · split
        · exact (begun_enterTable _ _).out
        · exact out_refuse _ _ _ _ _ _
    · exact out_admitBelow _ _ _ _ _

theorem out_takeCommand (a : Arrival) (s : State) : (takeCommand a s).out = s.out := by
  unfold takeCommand
  split
  · exact out_refuseAt _ _ _ _
  · unfold takeKind
    split
    · exact out_admitRange _ _ _ _ _
    · exact out_admitRange _ _ _ _ _
    · rfl
    · exact (begun_enterTable _ _).out
    · split
      · exact out_refuseAt _ _ _ _
      · exact (begun_enterTable _ _).out
    · split
      · exact out_refuseAt _ _ _ _
      · exact (begun_enterTable _ _).out
    · exact out_refuseAt _ _ _ _

theorem out_takeHeldList : ∀ (l : List Arrival) (s : State), (takeHeldList l s).out = s.out
  | [], _ => rfl
  | a :: l, s => by
    unfold takeHeldList
    split
    · rfl
    · exact (out_takeHeldList l _).trans (out_takeCommand a s)

/-! ### The links while operations fail (R158) -/

/-- Between s and u nothing was sent or taken back from what was sent, the drive port has changed in its queue at most,
and no event flag was cleared. -/
structure KeepsLinks (s u : State) : Prop where
  out : u.out = s.out
  drive : u.drive = { s.drive with queue := u.drive.queue }
  flags : ∀ g, s.hasFlag g = true → u.hasFlag g = true

namespace KeepsLinks

theorem refl (s : State) : KeepsLinks s s := ⟨rfl, rfl, fun _ => id⟩

theorem trans {s t u : State} (h : KeepsLinks s t) (k : KeepsLinks t u) : KeepsLinks s u where
  out := k.out.trans h.out
  drive := by rw [k.drive, h.drive]
  flags g hg := k.flags g (h.flags g hg)

theorem foldl {α : Type} {f : State → α → State} (hf : ∀ s a, KeepsLinks s (f s a)) :
    ∀ (l : List α) (s : State), KeepsLinks s (l.foldl f s)
  | [], s => .refl s
  | a :: l, s => (hf s a).trans (foldl hf l (f s a))

end KeepsLinks

theorem Settles.keepsLinks {s u : State} (h : Settles s u) : KeepsLinks s u := ⟨h.out, h.drive, h.flags⟩

theorem keepsLinks_takeHeld (s : State) : KeepsLinks s (takeHeld s) where
  out := out_takeHeldList _ _
  drive := (takes_takeHeld s).drive
  flags := (takes_takeHeld s).flags

theorem violate_flags (k : Violation) (named : List SlotIx) {s : State} {g : EventFlag} (h : s.hasFlag g = true) :
    (violate k named s).hasFlag g = true := by
  unfold violate
  dsimp only
  split
  · exact h
  · exact (takes_haltSlots named _).flags g h
  · exact (takes_alarmReaction k _).flags g h
  · exact (takes_faultReaction k _).flags g h

theorem keepsLinks_headerKnown (h : HeaderCopy) (s : State) : KeepsLinks s (headerKnown h s) where
  out := by rw [headerKnown_rest]
  drive := by rw [headerKnown_rest]
  flags g hg := by
    unfold headerKnown
    dsimp only
    split
    · exact hasFlag_setFlag_of _ _ _ (violate_flags .catalogueDamaged [] hg)
    · exact hg

/-- The failure of an operation sends nothing, however its kind and its owner have it. -/
theorem keepsLinks_opFailed (f : Flight) (s : State) : KeepsLinks s (opFailed f s) := by
  have hend := (serviceWork_endFlight f.tag s).settles
  have hover := settles_writeOver f false s
  unfold opFailed
  split
  · exact (hend.trans (settles_loadEnd f _ .drive s)).keepsLinks
  · exact (hover.trans (settles_storeEnd f false s)).keepsLinks
  · exact (hover.trans (settles_eraseEnd f _ false s)).keepsLinks
  · rw [headerEnd_eq]
    exact (hend.keepsLinks.trans (keepsLinks_headerKnown _ _)).trans (keepsLinks_takeHeld _)
  · exact (settles_headerWriteEnd f _ false s).keepsLinks

theorem failOp_of_flight {s : State} {n : Nat} {f : Flight} (h : s.flightOfOp n = some f) :
    failOp n s = opFailed f s := by
  unfold failOp; rw [h]

theorem failOp_none {s : State} {n : Nat} (h : s.flightOfOp n = none) : failOp n s = s := by
  unfold failOp; rw [h]

theorem keepsLinks_failOp (n : Nat) (s : State) : KeepsLinks s (failOp n s) := by
  cases h : s.flightOfOp n with
  | none => rw [failOp_none h]; exact .refl s
  | some f => rw [failOp_of_flight h]; exact keepsLinks_opFailed f s

end Sys2Proof.Machine
end

section
/-!
O21. SERVICE_TIMER: the drive link is reset, and the operation waits to be issued again or fails (R92, R157, R158).
-/

namespace Sys2Proof.Machine

/-! ### The reset of the drive link and the catalogue (R92, R157) -/

theorem resetDriveLink_cat (s : State) : (resetDriveLink s).cat = s.cat := by
  rw [resetDriveLink_eq, (fades_failAll .deviceError s.abandonedTags s.linkDown).rest, s.linkDown_eq]

theorem resetDriveLink_win (s : State) : (resetDriveLink s).win = s.win := by
  rw [resetDriveLink_eq, (fades_failAll .deviceError s.abandonedTags s.linkDown).rest, s.linkDown_eq]

/-- What the links showed before and what the catalogue controller knows play no part in a reset of the drive link. -/
theorem State.LinkReset.of_catalogue {s u : State} (o : List Output) (c : Catalogue)
    (h : ({ s with out := o, cat := c } : State).LinkReset u) : s.LinkReset u :=
  { link := h.link, sent := h.sent, nothing := h.nothing, unread := h.unread, ended := h.ended, slots := h.slots,
    kept := h.kept, monitor := h.monitor }

/-! ### The operations to be issued again (R156, R157) -/

/-- The order of first issue does not look at what a change leaves of a flight but the moment it was issued. -/
theorem byIssue_map {h : Flight → Flight} (hi : ∀ f, (h f).issued = f.issued) (fs : List Flight) :
    byIssue (fs.map h) = (byIssue fs).map h := by
  rw [byIssue_eq, byIssue_eq]
  refine (List.map_insertionSort _ _ h fs fun a _ b _ => ?_).symm
  simp only [issuedBefore, hi]

theorem abandonedOps_modFlight (s : State) (t : SvcTag) {h : Flight → Flight} (ht : ∀ f, (h f).tag = f.tag)
    (hn : ∀ f, (h f).op.num = f.op.num) (hi : ∀ f, (h f).issued = f.issued) :
    (s.modFlight t h).abandonedOps = s.abandonedOps := by
  set k : Flight → Flight := fun x => if x.tag = t then h x else x with hk
  have hkt : ∀ f, (k f).tag = f.tag := fun f => by rw [hk]; dsimp only; split <;> simp [ht]
  have hki : ∀ f, (k f).issued = f.issued := fun f => by rw [hk]; dsimp only; split <;> simp [hi]
  have hkn : ∀ f, (k f).op.num = f.op.num := fun f => by rw [hk]; dsimp only; split <;> simp [hn]
  show (byIssue ((s.cat.flights.map k).filter fun f => s.svcOutstanding f.tag)).map (·.op.num) = _
  rw [List.filter_map, byIssue_map hki, List.map_map]
  simp only [Function.comp_def, hkt, hkn]
  rfl

theorem mem_abandonedOps {s : State} {g : SvcTag} {f : Flight} (hf : s.flight? g = some f)
    (ho : s.svcOutstanding g = true) : f.op.num ∈ s.abandonedOps := by
  refine List.mem_map.mpr ⟨f, (byIssue_perm _).mem_iff.mpr (List.mem_filter.mpr ⟨flight?_mem hf, ?_⟩), rfl⟩
  rw [flight?_tag hf]
  exact ho

/-! ### The timer runs out (R157, R158) -/

section timer

variable {s : State} {g : SvcTag} {f : Flight}

theorem exec_serviceTimer (hr : s.inReset = false) : exec (.serviceTimer g) s = .next (timerEnds g s.quiet) :=
  act_running s (timerEnds g) hr

theorem timerEnds_first (hl : s.drive.link = .up) (hf : s.flight? g = some f) (ho : s.svcOutstanding g = true)
    (h0 : f.op.timeouts = 0) : timerEnds g s = pump (resetDriveLink (raiseTimeouts g s)) := by
  unfold timerEnds
  rw [hf]
  dsimp only
  rw [if_pos ⟨hl, ho⟩, if_pos h0]

/-- The state in which the link has been reset for an operation that is not issued again. -/
def State.timedOut (s : State) (n : Nat) : State := (dropReissue n (resetDriveLink s)).setFlag .serviceTimeout

theorem timerEnds_second (hl : s.drive.link = .up) (hf : s.flight? g = some f) (ho : s.svcOutstanding g = true)
    (h0 : f.op.timeouts ≠ 0) : timerEnds g s = pump (failOp f.op.num (s.timedOut f.op.num)) := by
  unfold timerEnds
  rw [hf]
  dsimp only
  rw [if_pos ⟨hl, ho⟩, if_neg h0]
  rfl

theorem timerEnds_nothing (h : s.flight? g = none ∨ s.drive.link ≠ .up ∨ s.svcOutstanding g = false) :
    timerEnds g s = s := by
  unfold timerEnds
  cases hf : s.flight? g with
  | none => rfl
  | some f =>
    dsimp only
    refine if_neg fun hc => ?_
    obtain ⟨hl, ho⟩ := hc
    rcases h with h | h | h
    · rw [hf] at h; cases h
    · exact h hl
    · exact ne_true_of_eq_false h ho

/-- The first time: the operation has timed out once, and waits to be issued again with the others. -/
theorem firstTimeout (hf : s.flight? g = some f) (ho : s.svcOutstanding g = true) (h0 : f.op.timeouts = 0) :
    let u := resetDriveLink (raiseTimeouts g s)
    s.LinkReset u ∧ u.flight? g = some { f with op := { f.op with timeouts := 1 } } ∧
      u.drive.reissue = s.drive.reissue ++ s.abandonedOps ∧ f.op.num ∈ u.drive.reissue ∧ u.win.flags = s.win.flags := by
  intro u
  obtain ⟨hreset, hre⟩ := linkReset_resetDriveLink (raiseTimeouts g s)
  have hab : (raiseTimeouts g s).abandonedOps = s.abandonedOps :=
    abandonedOps_modFlight s g (fun _ => rfl) (fun _ => rfl) fun _ => rfl
  have hu : u.drive.reissue = s.drive.reissue ++ s.abandonedOps := by rw [← hab]; exact hre
  refine ⟨hreset.of_catalogue s.out _, ?_, hu, ?_, congrArg ControlWindow.flags (resetDriveLink_win _)⟩
  · have hflight := flight?_modFlight hf
      (fun f => { f with op := { f.op with timeouts := min 1 (f.op.timeouts + 1) } }) fun _ => rfl
    rw [h0] at hflight
    unfold State.flight?
    rw [resetDriveLink_cat]
    exact hflight
  · rw [hu]
    exact List.mem_append_right _ (mem_abandonedOps hf ho)

/-- The state in which the operation of a second timeout fails. -/
theorem timedOut_spec (s : State) (n : Nat) :
    let v := s.timedOut n
    v.drive.link = .resetting ∧ v.drive.outstanding = [] ∧ .driveLinkReset ∈ v.out ∧ n ∉ v.drive.reissue ∧
      v.hasFlag .serviceTimeout = true ∧ v.slots = s.slots ∧ v.cat = s.cat := by
  obtain ⟨hreset, _⟩ := linkReset_resetDriveLink s
  obtain ⟨hout, _⟩ := hreset.nothing
  exact ⟨hreset.link, hout, hreset.sent, fun h => by simpa using (List.mem_filter.mp h).2, hasFlag_setFlag _ _,
    hreset.slots, resetDriveLink_cat s⟩

end timer

/-- Settles O21, by the reset of the drive link and the failure of the operation. -/
theorem timerResetsTheLink : Obligations.TimerResetsTheLink := by
  refine ⟨fun s g f hr hl hf ho h0 => ?_, fun s g f hr hl hf ho h0 hn => ?_, fun s g hr h => ?_⟩
  · obtain ⟨hreset, hrest⟩ := firstTimeout (s := s.quiet) hf ho h0
    exact ⟨_, by rw [exec_serviceTimer hr, timerEnds_first (s := s.quiet) hl hf ho h0], hreset.of_quiet, hrest⟩
  · obtain ⟨hlink, hnone, hsent, hnot, hflag, hslots, hcat⟩ := timedOut_spec s.quiet f.op.num
    set v := s.quiet.timedOut f.op.num
    have hflight : v.flightOfOp f.op.num = some f := by unfold State.flightOfOp; rw [hcat]; exact hn
    have hkeeps := keepsLinks_opFailed f v
    have hfails := opFails f v
    refine ⟨opFailed f v, ?_, ?_, ?_, ?_, ?_, ?_, fun i hk => ?_, fun hk => ?_, fun i k hk hok hp => ?_⟩
    · rw [exec_serviceTimer hr, timerEnds_second (s := s.quiet) hl hf ho h0, failOp_of_flight hflight]
    · rw [hkeeps.drive]; exact hlink
    · rw [hkeeps.drive]; exact hnone
    · rw [hkeeps.out]; exact hsent
    · rw [hkeeps.drive]; exact hnot
    · exact hkeeps.flags _ hflag
    · exact hfails.flag ⟨i, hk⟩
    · obtain ⟨hheader, _⟩ := hfails.headerRead hk
      exact hheader
    · have hphase : (v.slot k).phase = .loading := by unfold State.slot; rw [hslots]; exact hp
      obtain ⟨hempty, _⟩ := hfails.load i k hk hok hphase
      rw [hempty]; rfl
  · rw [exec_serviceTimer hr, timerEnds_nothing (s := s.quiet) h]
    rfl

end Sys2Proof.Machine
end

section
/-!
O22. DRIVE_LINK_RESET_END and LINK_RESET_NO_ANSWER: operations are issued again and begin again, or those that wait fail
(R147, R151, R153, R157 to R159).
-/

namespace Sys2Proof.Machine

/-! ### Extent lists (R153) -/

theorem insertByFirst_eq (e : Extent) : ∀ es : List Extent,
    insertByFirst e es = es.orderedInsert (fun a b => a.first ≤ b.first) e
  | [] => rfl
  | x :: xs => by
    unfold insertByFirst
    rw [List.orderedInsert_cons, insertByFirst_eq e xs]

theorem slotExtents_eq (map : List Extent) (i : SlotIx) : slotExtents map i =
    (map.filter fun e => decide (e.slot = i)).insertionSort fun a b => a.first ≤ b.first := by
  have h : insertByFirst = List.orderedInsert fun a b : Extent => a.first ≤ b.first :=
    funext fun e => funext fun es => insertByFirst_eq e es
  unfold slotExtents List.insertionSort
  rw [h]

theorem slotExtents_pairwise (map : List Extent) (i : SlotIx) :
    (slotExtents map i).Pairwise fun a b => a.first ≤ b.first := by
  have htotal : Std.Total fun a b : Extent => a.first ≤ b.first := ⟨fun a b => Nat.le_total a.first b.first⟩
  have htrans : IsTrans Extent fun a b => a.first ≤ b.first := ⟨fun _ _ _ => Nat.le_trans⟩
  rw [slotExtents_eq]
  exact List.pairwise_insertionSort _ _

theorem recordExtents_perm (map : List Extent) (i : SlotIx) : (recordExtents map i).Perm
    ((map.filter fun e => decide (e.slot = i)).map fun e => { start := e.start, len := e.len, first := e.first }) := by
  unfold recordExtents
  rw [slotExtents_eq]
  exact (List.perm_insertionSort _ _).map _

theorem recordExtents_pairwise (map : List Extent) (i : SlotIx) :
    (recordExtents map i).Pairwise fun a b => a.first ≤ b.first :=
  List.pairwise_map.mpr (slotExtents_pairwise map i)

theorem storedFields_fieldsOfSlot (t : TitleSlot) (es : List RecExtent) : StoredFields t es (fieldsOfSlot t es) where
  state := ⟨fun h => by simp [fieldsOfSlot, recStateOf, h], fun h => by simp [fieldsOfSlot, recStateOf, h],
    fun h => by simp [fieldsOfSlot, recStateOf, h]⟩
  cls c h := by simp [fieldsOfSlot, h]
  rest := ⟨rfl, rfl, rfl, rfl⟩
  extents := rfl

/-! ### A record is formed (R134, R147, R151) -/

section forms

variable {s : State} {f : Flight}

theorem formsRecord_formRecord (hf : s.flight? f.tag = some f) (unit : DiskUnit) (tw : Tweak) :
    s.FormsRecord (formRecord f.tag unit tw s) f unit tw where
  content := by
    unfold State.flight? formRecord
    rw [submitJob_cat]
    exact flight?_modFlight hf (fun f => { f with content := .formed unit }) fun _ => rfl
  job := by
    obtain ⟨j, hj, rfl⟩ := jobs_submitJob (serviceJob f.tag .encrypt tw)
      (s.modFlight f.tag fun f => { f with content := .formed unit })
    exact ⟨_, hj, rfl, rfl, rfl, rfl, rfl, rfl⟩
  rest := by unfold formRecord; rw [submitJob_rest]; rfl
  cat := by unfold formRecord; rw [submitJob_cat]; rfl

theorem nextGeneration_knownGen (s : State) (i : Nat) : nextGeneration (s.knownGen i) = s.nextGen i := by
  unfold State.nextGen nextGeneration
  cases s.knownGen i <;> rfl

theorem formTitle_eq (t : SvcTag) (i : Nat) (x : TitleFields) (s : State) : formTitle t i x s =
    formRecord t (recordUnit s i x) { title := 0, seq := s.nextGen i, unit := i }
      (setKnownGen i (some (s.nextGen i)) s) := by
  unfold formTitle
  rw [nextGeneration_knownGen]
  rfl

/-- The record of a title is formed under the next generation of its index, which becomes the known one. -/
theorem formTitle_spec (hf : s.flight? f.tag = some f) (i : Nat) (x : TitleFields) :
    s.FormsRecord (formTitle f.tag i x s) f (recordUnit s i x) { title := 0, seq := s.nextGen i, unit := i } ∧
      ((s.claim? i).isSome = true → (formTitle f.tag i x s).knownGen i = some (s.nextGen i)) := by
  rw [formTitle_eq]
  obtain ⟨hcontent, hjob, hrest, hcat⟩ := formsRecord_formRecord (s := setKnownGen i (some (s.nextGen i)) s) hf
    (recordUnit s i x) { title := 0, seq := s.nextGen i, unit := i }
  refine ⟨⟨hcontent, hjob, hrest, hcat⟩, fun hc => ?_⟩
  have hknown := setKnownGen_knownGen (some (s.nextGen i)) hc
  unfold formRecord State.knownGen State.claim?
  rw [submitJob_cat]
  exact hknown

end forms

/-! ### Commands issued again, operations begun again (R157, R159) -/

section again

variable {s : State} {n : Nat} {f : Flight}

theorem restartOp_of_flight (h : s.flightOfOp n = some f) : restartOp n s = beginFlight f s := by
  unfold restartOp; rw [h]

theorem restartOp_none (h : s.flightOfOp n = none) : restartOp n s = s := by
  unfold restartOp; rw [h]

theorem reissueCmd_none (h : s.flightOfOp n = none) : s.reissueCmd n = none := by
  unfold State.reissueCmd; rw [h]

/-- The command issued again: the read of a load or of the header, the forced write of another operation. -/
theorem reissueCmd_of_flight (h : s.flightOfOp n = some f) : s.reissueCmd n =
    some (serviceCmd f.tag (if f.op.kind.reads then .serviceRead else .forcedWrite) f.op.kind.index s) := by
  unfold State.reissueCmd
  rw [h]
  cases hk : f.op.kind <;> simp only [hk] <;> rfl

theorem reissueCmd_write {i : Nat} (h : s.flightOfOp n = some f) (hr : f.op.kind.reads = false)
    (hi : f.op.kind.index = i) : s.reissueCmd n = some (serviceCmd f.tag .forcedWrite i s) := by
  rw [reissueCmd_of_flight h, if_neg (ne_true_of_eq_false hr), hi]

/-- A load or a header read is issued again, and begins again, with its read. -/
theorem readAgain {i : Nat} (h : s.flightOfOp n = some f) (hr : f.op.kind.reads = true) (hi : f.op.kind.index = i) :
    s.reissueCmd n = some (serviceCmd f.tag .serviceRead i s) ∧
      restartOp n s = joinQueue (serviceCmd f.tag .serviceRead i s) s := by
  subst hi
  refine ⟨by rw [reissueCmd_of_flight h, if_pos hr], ?_⟩
  rw [restartOp_of_flight h]
  unfold beginFlight
  cases hk : f.op.kind with
  | load => rfl
  | headerRead => rfl
  | store | erase | headerWrite => rw [hk] at hr; cases hr

/-- A store begins with a record of its slot as the slot now stands. -/
theorem restartOp_store {i : Nat} {k : SlotIx} (h : s.flightOfOp n = some f) (hk : f.op.kind = .store i)
    (ho : f.op.owner = .slot k) : restartOp n s =
      formTitle f.tag i (fieldsOfSlot (s.slot k) (f.op.extents.getD (recordExtents s.map k))) s := by
  rw [restartOp_of_flight h]
  unfold beginFlight storeFields
  rw [hk, ho]

theorem restartOp_erase {i : Nat} (h : s.flightOfOp n = some f) (hk : f.op.kind = .erase i) :
    restartOp n s = formTitle f.tag i emptyFields s := by
  rw [restartOp_of_flight h]
  unfold beginFlight
  rw [hk]

theorem restartOp_headerWrite {e : Nat} (h : s.flightOfOp n = some f) (hk : f.op.kind = .headerWrite e) :
    restartOp n s = formRecord f.tag (sealedHeader e s.driveCapacity) (catalogueTweak 0 0) s := by
  rw [restartOp_of_flight h]
  unfold beginFlight
  rw [hk]

end again

/-! ### The drive answers, or does not (R157 to R159) -/

section steps

variable {s : State}

/-- The link is up again, and the commands to be issued again stand first in the queue. -/
def State.linkAgain (s : State) : State := { s with drive := { s.drive with
  link := .up, reissue := [], restart := [], queue := s.drive.reissue.filterMap s.reissueCmd ++ s.drive.queue } }

theorem linkBack_resetting (h : s.drive.link = .resetting) :
    linkBack s = s.drive.restart.foldl (fun s n => restartOp n s) s.linkAgain := if_pos h

theorem linkBack_of_ne (h : s.drive.link ≠ .resetting) : linkBack s = s := if_neg h

theorem exec_driveLinkResetEnd (hr : s.inReset = false) : exec .driveLinkResetEnd s = .next (linkBack s.quiet) :=
  act_running s linkBack hr

/-- The link is reset again and SERVICE_TIMEOUT is set, and no operation waits any more. -/
def State.linkLost (s : State) : State := { s with
  out := s.out ++ [.driveLinkReset], drive := { s.drive with reissue := [], restart := [] }
  win := { s.win with flags := s.win.flags ||| EventFlag.serviceTimeout.bit } }

theorem noAnswer_resetting (h : s.drive.link = .resetting) : noAnswer s =
    pump ((s.drive.reissue ++ s.drive.restart).foldl (fun s n => failOp n s) s.linkLost) := if_pos h

theorem noAnswer_of_ne (h : s.drive.link ≠ .resetting) : noAnswer s = s := if_neg h

theorem exec_linkResetNoAnswer (hr : s.inReset = false) : exec .linkResetNoAnswer s = .next (noAnswer s.quiet) :=
  act_running s noAnswer hr

end steps

/-- A write begun again forms its record again, as its kind has it. -/
theorem restartOp_forms (s : State) (n : Nat) (f : Flight) (h : s.flightOfOp n = some f)
    (hf : s.flight? f.tag = some f) :
    (∀ i k, f.op.kind = .store i → f.op.owner = .slot k → ∃ x,
      StoredFields (s.slot k) (f.op.extents.getD (recordExtents s.map k)) x ∧
      s.FormsRecord (restartOp n s) f (recordUnit s i x) { title := 0, seq := s.nextGen i, unit := i } ∧
      ((s.claim? i).isSome = true → (restartOp n s).knownGen i = some (s.nextGen i))) ∧
    (∀ i, f.op.kind = .erase i →
      s.FormsRecord (restartOp n s) f (recordUnit s i emptyFields) { title := 0, seq := s.nextGen i, unit := i } ∧
      ((s.claim? i).isSome = true → (restartOp n s).knownGen i = some (s.nextGen i))) ∧
    (∀ e, f.op.kind = .headerWrite e →
      s.FormsRecord (restartOp n s) f (sealedHeader e s.driveCapacity) (catalogueTweak 0 0)) := by
  refine ⟨fun i k hk ho => ?_, fun i hk => ?_, fun e hk => ?_⟩
  · rw [restartOp_store h hk ho]
    exact ⟨_, storedFields_fieldsOfSlot _ _, formTitle_spec hf i _⟩
  · rw [restartOp_erase h hk]
    exact formTitle_spec hf i emptyFields
  · rw [restartOp_headerWrite h hk]
    exact formsRecord_formRecord hf _ _

/-- Settles O22, by what each operation that waits does when the drive answers, and by its failure when it does not. -/
theorem linkAnswersOrNot : Obligations.LinkAnswersOrNot := by
  refine ⟨⟨fun s hr hl => ?_, fun s hr hl => ?_, fun s n f h => ?_, fun s n h => ⟨reissueCmd_none h, restartOp_none h⟩,
      fun s k => ⟨recordExtents_perm s.map k, recordExtents_pairwise s.map k⟩⟩,
    fun s hr hl => ?_, fun s hr hl => ?_, fun s n f h => ?_, fun s n h => failOp_none h⟩
  · rw [exec_driveLinkResetEnd hr, linkBack_resetting (s := s.quiet) hl]
    rfl
  · rw [exec_driveLinkResetEnd hr, linkBack_of_ne (s := s.quiet) hl]
    rfl
  · refine ⟨fun i hk => readAgain h (by rw [hk]; rfl) (by rw [hk]; rfl),
      fun hk => readAgain h (by rw [hk]; rfl) (by rw [hk]; rfl), fun i hk => ?_,
      fun e hk => reissueCmd_write h (by rw [hk]; rfl) (by rw [hk]; rfl), fun hf => ?_⟩
    · rcases hk with hk | hk <;> exact reissueCmd_write h (by rw [hk]; rfl) (by rw [hk]; rfl)
    · obtain ⟨hstore, herase, hheader⟩ := restartOp_forms s n f h hf
      exact ⟨hstore, fun i hk => ⟨emptyFields, rfl, rfl, rfl, rfl, rfl, herase i hk⟩, hheader⟩
  · have hkeeps := KeepsLinks.foldl (fun s n => keepsLinks_failOp n s) (s.drive.reissue ++ s.drive.restart)
      s.quiet.linkLost
    refine ⟨_, by rw [exec_linkResetNoAnswer hr, noAnswer_resetting (s := s.quiet) hl]; rfl, hkeeps.flags _ ?_,
      ?_, ?_, ?_, ?_, rfl⟩
    · exact hasFlag_setFlag s .serviceTimeout
    · rw [hkeeps.drive]; rfl
    · rw [hkeeps.drive]; rfl
    · rw [hkeeps.drive]; exact hl
    · rw [hkeeps.out]; exact List.mem_append_right _ (List.mem_singleton_self _)
  · rw [exec_linkResetNoAnswer hr, noAnswer_of_ne (s := s.quiet) hl]
    rfl
  · rw [failOp_of_flight h]
    exact opFails f s

end Sys2Proof.Machine
end

section
/-!
The rights clock over single moves and whole steps (R166, R169).
-/

namespace Sys2Proof.Machine

/-- In going from s to t a clock that is set has not fallen, and it is within its range (R166, R169). -/
structure ClockAdvances (s t : State) : Prop where
  ok : t.ClockOk
  rises : ∀ c, s.clock = some c → ∃ d, t.clock = some d ∧ c ≤ d

namespace ClockAdvances

theorem of_eq {s t : State} (hs : s.ClockOk) (h : t.clock = s.clock) : ClockAdvances s t :=
  ⟨fun c hc => hs c (h.symm.trans hc), fun c hc => ⟨c, h.trans hc, le_refl c⟩⟩

theorem trans {s t u : State} (h : ClockAdvances s t) (k : ClockAdvances t u) : ClockAdvances s u := by
  refine ⟨k.ok, fun c hc => ?_⟩
  obtain ⟨d, hd, hcd⟩ := h.rises c hc
  obtain ⟨e, he, hde⟩ := k.rises d hd
  exact ⟨e, he, hcd.trans hde⟩

end ClockAdvances

/-- A tick and SET_CLOCK raise the clock or hold it; no other move writes it (R167, R168). -/
theorem Move.clockAdvances {L : Prop} {s t : State} (h : Move L s t) (hs : s.ClockOk) : ClockAdvances s t := by
  cases h with
  | traffic h => exact .of_eq hs h.keeps.clock
  | alarm k => exact .of_eq hs (by rw [alarmReaction_rest])
  | fault k => exact .of_eq hs (by rw [faultReaction_rest])
  | deadline => exact .of_eq hs (by rw [deadlineReached_rest])
  | clock v hle hmax =>
    refine ⟨fun c hc => ?_, fun c hc => ⟨v, rfl, hle c hc (hs c hc)⟩⟩
    have hv : v = c := Option.some.inj hc
    subst hv
    exact hmax.elim id (hs v)
  | _ => exact .of_eq hs rfl

theorem Moves.clockAdvances {L : Prop} {s t : State} (h : Moves L s t) (hs : s.ClockOk) : ClockAdvances s t := by
  induction h with
  | refl => exact .of_eq hs rfl
  | tail _ m ih => exact ih.trans (m.clockAdvances ih.ok)

/-- Every command but a hard reset lets the clock stand or rise: a nonce drawn, the release of RESET_N and a RESUME of the
monitor leave it, and all else is moves. -/
theorem Did.clockAdvances {c : Instr} {s t : State} (h : Did c s t) (hc : c ≠ .hardReset) (hs : s.ClockOk) :
    ClockAdvances s t := by
  cases h with
  | hardReset h _ => exact absurd h hc
  | released _ _ ht => subst ht; exact .of_eq hs rfl
  | moved h => exact h.clockAdvances hs
  | accepted _ _ h =>
    have drawn : ClockAdvances s s.quiet.drawNonce := .of_eq hs rfl
    exact drawn.trans (h.clockAdvances drawn.ok)
  | resumed _ _ h => exact .of_eq hs h.keeps.clock

/-- Settles O3: a hard reset leaves the clock unset, every other command lets it stand or rise, and an idle step changes
nothing. -/
theorem clockNeverFalls : Obligations.ClockNeverFalls := by
  intro s t hs h
  unfold step at h
  split at h
  next hp =>
    injection h with h
    subst h
    have k : ClockAdvances s s := .of_eq hs rfl
    rw [hp, if_neg (by simp)]
    exact ⟨k.ok, k.rises⟩
  next c rest hp =>
    rw [hp, List.head?_cons]
    by_cases hc : c = .hardReset
    · subst hc
      rw [exec_hardReset] at h
      injection h with h
      subst h
      rw [if_pos rfl]
      exact ⟨reset_clockOk, rfl⟩
    · have k := (exec_cases h).clockAdvances hc hs
      rw [if_neg (mt Option.some.inj hc)]
      exact ⟨k.ok, k.rises⟩

end Sys2Proof.Machine
end

section
/-!
The expiry test, the tick and SET_CLOCK (R9 to R11, R166 to R168, R170): what the test does to one slot, and to the slots
of a list one after the other.
-/

namespace Sys2Proof.Machine

/-! ### One slot (R9 to R11) -/

theorem TitleSlot.expires_recording {t : TitleSlot} {clock : Option Nat} (h : t.expires clock = true) :
    t.kind = some .recording := by
  unfold TitleSlot.expires at h
  simp only [Bool.and_eq_true, decide_eq_true_eq] at h
  exact h.1.2

/-- A slot once its expiry has been tested: a due one is in DRAINING, or on in ERASING if nothing is in flight (R9 to
R11). -/
def TitleSlot.afterExpiry (t : TitleSlot) (clock : Option Nat) : TitleSlot :=
  if t.expires clock = true then
    if t.inFlight = 0 ∧ t.storeInFlight = false then
      { t with phase := .erasing, drain := some .expired, key := none, retired := none }
    else { t with phase := .draining, drain := some .expired }
  else t

theorem TitleSlot.afterExpiry_of_not {t : TitleSlot} {clock : Option Nat} (h : t.expires clock = false) :
    t.afterExpiry clock = t := if_neg (by rw [h]; exact Bool.false_ne_true)

theorem TitleSlot.afterExpiry_of_due {t : TitleSlot} {clock : Option Nat} (h : t.expires clock = true) :
    t.afterExpiry clock = if t.inFlight = 0 ∧ t.storeInFlight = false then
      { t with phase := .erasing, drain := some .expired, key := none, retired := none }
    else { t with phase := .draining, drain := some .expired } := if_pos h

/-- A slot whose expiry has been tested is not due again. -/
theorem TitleSlot.afterExpiry_expires (t : TitleSlot) (clock : Option Nat) :
    (t.afterExpiry clock).expires clock = false := by
  cases h : t.expires clock
  · rw [TitleSlot.afterExpiry_of_not h]; exact h
  · rw [TitleSlot.afterExpiry_of_due h]
    split <;> rfl

/-- A slot that goes on to ERASING at its expiry test: it is due and has nothing in flight. -/
def TitleSlot.erasedAtExpiry (t : TitleSlot) (clock : Option Nat) : Prop :=
  t.expires clock = true ∧ t.inFlight = 0 ∧ t.storeInFlight = false

/-- The slots of a list have had their expiry tested in going from s to u. Beside the slots, the map and the flags, no more
than the catalogue controller's work up to the drive has been done. -/
structure State.Tested (s u : State) (l : List SlotIx) : Prop where
  slot : ∀ i, u.slot i = if i ∈ l then (s.slot i).afterExpiry s.clock else s.slot i
  flag : u.hasFlag .titleExpired = true ↔
    s.hasFlag .titleExpired = true ∨ ∃ i ∈ l, (s.slot i).expires s.clock = true
  map : ∀ e, e ∈ u.map ↔ e ∈ s.map ∧ ¬ (e.slot ∈ l ∧ (s.slot e.slot).erasedAtExpiry s.clock)
  win : u.win = { s.win with flags := u.win.flags }
  rest : u = { s with slots := u.slots, map := u.map, win := u.win, cat := u.cat, drive := u.drive, lanes := u.lanes,
                      stamp := u.stamp }

namespace State.Tested

theorem nil (s : State) : s.Tested s [] :=
  ⟨fun i => by simp, by simp, fun e => by simp, rfl, rfl⟩

theorem clock {s u : State} {l : List SlotIx} (h : s.Tested u l) : u.clock = s.clock := by rw [h.rest]

/-- A slot that has been tested is not due any more; another is as before. -/
theorem expires {s u : State} {l : List SlotIx} (h : s.Tested u l) (i : SlotIx) :
    (u.slot i).expires u.clock = true ↔ i ∉ l ∧ (s.slot i).expires s.clock = true := by
  rw [h.slot, h.clock]
  by_cases hi : i ∈ l
  · simp [hi, TitleSlot.afterExpiry_expires]
  · simp [hi]

theorem erased {s u : State} {l : List SlotIx} (h : s.Tested u l) (i : SlotIx) :
    (u.slot i).erasedAtExpiry u.clock ↔ i ∉ l ∧ (s.slot i).erasedAtExpiry s.clock := by
  unfold TitleSlot.erasedAtExpiry
  rw [h.expires, and_assoc]
  refine and_congr_right fun hi => ?_
  rw [h.slot, if_neg hi]

/-- The test of two lists one after the other is that of both. -/
theorem append {s u v : State} {l m : List SlotIx} (h : s.Tested u l) (k : u.Tested v m) : s.Tested v (l ++ m) where
  slot i := by
    rw [k.slot, h.clock, h.slot]
    by_cases hl : i ∈ l
    · simp only [hl, List.mem_append, true_or, if_true, TitleSlot.afterExpiry_of_not (TitleSlot.afterExpiry_expires _ _),
        ite_self]
    · simp only [hl, List.mem_append, false_or, if_false]
  flag := by
    rw [k.flag, h.flag]
    simp only [h.expires, List.mem_append]
    constructor
    · rintro ((hs | ⟨i, hi, hd⟩) | ⟨i, hi, _, hd⟩)
      · exact .inl hs
      · exact .inr ⟨i, .inl hi, hd⟩
      · exact .inr ⟨i, .inr hi, hd⟩
    · rintro (hs | ⟨i, hi, hd⟩)
      · exact .inl (.inl hs)
      · by_cases hl : i ∈ l
        · exact .inl (.inr ⟨i, hl, hd⟩)
        · exact .inr ⟨i, hi.resolve_left hl, hl, hd⟩
  map e := by
    rw [k.map, h.map, h.erased, List.mem_append]
    tauto
  win := by rw [k.win, h.win]
  rest := by rw [k.rest, h.rest]

end State.Tested

/-- The test of a slot that is not due leaves the state as it was. -/
theorem tested_of_not {i : SlotIx} {s : State} (h : (s.slot i).expires s.clock = false) : s.Tested s [i] where
  slot k := by
    by_cases hk : k = i
    · subst hk; simp [TitleSlot.afterExpiry_of_not h]
    · simp [hk]
  flag := by simp [h]
  map e := by
    refine ⟨fun he => ⟨he, ?_⟩, And.left⟩
    rintro ⟨hi, hdue, _⟩
    rw [List.mem_singleton.mp hi, h] at hdue
    cases hdue
  win := rfl
  rest := rfl

/-- A due slot's test, from what it writes: TITLE_EXPIRED, the slot, and a map without the extents of a slot that goes on
to ERASING. -/
theorem tested_of_due {i : SlotIx} {s u : State} {m : List Extent} (h : (s.slot i).expires s.clock = true)
    (hm : ∀ e, e ∈ m ↔ e ∈ s.map ∧ ¬ (e.slot = i ∧ (s.slot i).erasedAtExpiry s.clock))
    (hu : State.ServiceWork (({ s.setFlag .titleExpired with map := m } : State).setSlot i
      ((s.slot i).afterExpiry s.clock)) u) : s.Tested u [i] where
  slot k := by
    rw [hu.slot]
    by_cases hk : k = i
    · subst hk; rw [State.slot_setSlot_same, if_pos (List.mem_singleton_self k)]
    · rw [State.slot_setSlot_other _ _ _ _ hk, if_neg (fun e => hk (List.mem_singleton.mp e))]; rfl
  flag := by
    refine iff_of_true ?_ (.inr ⟨i, List.mem_singleton_self i, h⟩)
    show decide (u.win.flags &&& _ ≠ 0#8) = true
    rw [hu.win]
    exact hasFlag_setFlag s .titleExpired
  map e := by
    rw [hu.map, List.mem_singleton]
    refine (hm e).trans (and_congr_right fun _ => not_congr (and_congr_right fun he => ?_))
    rw [he]
  win := by rw [hu.win]; rfl
  rest := by
    rw [hu.slots, hu.map, hu.win]
    exact hu.rest

/-- The step into DRAINING of a recording with nothing in flight, for another reason than a CLOSE: its extents leave the
map, and its erase is requested (R10, R11). -/
theorem startDrain_erases {i : SlotIx} {why : DrainReason} {s : State} (hk : (s.slot i).kind = some .recording)
    (hw : why ≠ .closed) (h1 : (s.slot i).inFlight = 0) (h2 : (s.slot i).storeInFlight = false) :
    startDrain i why s = requestOp (.erase ((s.slot i).number.getD 0)) (.slot i) none
      (({ s with map := s.map.filter fun e => decide (e.slot ≠ i) } : State).setSlot i
        { s.slot i with phase := .erasing, drain := some why, key := none, retired := none }) := by
  rw [startDrain_leaves h1 h2, leaveDraining_erase (by rw [State.slot_setSlot_same]; exact hk)
    (by rw [State.slot_setSlot_same]; exact fun e => hw (Option.some.inj e)), State.slot_setSlot_same]
  simp only [State.setSlot, Vector.set_set]

/-- A due slot with nothing in flight goes on to ERASING. -/
theorem expireSlot_erases {i : SlotIx} {s : State} (h : (s.slot i).erasedAtExpiry s.clock) :
    expireSlot i s = requestOp (.erase ((s.slot i).number.getD 0)) (.slot i) none
      (({ s.setFlag .titleExpired with map := s.map.filter fun e => decide (e.slot ≠ i) } : State).setSlot i
        ((s.slot i).afterExpiry s.clock)) := by
  obtain ⟨hdue, hin, hst⟩ := h
  unfold expireSlot
  rw [if_pos hdue, TitleSlot.afterExpiry_of_due hdue, if_pos ⟨hin, hst⟩]
  exact startDrain_erases (s := s.setFlag .titleExpired) (TitleSlot.expires_recording hdue) (by decide) hin hst

/-- A due slot with a piece or a store in flight waits in DRAINING (R10). -/
theorem expireSlot_drains {i : SlotIx} {s : State} (hdue : (s.slot i).expires s.clock = true)
    (h : ¬ ((s.slot i).inFlight = 0 ∧ (s.slot i).storeInFlight = false)) :
    expireSlot i s = (s.setFlag .titleExpired).setSlot i ((s.slot i).afterExpiry s.clock) := by
  have hbusy : (s.slot i).inFlight ≠ 0 ∨ (s.slot i).storeInFlight = true := by
    rwa [not_and_or, Bool.not_eq_false] at h
  unfold expireSlot
  rw [if_pos hdue, TitleSlot.afterExpiry_of_due hdue, if_neg h, startDrain_stays (s := s.setFlag .titleExpired) hbusy]
  rfl

theorem tested_expireSlot (i : SlotIx) (s : State) : s.Tested (expireSlot i s) [i] := by
  cases hdue : (s.slot i).expires s.clock
  · have e : expireSlot i s = s := if_neg (by rw [hdue]; exact Bool.false_ne_true)
    rw [e]
    exact tested_of_not hdue
  · by_cases hf : (s.slot i).inFlight = 0 ∧ (s.slot i).storeInFlight = false
    · have he : (s.slot i).erasedAtExpiry s.clock := ⟨hdue, hf⟩
      rw [expireSlot_erases he]
      exact tested_of_due hdue (fun e => by simp [he]) (serviceWork_requestOp _ _ _ _)
    · rw [expireSlot_drains hdue hf]
      exact tested_of_due (m := s.map) hdue (fun e => by simp [TitleSlot.erasedAtExpiry, hf]) (.refl _)

/-! ### Every slot (R170) -/

theorem tested_foldl : ∀ (l : List SlotIx) (s : State), s.Tested (l.foldl (fun s i => expireSlot i s) s) l
  | [], s => .nil s
  | i :: l, s => (tested_expireSlot i s).append (tested_foldl l (expireSlot i s))

theorem tested_expiryTest (s : State) : s.Tested (expiryTest s) allSlots := tested_foldl allSlots s

theorem tickClock_unset {s : State} (h : s.clock = none) : tickClock s = s := by
  unfold tickClock; rw [h]

theorem tickClock_set {s : State} {c : Nat} (h : s.clock = some c) :
    tickClock s = pump (expiryTest { s with clock := some (min Config.maxCount32 (c + 1)) }) := by
  unfold tickClock; rw [h]

/-- Settles O16, by the tick's two cases and the test of the eight slots one after the other. -/
theorem tickExpires : Obligations.TickExpires := by
  refine ⟨fun s hr hc => ?_, fun s c hr hc => ?_, fun s => ?_⟩
  · exact (act_running s tickClock hr).trans (congrArg _ (tickClock_unset (s := s.quiet) hc))
  · exact (act_running s tickClock hr).trans (congrArg _ (tickClock_set (s := s.quiet) hc))
  · have h := tested_expiryTest s
    refine ⟨fun i hi => ?_, fun i hi => ?_, ?_, fun e => ?_, h.clock, ?_, ?_, ?_, ?_, ?_, h.win⟩
    · rw [h.slot, if_pos (mem_allSlots i), TitleSlot.afterExpiry_of_due hi]
    · rw [h.slot, if_pos (mem_allSlots i), TitleSlot.afterExpiry_of_not hi]
    · simpa only [mem_allSlots, true_and] using h.flag
    · simpa only [mem_allSlots, true_and, TitleSlot.erasedAtExpiry] using h.map e
    all_goals rw [h.rest]

/-! ### SET_CLOCK (R168) -/

/-- An unset clock takes the value. -/
theorem setTo_none (v : Nat) : setTo v none = (v, false) := rfl

/-- A set clock takes the later of the two, and is held where that is its own. -/
theorem setTo_some (v c : Nat) : setTo v (some c) = (max c v, decide (v < c)) := by
  unfold setTo
  dsimp only
  split
  next h => rw [max_eq_left h.le, decide_eq_true h]
  next h => rw [max_eq_right (not_lt.mp h), decide_eq_false h]

/-- An answer leaves the clock. -/
theorem State.Answered.clock {s u : State} {tag : Option HostTag} {r : Sector} {x : Result} {d : Details}
    (h : s.Answered u tag r x d) : u.clock = s.clock := by rw [h.rest]

/-- SET_CLOCK's answer, on the state that its expiry test leaves. -/
theorem answered_setClockBody {s : State} {tag : Option HostTag} {r : Sector} {st : Stage} {now : Nat} {held : Bool}
    (hw : s.waiting tag r st) (hset : setTo (clockValue r) s.clock = (now, held)) :
    (setClockBody r s).clock = some now ∧
    (expiryTest { s with clock := some now }).Answered (setClockBody r s) tag r .ok
      (.clock now held s.clock.isNone (allSlots.filter fun i => (s.slot i).expires (some now)).length) := by
  have ht := tested_expiryTest { s with clock := some now }
  have hwait : (expiryTest { s with clock := some now }).waiting tag r st :=
    State.waiting_of_executing hw (by rw [ht.win])
  have hans := answered_finishControl .ok
    (.clock now held s.clock.isNone (allSlots.filter fun i => (s.slot i).expires (some now)).length) hwait
  have hbody : setClockBody r s = finishControl .ok
      (.clock now held s.clock.isNone (allSlots.filter fun i => (s.slot i).expires (some now)).length)
      (expiryTest { s with clock := some now }) := by
    unfold setClockBody
    rw [hset]
    rfl
  rw [hbody]
  exact ⟨hans.clock.trans ht.clock, hans⟩

/-- Settles O57, by the two cases of the clock and the expiry test that follows. -/
theorem clockSet : Obligations.ClockSet := by
  intro s tag r hp v now held
  have hset : setTo (clockValue r) s.accepted.clock = (now, held) := by
    show setTo v s.clock = (now, held)
    cases hc : s.clock with
    | none => simp only [now, held, hc, setTo_none]
    | some c => simp only [now, held, hc, setTo_some]
  obtain ⟨hclock, hans⟩ := answered_setClockBody hp.waiting_base hset
  exact ⟨setClockBody r s.accepted, act_runControl (ok := noFields) (body := setClockBody) hp rfl, hclock, hans⟩

end Sys2Proof.Machine
end

section
/-!
SUPPORT, and O17. The violation monitor's operations: what each reaction, the window deadline and an acknowledgement
leave, one equation for each state they meet (R179, R181 to R185).
-/

namespace Sys2Proof.Machine

/-! ### The reactions (R179, R181 to R183) -/

theorem Monitor.count_counters (m : Monitor) (k : Violation) (j : Fin 10) : (m.count k).counters[j] =
    if j = k.ix then min Config.maxCount16 (m.counters[j] + 1) else m.counters[j] := by
  show (m.counters.set k.ix.val _ k.ix.isLt)[j.val] = _
  rw [Vector.getElem_set]
  by_cases h : j = k.ix
  · subst h; rw [if_pos rfl, if_pos rfl]
  · rw [if_neg fun e => h (Fin.ext e.symm), if_neg h]; rfl

/-- A kind in the alarmed set makes it not empty. -/
theorem alarmed_join_ne (a : BitVec 10) (k : Violation) : a ||| k.bit ≠ 0#10 := fun e =>
  absurd (BitVec.or_eq_zero_iff.mp e).2 (by cases k <;> decide)

theorem inKinds_iff {a : BitVec 10} {k : Violation} : inKinds a k = true ↔ a &&& k.bit ≠ 0#10 := decide_eq_true_iff

theorem alarmReaction_normal {s : State} (k : Violation) (h : s.mon.state = .normal) : alarmReaction k s =
    ({ s with mon := { s.mon.join k with
        state := .alarm, deadline := some { length := s.mon.window, since := s.freeReads } } } : State).setFlag .alarm := by
  unfold alarmReaction; rw [h]

theorem alarmReaction_new {s : State} {k : Violation} (h : s.mon.state = .alarm) (hk : s.mon.alarmed &&& k.bit = 0#10) :
    alarmReaction k s = ({ s with mon := s.mon.join k } : State).setFlag .alarm := by
  unfold alarmReaction
  rw [h]
  exact if_neg fun e => inKinds_iff.mp e hk

theorem alarmReaction_again {s : State} {k : Violation} (h : s.mon.state = .alarm)
    (hk : s.mon.alarmed &&& k.bit ≠ 0#10) : alarmReaction k s = s := by
  unfold alarmReaction
  rw [h]
  exact if_pos (inKinds_iff.mpr hk)

theorem alarmReaction_lockdown {s : State} (k : Violation) (h : s.mon.state = .lockdown) :
    alarmReaction k s = { s with mon := s.mon.join k } := by
  unfold alarmReaction; rw [h]

theorem faultReaction_lockdown {s : State} (k : Violation) (h : s.mon.state = .lockdown) :
    faultReaction k s = { s with mon := s.mon.join k } := by
  unfold faultReaction; rw [h]

theorem faultReaction_enters {s : State} (k : Violation) (h : s.mon.state ≠ .lockdown) : faultReaction k s =
    ({ s with mon := { s.mon.join k with state := .lockdown, deadline := none } } : State).setFlag .lockdown := by
  unfold faultReaction
  cases hs : s.mon.state with
  | lockdown => exact absurd hs h
  | normal => rfl
  | alarm => rfl

theorem haltSlots_mon (named : List SlotIx) (s : State) : (haltSlots named s).mon = s.mon :=
  (traffic_haltSlots named s).keeps.mon

/-- HALT sets the halted flag of each named slot that is not IDLE, and no more (R181). -/
theorem haltSlots_slot (named : List SlotIx) (s : State) (i : SlotIx) : (haltSlots named s).slot i =
    if i ∈ named ∧ (s.slot i).phase ≠ .idle then { s.slot i with halted := true } else s.slot i := by
  induction named generalizing s with
  | nil => exact (if_neg fun h => absurd h.1 List.not_mem_nil).symm
  | cons j l ih =>
    show (haltSlots l (if (s.slot j).phase = .idle then s else _)).slot i = _
    rw [ih]
    by_cases hj : (s.slot j).phase = .idle
    · rw [if_pos hj]
      by_cases hij : i = j
      · subst hij; rw [if_neg fun h => h.2 hj, if_neg fun h => h.2 hj]
      · simp only [List.mem_cons, hij, false_or]
    · rw [if_neg hj]
      by_cases hij : i = j
      · subst hij
        rw [State.slot_modSlot_same]
        refine Eq.trans ?_ (if_pos ⟨List.mem_cons_self, hj⟩).symm
        split <;> rfl
      · rw [State.slot_modSlot_other _ _ _ _ hij]
        simp only [List.mem_cons, hij, false_or]

section violate
variable {k : Violation} {s : State} (named : List SlotIx)

theorem violate_of_count (h : s.mon.reactions[k.ix] = .count) :
    violate k named s = { s with mon := s.mon.count k } := by
  unfold violate Monitor.reaction; rw [h]

theorem violate_of_halt (h : s.mon.reactions[k.ix] = .halt) :
    violate k named s = haltSlots named { s with mon := s.mon.count k } := by
  unfold violate Monitor.reaction; rw [h]

theorem violate_of_alarm (h : s.mon.reactions[k.ix] = .alarm) :
    violate k named s = alarmReaction k { s with mon := s.mon.count k } := by
  unfold violate Monitor.reaction; rw [h]

theorem violate_of_fault (h : s.mon.reactions[k.ix] = .fault) :
    violate k named s = faultReaction k { s with mon := s.mon.count k } := by
  unfold violate Monitor.reaction; rw [h]

end violate

/-! ### The window deadline (R185) -/

theorem deadlineReached_alarm {s : State} (h : s.mon.state = .alarm) : deadlineReached s =
    ({ s with mon := { s.mon with state := .lockdown, deadline := none } } : State).setFlag .lockdown := by
  unfold deadlineReached; rw [h]

theorem deadlineReached_other {s : State} (h : s.mon.state ≠ .alarm) : deadlineReached s = s := by
  unfold deadlineReached
  cases hs : s.mon.state with
  | alarm => exact absurd hs h
  | normal => rfl
  | lockdown => rfl

theorem deadlineEnds_alarm {s : State} (h : s.mon.state = .alarm) : deadlineEnds s =
    pump (({ s with mon := { s.mon with state := .lockdown, deadline := none } } : State).setFlag .lockdown) :=
  (if_pos h).trans (congrArg pump (deadlineReached_alarm h))

theorem deadlineEnds_other {s : State} (h : s.mon.state ≠ .alarm) : deadlineEnds s = s := if_neg h

theorem exec_windowDeadline {s : State} (hr : s.inReset = false) :
    exec .windowDeadline s = .next (deadlineEnds s.quiet) := act_running s deadlineEnds hr

/-- Settles O17: the counter is set by `count`, and each reaction acts by its own equation. -/
theorem monitorReacts : Obligations.MonitorReacts := by
  refine ⟨fun k named s => ⟨fun j => ?_, violate_of_count named, fun h => ⟨?_, fun i => ?_⟩, fun h hs => ?_,
    fun h hs hk => ?_, fun h hs hk => ?_, fun h hs => ?_, fun h hs => ?_⟩, fun s hr hs => ?_, fun s hr hs => ?_⟩
  · rw [violate_counters]
    exact s.mon.count_counters k j
  · rw [violate_of_halt named h, haltSlots_mon]
  · rw [violate_of_halt named h, haltSlots_slot]
    rfl
  · exact (violate_of_alarm named h).trans (alarmReaction_normal k hs)
  · exact (violate_of_alarm named h).trans (alarmReaction_new hs hk)
  · exact (violate_of_alarm named h).trans (alarmReaction_again hs hk)
  · rcases h with h | h
    · exact (violate_of_alarm named h).trans (alarmReaction_lockdown k hs)
    · exact (violate_of_fault named h).trans (faultReaction_lockdown k hs)
  · exact (violate_of_fault named h).trans (faultReaction_enters k hs)
  · exact (exec_windowDeadline hr).trans (congrArg _ (deadlineEnds_alarm (s := s.quiet) hs))
  · exact (exec_windowDeadline hr).trans (congrArg _ (deadlineEnds_other (s := s.quiet) hs))

end Sys2Proof.Machine
end

section
/-!
SUPPORT, and O4. The monitor's invariant over single moves and whole steps (R177, R182, R184).
-/

namespace Sys2Proof.Machine

/-! ### Acknowledgement and the clearing of flags (R184, R188) -/

theorem Monitor.acknowledge_idle {m : Monitor} (kinds : BitVec 10) (h : m.state ≠ .alarm) :
    m.acknowledge kinds = m := by
  unfold Monitor.acknowledge
  cases hs : m.state with
  | alarm => exact absurd hs h
  | normal => rfl
  | lockdown => rfl

theorem Monitor.acknowledge_all {m : Monitor} {kinds : BitVec 10} (h : m.state = .alarm)
    (hk : m.alarmed &&& ~~~kinds = 0#10) :
    m.acknowledge kinds = { m with state := .normal, alarmed := 0#10, deadline := none } := by
  unfold Monitor.acknowledge; rw [h]; exact if_pos hk

theorem Monitor.acknowledge_some {m : Monitor} {kinds : BitVec 10} (h : m.state = .alarm)
    (hk : m.alarmed &&& ~~~kinds ≠ 0#10) : m.acknowledge kinds = { m with alarmed := m.alarmed &&& ~~~kinds } := by
  unfold Monitor.acknowledge; rw [h]; exact if_neg hk

theorem clearFlags_alarm {s : State} (events : BitVec 8) (h : s.mon.state = .alarm) : clearFlags events s =
    { s with win := { s.win with flags := s.win.flags &&& (~~~events ||| 2#8) } } := by
  unfold clearFlags; rw [if_pos h]; rfl

theorem clearFlags_other {s : State} (events : BitVec 8) (h : s.mon.state ≠ .alarm) : clearFlags events s =
    { s with win := { s.win with flags := s.win.flags &&& ~~~events } } := by
  unfold clearFlags; rw [if_neg h]; simp only [BitVec.or_zero]

/-- The ALARM flag outlasts CLEAR_EVENTS while the monitor is in ALARM (R184). -/
theorem hasFlag_clearFlags {s : State} (events : BitVec 8) (h : s.mon.state = .alarm) (hf : s.hasFlag .alarm = true) :
    (clearFlags events s).hasFlag .alarm = true := by
  have keep : ∀ x y : BitVec 8, (x &&& (~~~y ||| 2#8)) &&& 2#8 = x &&& 2#8 := fun x y => by
    rw [BitVec.and_assoc, BitVec.and_comm (~~~y ||| 2#8), BitVec.and_or_distrib_left, BitVec.and_self]
    ext i hi
    simp only [BitVec.getElem_and, BitVec.getElem_or]
    cases (2#8)[i] <;> simp
  rw [clearFlags_alarm events h]
  refine decide_eq_true fun e => of_decide_eq_true hf ?_
  exact (keep s.win.flags events).symm.trans e

theorem Monitor.resumed_normal {m : Monitor} (h : m.state = .normal) : m.resumed = m := by
  unfold Monitor.resumed; rw [h]

theorem Monitor.resumed_other {m : Monitor} (h : m.state ≠ .normal) :
    m.resumed = { m with state := .normal, alarmed := 0#10, deadline := none } := by
  unfold Monitor.resumed
  cases hs : m.state with
  | normal => exact absurd hs h
  | alarm => rfl
  | lockdown => rfl

/-! ### The invariant -/

namespace State.MonOk

variable {s t : State}

/-- The invariant speaks of the monitor and the flags alone. -/
theorem congr (h : s.MonOk) (hm : t.mon = s.mon) (hf : t.win.flags = s.win.flags) : t.MonOk where
  counters k := by rw [hm]; exact h.counters k
  window := by rw [hm]; exact h.window
  deadline := by rw [hm]; exact h.deadline
  normal := by rw [hm]; exact h.normal
  alarm := by rw [hm]; exact h.alarm
  flag e := by unfold State.hasFlag; rw [hf]; exact h.flag (hm ▸ e)

theorem count (h : s.MonOk) (k : Violation) : ({ s with mon := s.mon.count k } : State).MonOk :=
  { h with
    counters := fun j => by
      refine (s.mon.count_counters k j).trans_le ?_
      split
      · exact Nat.min_le_left _ _
      · exact h.counters j }

theorem setFlag (h : s.MonOk) (f : EventFlag) : (s.setFlag f).MonOk :=
  { h with flag := fun e => hasFlag_setFlag_of s f .alarm (h.flag e) }

/-- A monitor outside ALARM, its deadline absent, needs no flag. -/
theorem outside (h : s.MonOk) {m : Monitor} (hc : m.counters = s.mon.counters) (hw : m.window = s.mon.window)
    (hd : m.deadline = none) (ha : m.state ≠ .alarm) (hn : m.state = .normal → m.alarmed = 0#10) :
    ({ s with mon := m } : State).MonOk where
  counters k := by show m.counters[k] ≤ _; rw [hc]; exact h.counters k
  window := by show 10 ≤ m.window ∧ m.window ≤ 60000; rw [hw]; exact h.window
  deadline := by show m.deadline.isSome = true ↔ _; rw [hd]; exact ⟨nofun, fun e => absurd e ha⟩
  normal := hn
  alarm e := absurd e ha
  flag e := absurd e ha

theorem deadline_none (h : s.MonOk) (hs : s.mon.state ≠ .alarm) : s.mon.deadline = none :=
  Option.not_isSome_iff_eq_none.mp fun e => hs (h.deadline.mp e)

/-- A kind joins the alarmed set outside NORMAL. -/
theorem join (h : s.MonOk) (k : Violation) (hs : s.mon.state ≠ .normal) :
    ({ s with mon := s.mon.join k } : State).MonOk :=
  { h with normal := fun e => absurd e hs, alarm := fun _ => alarmed_join_ne s.mon.alarmed k }

theorem alarmReaction (h : s.MonOk) (k : Violation) : (alarmReaction k s).MonOk := by
  cases hs : s.mon.state with
  | normal =>
    rw [alarmReaction_normal k hs]
    exact ⟨h.counters, h.window, iff_of_true rfl rfl, nofun, fun _ => alarmed_join_ne s.mon.alarmed k,
      fun _ => hasFlag_setFlag _ .alarm⟩
  | alarm =>
    by_cases hk : s.mon.alarmed &&& k.bit = 0#10
    · rw [alarmReaction_new hs hk]
      exact (h.join k (by rw [hs]; decide)).setFlag .alarm
    · rw [alarmReaction_again hs hk]
      exact h
  | lockdown =>
    rw [alarmReaction_lockdown k hs]
    exact h.join k (by rw [hs]; decide)

theorem faultReaction (h : s.MonOk) (k : Violation) : (faultReaction k s).MonOk := by
  by_cases hs : s.mon.state = .lockdown
  · rw [faultReaction_lockdown k hs]
    exact h.join k (by rw [hs]; decide)
  · rw [faultReaction_enters k hs]
    refine setFlag ?_ .lockdown
    exact h.outside rfl rfl rfl nofun nofun

theorem deadlineReached (h : s.MonOk) : (deadlineReached s).MonOk := by
  by_cases hs : s.mon.state = .alarm
  · rw [deadlineReached_alarm hs]
    refine setFlag ?_ .lockdown
    exact h.outside rfl rfl rfl nofun nofun
  · rw [deadlineReached_other hs]
    exact h

theorem acknowledge (h : s.MonOk) (kinds : BitVec 10) :
    ({ s with mon := s.mon.acknowledge kinds } : State).MonOk := by
  by_cases hs : s.mon.state = .alarm
  · by_cases hk : s.mon.alarmed &&& ~~~kinds = 0#10
    · rw [Monitor.acknowledge_all hs hk]
      exact h.outside rfl rfl rfl nofun fun _ => rfl
    · rw [Monitor.acknowledge_some hs hk]
      exact { h with normal := fun e => absurd (hs.symm.trans e) nofun, alarm := fun _ => hk }
  · rw [Monitor.acknowledge_idle kinds hs]
    exact h

theorem clearFlags (h : s.MonOk) (events : BitVec 8) : (clearFlags events s).MonOk :=
  { h with flag := fun e => hasFlag_clearFlags events e (h.flag e) }

theorem resumed (h : s.MonOk) : ({ s with mon := s.mon.resumed } : State).MonOk := by
  by_cases hs : s.mon.state = .normal
  · rw [Monitor.resumed_normal hs]
    exact h
  · rw [Monitor.resumed_other hs]
    exact h.outside rfl rfl rfl nofun fun _ => rfl

end State.MonOk

/-! ### Steps keep it -/

theorem Move.monOk {L : Prop} {s t : State} (h : Move L s t) (hs : s.MonOk) : t.MonOk := by
  cases h with
  | traffic h => exact hs.congr h.keeps.mon h.keeps.flags
  | flag f => exact hs.setFlag f
  | clearFlags e => exact hs.clearFlags e
  | count k => exact hs.count k
  | alarm k => exact hs.alarmReaction k
  | fault k => exact hs.faultReaction k
  | deadline => exact hs.deadlineReached
  | reactions rs w h => exact { hs with window := h.elim id fun e => e ▸ hs.window }
  | acknowledge kinds => exact hs.acknowledge kinds
  | refusal r => exact { hs with }
  | _ => exact hs.congr rfl rfl

theorem Moves.monOk {L : Prop} {s t : State} (h : Moves L s t) (hs : s.MonOk) : t.MonOk := by
  induction h with
  | refl => exact hs
  | tail _ m ih => exact m.monOk ih

theorem Did.monOk {c : Instr} {s t : State} (h : Did c s t) (hs : s.MonOk) : t.MonOk := by
  cases h with
  | hardReset _ ht => subst ht; exact reset_monOk.congr rfl rfl
  | released _ _ ht => subst ht; exact hs.congr rfl rfl
  | moved h => exact h.monOk hs
  | accepted _ _ h => exact h.monOk (hs.congr rfl rfl)
  | resumed _ _ h => exact hs.resumed.congr h.keeps.mon h.keeps.flags

/-- Settles O4: every move of the monitor or the flags keeps the invariant, and so do a hard reset and RESUME. -/
theorem monitorKept : Obligations.MonitorKept := by
  intro s t hs h
  unfold step at h
  split at h
  · injection h with h
    subst h
    exact hs
  · exact (exec_cases h).monOk (hs.congr rfl rfl)

end Sys2Proof.Machine
end

section
/-!
SUPPORT, O7 and O8. What a step that begins in LOCKDOWN can do: it leaves LOCKDOWN by RESUME or a hard reset alone, and no
protected piece enters the command table (R185, R187, R188, R190).
-/

namespace Sys2Proof.Machine

/-- A command that leaves LOCKDOWN is a hard reset or an authentic RESUME: nothing else is more than moves. -/
theorem Did.leavesLockdown {c : Instr} {s t : State} (h : Did c s t) (hs : s.mon.state = .lockdown)
    (ht : t.mon.state ≠ .lockdown) : c = .hardReset ∨ (c = .resume ∧ ∃ tag r, s.handed tag r ∧ s.authentic r) := by
  cases h with
  | hardReset hc _ => exact .inl hc
  | released _ _ e => subst e; exact absurd hs ht
  | moved h => exact absurd (h.lockdown hs) ht
  | accepted _ _ h => exact absurd (h.lockdown hs) ht
  | resumed hc ha _ => exact .inr ⟨hc, ha⟩

/-- Settles O7: the part idles, or the command at the front is one of the two that leave LOCKDOWN. -/
theorem lockdownLeftByResume : Obligations.LockdownLeftByResume := by
  intro s t hs h ht
  unfold step at h
  split at h
  · injection h with h
    subst h
    exact absurd hs ht
  · rename_i c rest hp
    rw [hp, List.head?_cons]
    exact ((exec_cases h).leavesLockdown hs ht).imp (congrArg some) (And.imp_left (congrArg some))

/-! ### The table in LOCKDOWN (R187) -/

/-- Every command of t's table with a protected piece was in s's table, with the same pieces. -/
def ProtectedFrom (s t : State) : Prop :=
  ∀ c ∈ t.table, (∃ p ∈ c.pieces, p.isProtected = true) → ∃ d ∈ s.table, d.tag = c.tag ∧ d.pieces = c.pieces

namespace ProtectedFrom

theorem of_subset {s t : State} (h : t.table ⊆ s.table) : ProtectedFrom s t := fun c hc _ => ⟨c, h hc, rfl, rfl⟩

theorem of_eq {s t : State} (h : t.table = s.table) : ProtectedFrom s t := of_subset fun _ hc => h ▸ hc

theorem trans {s t u : State} (h : ProtectedFrom s t) (k : ProtectedFrom t u) : ProtectedFrom s u := by
  intro c hc hp
  obtain ⟨d, hd, ht, hs⟩ := k c hc hp
  obtain ⟨e, he, ht', hs'⟩ := h d hd (hs ▸ hp)
  exact ⟨e, he, ht'.trans ht, hs'.trans hs⟩

/-- A command without protected pieces joins the table. -/
theorem of_append {s t : State} {c : Cmd} (h : t.table = s.table ++ [c])
    (hc : ∀ p ∈ c.pieces, p.isProtected = false) : ProtectedFrom s t := by
  intro d hd hp
  rw [h] at hd
  rcases List.mem_append.mp hd with hd | hd
  · exact ⟨d, hd, rfl, rfl⟩
  · obtain rfl := List.mem_singleton.mp hd
    obtain ⟨p, hm, hp⟩ := hp
    exact absurd hp (by rw [hc p hm]; exact Bool.false_ne_true)

end ProtectedFrom

theorem TMove.protectedFrom {s t : State} (h : TMove s t) : ProtectedFrom s t := by
  cases h with
  | dropCmds p => exact .of_subset fun _ => List.mem_of_mem_filter
  | modCmds g _ hp =>
    intro c hc _
    obtain ⟨d, hd, rfl⟩ := List.mem_map.mp hc
    obtain ⟨e, he, ht, hs⟩ := hp d hd
    exact ⟨e, he, ht.symm, hs.symm⟩
  | _ => exact .of_eq rfl

theorem Traffic.protectedFrom {s t : State} (h : Traffic s t) : ProtectedFrom s t := by
  induction h with
  | refl => exact .of_eq rfl
  | tail _ m ih => exact ih.trans m.protectedFrom

theorem Move.protectedFrom {L : Prop} (l : L) {s t : State} (h : Move L s t) : ProtectedFrom s t := by
  cases h with
  | traffic h => exact h.protectedFrom
  | alarm k => exact .of_eq (by rw [alarmReaction_rest])
  | fault k => exact .of_eq (by rw [faultReaction_rest])
  | deadline => exact .of_eq (by rw [deadlineReached_rest])
  | admitted c _ hl => exact .of_append rfl (hl l)
  | admitHeld c _ hp => exact .of_append rfl fun p h => by rw [hp] at h; cases h
  | _ => exact .of_eq rfl

theorem Moves.protectedFrom {L : Prop} (l : L) {s t : State} (h : Moves L s t) : ProtectedFrom s t := by
  induction h with
  | refl => exact .of_eq rfl
  | tail _ m ih => exact ih.trans (m.protectedFrom l)

theorem Did.protectedFrom {c : Instr} {s t : State} (h : Did c s t) (hs : s.mon.state = .lockdown) :
    ProtectedFrom s t := by
  cases h with
  | hardReset _ ht => subst ht; exact fun _ hc => absurd hc List.not_mem_nil
  | released _ _ ht => subst ht; exact .of_eq rfl
  | moved h => exact h.protectedFrom hs
  | accepted _ _ h =>
    have drawn : ProtectedFrom s s.quiet.drawNonce := .of_eq rfl
    exact drawn.trans (h.protectedFrom hs)
  | resumed _ _ h =>
    have freed : ProtectedFrom s { s.quiet.drawNonce with mon := s.mon.resumed } := .of_eq rfl
    exact freed.trans h.protectedFrom

/-- Settles O8: in LOCKDOWN an admission is the only move that adds a command, and it has no protected piece. -/
theorem lockdownAdmitsNothingProtected : Obligations.LockdownAdmitsNothingProtected := by
  intro s t hs h
  unfold step at h
  split at h
  · injection h with h
    subst h
    exact ProtectedFrom.of_eq rfl
  · exact (exec_cases h).protectedFrom hs

end Sys2Proof.Machine
end

section
/-!
SUPPORT, and O59. CLEAR_EVENTS and RESUME (R184, R188).
-/

namespace Sys2Proof.Machine

/-- CLEAR_EVENTS is not authorised. -/
theorem exec_clearEvents {s : State} {tag : Option HostTag} {r : Sector}
    (h : s.Passes { code := 17, inUnformatted := true, inLockdown := true } tag r) :
    exec .clearEvents s = .next (pump (clearEventsBody r s.quiet)) ∧ s.quiet.waiting tag r .handed :=
  ⟨act_runControl (ok := noFields) (body := clearEventsBody) h rfl, h.handed⟩

/-- RESUME acts on the state with the nonce replaced (R188, R196). -/
theorem exec_resume {s : State} {tag : Option HostTag} {r : Sector}
    (h : s.Passes { code := 18, authorised := true, inUnformatted := true, inLockdown := true } tag r) :
    exec .resume s = .next (pump (resumeBody r s.accepted)) ∧ s.accepted.waiting tag r .handed :=
  ⟨act_runControl (ok := noFields) (body := resumeBody) h rfl, h.waiting_base⟩

/-- The flags that CLEAR_EVENTS with this mask leaves, the monitor being in state x (R184). -/
def flagsLeft (flags events : BitVec 8) (x : MonState) : BitVec 8 :=
  flags &&& if x = .alarm then ~~~events ||| 2#8 else ~~~events

theorem flagsLeft_alarm (flags events : BitVec 8) {x : MonState} (h : x = .alarm) :
    flagsLeft flags events x = flags &&& (~~~events ||| 2#8) := congrArg (flags &&& ·) (if_pos h)

theorem flagsLeft_other (flags events : BitVec 8) {x : MonState} (h : x ≠ .alarm) :
    flagsLeft flags events x = flags &&& ~~~events := congrArg (flags &&& ·) (if_neg h)

theorem clearFlags_eq (events : BitVec 8) (s : State) : clearFlags events s =
    { s with win := { s.win with flags := flagsLeft s.win.flags events s.mon.state } } := by
  by_cases h : s.mon.state = .alarm
  · rw [clearFlags_alarm events h, flagsLeft_alarm _ _ h]
  · rw [clearFlags_other events h, flagsLeft_other _ _ h]

/-- The result of CLEAR_EVENTS: LATE where it names a kind in LOCKDOWN (R184). -/
def clearResult (x : MonState) (kinds : BitVec 10) : Result := if x = .lockdown ∧ kinds ≠ 0#10 then .late else .ok

/-- CLEAR_EVENTS takes the kinds, then clears the flags, and answers with the monitor as it stands then (R184). -/
theorem answered_clearEventsBody {s : State} {tag : Option HostTag} {r : Sector} (hw : s.waiting tag r .handed) :
    let m := s.mon.acknowledge (recKindMask r)
    ({ s with mon := m, win := { s.win with flags := flagsLeft s.win.flags (recEventMask r) m.state } } : State).Answered
      (clearEventsBody r s) tag r (clearResult s.mon.state (recKindMask r)) (.monitor m.state m.alarmed) := by
  unfold clearEventsBody clearResult
  simp only [Bool.and_eq_true, decide_eq_true_eq]
  rw [clearFlags_eq]
  exact answered_finishControl _ _ hw

/-- Settles O59, by the state of the monitor and what the kind mask leaves of the alarmed set. -/
theorem eventsCleared : Obligations.EventsCleared := by
  refine ⟨fun s tag r hp => ?_, fun s tag r hp => ?_⟩
  · intro events kinds left cleared
    obtain ⟨hrun, hw⟩ := exec_clearEvents hp
    have answers : ∀ {m : Monitor} {f : BitVec 8} {x : Result}, s.mon.acknowledge kinds = m →
        flagsLeft s.win.flags events m.state = f → clearResult s.mon.state kinds = x → cleared f m x := by
      rintro _ _ _ rfl rfl rfl
      exact ⟨_, hrun, answered_clearEventsBody hw⟩
    have stays {f : BitVec 8} {x : Result} (ha : s.mon.state ≠ .alarm) :=
      answers (f := f) (x := x) (Monitor.acknowledge_idle kinds ha)
    refine ⟨fun hs => ?_, fun hs hk => ?_, fun hs hk => ?_, fun hs hk => ?_, fun hs hk => ?_⟩
    · have ha : s.mon.state ≠ .alarm := by rw [hs]; decide
      exact stays ha (flagsLeft_other _ _ ha) (by rw [hs]; rfl)
    · exact answers (Monitor.acknowledge_all hs hk) (flagsLeft_other _ _ nofun) (by rw [hs]; rfl)
    · exact answers (Monitor.acknowledge_some hs hk) (flagsLeft_alarm _ _ hs) (by rw [hs]; rfl)
    · have ha : s.mon.state ≠ .alarm := by rw [hs]; decide
      exact stays ha (flagsLeft_other _ _ ha) (if_neg fun e => e.2 hk)
    · have ha : s.mon.state ≠ .alarm := by rw [hs]; decide
      exact stays ha (flagsLeft_other _ _ ha) (if_pos ⟨hs, hk⟩)
  · obtain ⟨hrun, hw⟩ := exec_resume hp
    have answers : ∀ {m : Monitor}, s.mon.resumed = m → ({ s.accepted with mon := m } : State).Answered
        (resumeBody r s.accepted) tag r .ok (.monitor s.mon.state s.mon.alarmed) := by
      rintro _ rfl
      exact answered_finishControl .ok (.monitor s.mon.state s.mon.alarmed)
        (s := { s.accepted with mon := s.mon.resumed }) hw
    refine ⟨fun hs => ⟨_, hrun, ?_⟩, fun hs => ⟨_, hrun, answers (Monitor.resumed_other hs)⟩⟩
    have h := answers (Monitor.resumed_normal hs)
    rwa [hs] at h

end Sys2Proof.Machine
end

section
/-!
SUPPORT, and O9. What a step does to the key generator and to the nonce (R133, R196).
-/

namespace Sys2Proof.Machine

/-- No move takes the key generator back (R133). -/
theorem Move.draws_le {L : Prop} {s t : State} (h : Move L s t) : s.draws ≤ t.draws := by
  cases h with
  | traffic h => exact h.keeps.draws.ge
  | draw => exact Nat.le_succ _
  | alarm k => rw [alarmReaction_rest]
  | fault k => rw [faultReaction_rest]
  | deadline => rw [deadlineReached_rest]
  | _ => exact Nat.le_refl _

theorem Moves.draws_le {L : Prop} {s t : State} (h : Moves L s t) : s.draws ≤ t.draws := by
  induction h with
  | refl => exact Nat.le_refl _
  | tail _ m ih => exact ih.trans m.draws_le

/-- The nonce of t is the value that the key generator of s gives next, and t's generator is beyond it (R196). -/
def NonceDrawn (s t : State) : Prop := t.win.nonce = Config.nonce s.draws ∧ s.draws < t.draws

/-- Moves that follow a drawn nonce leave it (R196). -/
theorem Moves.nonceDrawn {L : Prop} {s u t : State} (h : Moves L u t) (hu : NonceDrawn s u) : NonceDrawn s t := by
  obtain ⟨hnonce, hdraws⟩ := hu
  exact ⟨h.stays.nonce.trans hnonce, hdraws.trans_le h.draws_le⟩

/-- The nonce stays but for a hard reset, the release of RESET_N and the acceptance of an authorised command (R196). -/
theorem Did.nonce {c : Instr} {s t : State} (h : Did c s t) :
    t.win.nonce = s.win.nonce ∧ s.draws ≤ t.draws ∨ c = .hardReset ∧ t.draws = s.draws ∨
      NonceDrawn s t ∧ (c = .resetRelease ∧ s.inReset = true ∨
        c ∈ authorisedCommands ∧ ∃ tag r, s.handed tag r ∧ s.authentic r) := by
  have hdrawn : NonceDrawn s s.quiet.drawNonce := ⟨rfl, Nat.lt_succ_self _⟩
  cases h with
  | hardReset hc ht => subst ht; exact .inr (.inl ⟨hc, rfl⟩)
  | released hc hr ht => subst ht; exact .inr (.inr ⟨hdrawn, .inl ⟨hc, hr⟩⟩)
  | moved h => exact .inl ⟨h.stays.nonce, h.draws_le⟩
  | accepted hc ha h => exact .inr (.inr ⟨h.nonceDrawn hdrawn, .inr ⟨hc, ha⟩⟩)
  | resumed hc ha h =>
    subst hc
    exact .inr (.inr ⟨(h.moves (L := True)).nonceDrawn hdrawn, .inr ⟨by decide, ha⟩⟩)

/-- Settles O9: the part idles, or the command at the front replaces the nonce in one of the three ways or leaves it. -/
theorem nonceAndGenerator : Obligations.NonceAndGenerator := by
  intro s t h
  unfold step at h
  split at h
  · injection h with h
    subst h
    exact ⟨Nat.le_refl _, .inl rfl⟩
  · rename_i c rest hp
    rw [hp, List.head?_cons]
    rcases (exec_cases h).nonce with ⟨hnonce, hdraws⟩ | ⟨hc, hdraws⟩ | ⟨⟨hnonce, hdraws⟩, hwhy⟩
    · exact ⟨hdraws, .inl hnonce⟩
    · exact ⟨hdraws.ge, .inr (.inl (congrArg some hc))⟩
    · refine ⟨hdraws.le, .inr (.inr ⟨hnonce, hdraws, ?_⟩)⟩
      exact hwhy.imp (And.imp_left (congrArg some)) fun ⟨hc, ha⟩ => ⟨c, hc, rfl, ha⟩

end Sys2Proof.Machine
end

section
/-!
SUPPORT. What the taking of held commands leaves alone (R69, R73, R205).
-/

namespace Sys2Proof.Machine

/-- Commands have been taken or refused between s and u: what taking them leaves alone is as it was. -/
def Admits (s u : State) : Prop := u = { s with
  host := u.host, table := u.table, slots := u.slots, buffer := u.buffer, drive := u.drive, mon := u.mon, win := u.win,
  draws := u.draws, stamp := u.stamp }

namespace Admits

theorem refl (s : State) : Admits s s := rfl

theorem trans {s t u : State} (h : Admits s t) (k : Admits t u) : Admits s u := by
  unfold Admits at *; rw [k, h]

theorem foldl {α : Type} {f : State → α → State} (hf : ∀ s a, Admits s (f s a)) :
    ∀ (l : List α) (s : State), Admits s (l.foldl f s)
  | [], s => .refl s
  | a :: l, s => (hf s a).trans (foldl hf l (f s a))

end Admits

theorem Begun.admits {s u : State} (h : Begun s u) : Admits s u := by
  unfold Begun at h; unfold Admits; rw [h]

theorem Violated.admits {s u : State} (h : Violated s u) : Admits s u := by
  unfold Admits; rw [h.rest]

theorem admits_refuse (t : HostTag) (lba count : Nat) (r : Reason) (named : List SlotIx) (s : State) :
    Admits s (refuse t lba count r named s) := by
  unfold Admits; rw [(refuses_refuse t lba count r named s).rest]

theorem admits_refuseAt (t : HostTag) (r : Reason) (range : Option Range) (s : State) :
    Admits s (refuseAt t r range s) := by
  unfold refuseAt; split <;> exact admits_refuse _ _ _ _ _ _

theorem admits_applyTrial (x : Tested) (s : State) : Admits s (applyTrial x s) := by
  unfold applyTrial
  split
  · split <;> rfl
  · rfl

theorem admits_admitData (write : Bool) (t : HostTag) (lba count : Nat) (xs : List Tested) (s : State) :
    Admits s (admitData write t lba count xs s) := by
  have hraise (s : State) (p : Piece) : Admits s (raiseFlight p s) := by unfold Admits; rw [raiseFlight_rest]
  rw [admitData_eq]
  refine Admits.trans ?_ (begun_enterTable _ _).admits
  refine Admits.trans ?_ (violated_countExpired _ _).admits
  exact (Admits.foldl (fun s x => admits_applyTrial x s) xs s).trans (Admits.foldl hraise _ _)

theorem admits_admitRange (write : Bool) (t : HostTag) (lba count : Nat) (s : State) :
    Admits s (admitRange write t lba count s) := by
  unfold admitRange admitBelow
  split
  · exact admits_refuse _ _ _ _ _ _
  · split
    · split
      · split
        · rfl
        · exact admits_refuse _ _ _ _ _ _
      · split
        · exact (begun_enterTable _ _).admits
        · exact admits_refuse _ _ _ _ _ _
    · dsimp only
      split
      · exact admits_refuse _ _ _ _ _ _
      · split
        · exact admits_refuse _ _ _ _ _ _
        · exact admits_admitData _ _ _ _ _ _

theorem admits_takeCommand (a : Arrival) (s : State) : Admits s (takeCommand a s) := by
  have hplain (c : Cmd) : Admits s (admitPlain c s) := (begun_enterTable c s).admits
  unfold takeCommand
  split
  · exact admits_refuseAt _ _ _ _
  · cases a with
    | read t lba count => exact admits_admitRange _ _ _ _ _
    | write t lba count => exact admits_admitRange _ _ _ _ _
    | deallocate t => rfl
    | flush t => exact hplain _
    | identify t => unfold takeKind; dsimp only; split <;> [exact admits_refuseAt _ _ _ _; exact hplain _]
    | pass t words data => unfold takeKind; dsimp only; split <;> [exact admits_refuseAt _ _ _ _; exact hplain _]
    | other t range => exact admits_refuseAt _ _ _ _

theorem admits_takeHeld (s : State) : Admits s (takeHeld s) := by
  have hlist : ∀ (l : List Arrival) (t : State), Admits t (takeHeldList l t) := by
    intro l
    induction l with
    | nil => exact Admits.refl
    | cons a l ih =>
      intro t
      unfold takeHeldList
      split
      · rfl
      · exact (admits_takeCommand a t).trans (ih _)
  exact Admits.trans (t := { s with host := { s.host with held := [] } }) rfl (hlist _ _)

end Sys2Proof.Machine
end

section
/-!
SUPPORT, O14 and O15. The drive's identity and the start-up limit (R142, R144, R204 to R206).
-/

namespace Sys2Proof.Machine

/-! ### The identity (R142, R144, R204) -/

theorem suitable_iff {d : Identity} : suitable d = true ↔ 2097152 ≤ d.capacity ∧ d.queued = true ∧ 32 ≤ d.depth := by
  unfold suitable Config.smallestDrive
  simp only [Bool.and_eq_true, decide_eq_true_eq, and_assoc]

section identity

variable {s : State} {a : Option Identity}

theorem exec_driveIdentity (hr : s.inReset = false) :
    exec (.driveIdentity a) s = .next (identityArrives a s.quiet) := act_running s (identityArrives a) hr

theorem identityArrives_suitable {d : Identity} (hp : s.phase = .starting) (hi : s.identity = none)
    (ha : s.drive.asking = true) (hd : suitable d = true) : identityArrives (some d) s = takeIdentity d s :=
  (if_pos ⟨hp, hi, ha⟩).trans (if_pos hd)

theorem identityArrives_unsuitable (hp : s.phase = .starting) (hi : s.identity = none) (ha : s.drive.asking = true)
    (hd : ∀ d, a = some d → suitable d = false) : identityArrives a s = enterNoDrive s := by
  refine (if_pos ⟨hp, hi, ha⟩).trans ?_
  cases a with
  | none => rfl
  | some d => exact if_neg (by rw [hd d rfl]; exact Bool.false_ne_true)

/-- An answer that nobody has asked for. -/
theorem identityArrives_unasked (h : s.phase ≠ .starting ∨ s.identity ≠ none ∨ s.drive.asking = false) :
    identityArrives a s = s := by
  refine if_neg fun ⟨hp, hi, ha⟩ => ?_
  rcases h with h | h | h
  · exact h hp
  · exact h hi
  · exact ne_true_of_eq_false h ha

end identity

/-! ### An operation that finds the service tags free (R149) -/

theorem takeTags_empty {s : State} (h : s.cat.queue = []) : ∀ n, takeTags n s = s
  | 0 => rfl
  | n + 1 => by unfold takeTags; rw [h]

theorem freeTag_empty {s : State} (h : s.cat.flights = []) : s.freeTag = some 0 := by
  unfold State.freeTag; rw [h]; rfl

/-- With all tags free and no other operation waiting, an operation takes tag 28. -/
theorem takeTags_alone {s : State} {op : SvcOp} (hq : s.cat.queue = [op]) (hf : s.cat.flights = []) (n : Nat) :
    takeTags (n + 1) s = beginFlight { tag := 0, op := op }
      { s with cat := { s.cat with queue := [], flights := [{ tag := 0, op := op }] } } := by
  have hqueue := (beginFlight_ops { tag := 0, op := op }
    { s with cat := { s.cat with queue := [], flights := [{ tag := 0, op := op }] } }).1
  conv_lhs => unfold takeTags
  rw [hq, freeTag_empty hf, hf]
  exact takeTags_empty hqueue n

/-- A request that finds no other operation is under way at once. -/
theorem requestOp_alone {s : State} {op : SvcOp} {k : SvcKind} {o : SvcOwner} {ext : Option (List RecExtent)}
    (hop : op = { num := s.stamp, kind := k, owner := o, extents := ext }) (hq : s.cat.queue = [])
    (hf : s.cat.flights = []) : requestOp k o ext s = beginFlight { tag := 0, op := op }
      { s with stamp := s.stamp + 1, cat := { s.cat with flights := [{ tag := 0, op := op }] } } := by
  subst hop
  unfold requestOp
  dsimp only
  rw [hq, List.nil_append]
  exact takeTags_alone (s := { s with stamp := s.stamp + 1, cat := { s.cat with queue := [_] } }) rfl hf 3

/-- The area header stands behind the presented capacity (R142). -/
theorem catalogueLba_zero {s : State} {d : Identity} (h : s.identity = some d) :
    s.catalogueLba 0 = d.capacity / 8 * 8 - 8192 := by
  unfold State.catalogueLba State.presented State.topUnit State.driveCapacity Config.hiddenSectors
  rw [h, Nat.mul_zero, Nat.add_zero]

/-- The HEADER_READ of a suitable drive takes service tag 28, under the header's claim (R142, R144, R149, R152). -/
theorem takeIdentity_alone {s : State} (d : Identity) (hq : s.cat.queue = []) (hf : s.cat.flights = [])
    (hc : s.cat.claims = []) : takeIdentity d s = { s with
      identity := some d, stamp := s.stamp + 1,
      drive := { s.drive with asking := false, queue := s.drive.queue ++
        [{ who := .service 0, op := .serviceRead, lba := d.capacity / 8 * 8 - 8192, count := 8 }] },
      cat := { s.cat with
        claims := [{ index := 0, owner := .header }],
        flights := [{ tag := 0, op := { num := s.stamp, kind := .headerRead, owner := .header } }] } } := by
  have hlba {w : State} (hw : w.identity = some d) : serviceCmd 0 .serviceRead 0 w =
      { who := .service 0, op := .serviceRead, lba := d.capacity / 8 * 8 - 8192, count := 8 } := by
    unfold serviceCmd; rw [catalogueLba_zero hw]
  refine (requestOp_alone (s := takeClaim 0 .header
    { s with identity := some d, drive := { s.drive with asking := false } }) rfl hq hf).trans ?_
  unfold beginFlight joinQueue
  dsimp only
  rw [hlba rfl]
  unfold takeClaim
  rw [hc, List.nil_append]

/-- Settles O14: the answer is not asked for, or it is of a drive that the part takes, or it is not. -/
theorem identityAnswered : Obligations.IdentityAnswered := by
  refine ⟨fun s d hr hp hi ha hcap hque hdep hq hf hc => ?_, fun s a hr hp hi ha hd => ?_, fun s a hr h => ?_⟩
  · rw [exec_driveIdentity hr, identityArrives_suitable (s := s.quiet) hp hi ha (suitable_iff.mpr ⟨hcap, hque, hdep⟩),
      takeIdentity_alone (s := s.quiet) d hq hf hc]
    rfl
  · have hall : ∀ d, a = some d → suitable d = false := fun d e => by
      refine Bool.eq_false_iff.mpr fun hs => ?_
      obtain ⟨hcap, hque, hdep⟩ := suitable_iff.mp hs
      rcases hd d e with h | h | h
      · exact absurd hcap (by omega)
      · exact ne_true_of_eq_false h hque
      · exact absurd hdep (by omega)
    rw [exec_driveIdentity hr, identityArrives_unsuitable (s := s.quiet) hp hi ha hall]
    rfl
  · rw [exec_driveIdentity hr, identityArrives_unasked (s := s.quiet) h]
    rfl

/-! ### The start-up limit (R204 to R206) -/

/-- The end of the HEADER_READ leaves the identity, and what the step has sent. -/
theorem headerEnd_keeps (h : HeaderCopy) (s : State) :
    (headerEnd h s).identity = s.identity ∧ (headerEnd h s).out = s.out := by
  rw [headerEnd_eq, admits_takeHeld (headerKnown h s), headerKnown_rest]
  exact ⟨rfl, rfl⟩

/-- The state in which the HEADER_READ has left the lanes, the drive port and the catalogue controller. -/
def State.withoutHeaderRead (s : State) (f : Flight) : State :=
  let s1 := driveCompletes (.service f.tag) (dropJobs (.service f.tag) s)
  endFlight f.tag { s1 with drive := { s1.drive with
    queue := s1.drive.queue.filter fun d => decide (d.who ≠ .service f.tag)
    reissue := s1.drive.reissue.filter fun n => decide (n ≠ f.op.num)
    restart := s1.drive.restart.filter fun n => decide (n ≠ f.op.num) } }

theorem abandonHeader_eq (f : Flight) (s : State) :
    abandonHeader f s = headerEnd .unreadable (resetDriveLink (s.withoutHeaderRead f)) := rfl

theorem State.withoutHeaderRead_rest (s : State) (f : Flight) : s.withoutHeaderRead f = { s with
    cat := (s.withoutHeaderRead f).cat, drive := (s.withoutHeaderRead f).drive, lanes := (s.withoutHeaderRead f).lanes,
    stamp := (s.withoutHeaderRead f).stamp } := by
  unfold State.withoutHeaderRead
  rw [(serviceWork_endFlight f.tag _).rest]
  unfold driveCompletes
  rw [dropJobs_rest]

theorem resetDriveLink_identity (s : State) : (resetDriveLink s).identity = s.identity := by
  rw [resetDriveLink_eq, (fades_failAll .deviceError s.abandonedTags s.linkDown).rest, s.linkDown_eq]

/-- An abandoned HEADER_READ (R144, R204, R205). -/
theorem abandonHeader_spec (f : Flight) (s : State) :
    let u := abandonHeader f s
    u.phase = .unformatted ∧ u.cat.header = .unreadable ∧ s.CountsDamage u ∧ u.drive.link = .resetting ∧
      .driveLinkReset ∈ u.out ∧ u.clock = s.clock ∧ u.identity = s.identity := by
  have hrest := s.withoutHeaderRead_rest f
  obtain ⟨hreset, _⟩ := linkReset_resetDriveLink (s.withoutHeaderRead f)
  obtain ⟨hmon, hclock, _⟩ := hreset.monitor
  obtain ⟨hheader, _, hclock', hphase, hdamage, hdrive⟩ :=
    headerEnd_spec .unreadable (resetDriveLink (s.withoutHeaderRead f))
  obtain ⟨hidentity, hout⟩ := headerEnd_keeps .unreadable (resetDriveLink (s.withoutHeaderRead f))
  obtain ⟨hcount, hflag⟩ := hdamage rfl
  rw [← abandonHeader_eq] at *
  refine ⟨hphase, hheader, ⟨?_, hflag⟩, ?_, ?_, ?_, ?_⟩
  · rw [hcount, hmon, hrest]
  · rw [hdrive]; exact hreset.link
  · rw [hout]; exact hreset.sent
  · rw [hclock', hclock, hrest]
  · rw [hidentity, resetDriveLink_identity, hrest]

theorem exec_startUpLimit {s : State} (hr : s.inReset = false) :
    exec .startUpLimit s = .next (startUpLimitEnds s.quiet) := act_running s startUpLimitEnds hr

theorem startUpLimitEnds_unknown {s : State} (hp : s.phase = .starting) (hi : s.identity = none) :
    startUpLimitEnds s = enterNoDrive s := (if_pos hp).trans (if_pos hi)

theorem startUpLimitEnds_header {s : State} {f : Flight} (hp : s.phase = .starting) (hi : s.identity ≠ none)
    (hf : s.headerFlight = some f) : startUpLimitEnds s = pump (abandonHeader f s) := by
  refine (if_pos hp).trans ((if_neg hi).trans ?_)
  rw [hf]

end Sys2Proof.Machine

namespace Sys2Proof
open Machine

/-- Settles O15: outside STARTING nothing happens, and in it the drive is unknown or its header has not been read. -/
theorem startUpLimitEnds : Obligations.StartUpLimitEnds := by
  refine ⟨fun s hr hp hi => ?_, fun s f hr hp hi hf => ?_, fun s hr hp => ?_⟩
  · rw [exec_startUpLimit hr, startUpLimitEnds_unknown (s := s.quiet) hp hi]
    rfl
  · obtain ⟨hphase, hheader, ⟨hcount, hflag⟩, hlink, hsent, hclock, hidentity⟩ := abandonHeader_spec f s.quiet
    exact ⟨_, by rw [exec_startUpLimit hr, startUpLimitEnds_header (s := s.quiet) hp hi hf], hphase, hheader, hflag, hlink,
      hsent, hcount, hclock, hidentity⟩
  · rw [exec_startUpLimit hr]
    exact congrArg _ (if_neg hp)

end Sys2Proof
end

section
/-!
SUPPORT, and O49. The checks of a record in their order (R194 to R198).
-/

namespace Sys2Proof.Machine

/-! ### The fields of a record (R195, section 11.9) -/

theorem slotOk_iff {r : Sector} : slotOk r = true ↔ recSlot r ≤ 7 := by
  unfold slotOk slotOfNat
  split <;> simp <;> omega

theorem classOfNat_isSome (n : Nat) : (classOfNat n).isSome = true ↔ n ≤ 2 := by
  match n with
  | 0 | 1 | 2 => simp [classOfNat]
  | n + 3 => simp [classOfNat]

theorem markOfNat_isSome (n : Nat) : (markOfNat n).isSome = true ↔ n ≤ 1 := by
  match n with
  | 0 | 1 => simp [markOfNat]
  | n + 2 => simp [markOfNat]

theorem createFields_iff (r : Sector) (s : State) : createFields r s = true ↔
    recSlot r ≤ 7 ∧ Sector.field r 18 1 ≤ 2 ∧ Sector.field r 19 1 ≤ 1 ∧ Sector.field r 24 1 ≤ 1 := by
  simp only [createFields, Bool.and_eq_true, slotOk_iff, classOfNat_isSome, markOfNat_isSome, and_assoc]

theorem createRingFields_iff (r : Sector) (s : State) : createRingFields r s = true ↔
    recSlot r ≤ 7 ∧ Sector.field r 18 1 ≤ 2 := by
  simp only [createRingFields, Bool.and_eq_true, slotOk_iff, classOfNat_isSome]

theorem rightsFields_iff (r : Sector) (s : State) : rightsFields r s = true ↔
    recSlot r ≤ 7 ∧ Sector.field r 18 1 ≤ 2 ∧ Sector.field r 19 1 ≤ 1 := by
  simp only [rightsFields, Bool.and_eq_true, slotOk_iff, classOfNat_isSome, markOfNat_isSome, and_assoc]

/-- The slot, the class and the two marks of a record with this code, so far as it has them, are in their encodings. -/
structure FieldsEncoded (code : Nat) (r : Sector) : Prop where
  slot : code ≤ 14 → recSlot r ≤ 7
  cls : code = 1 ∨ code = 3 ∨ code = 9 → Sector.field r 18 1 ≤ 2
  expiry : code = 1 ∨ code = 9 → Sector.field r 19 1 ≤ 1
  overwrite : code = 1 → Sector.field r 24 1 ≤ 1

namespace FieldsEncoded

variable {r : Sector} {u : State}

theorem of_create (h : createFields r u = true) : FieldsEncoded 1 r := by
  obtain ⟨hs, hc, he, ho⟩ := (createFields_iff r u).mp h
  exact ⟨fun _ => hs, fun _ => hc, fun _ => he, fun _ => ho⟩

theorem of_createRing (h : createRingFields r u = true) : FieldsEncoded 3 r := by
  obtain ⟨hs, hc⟩ := (createRingFields_iff r u).mp h
  exact ⟨fun _ => hs, fun _ => hc, by omega, by omega⟩

theorem of_rights (h : rightsFields r u = true) : FieldsEncoded 9 r := by
  obtain ⟨hs, hc, he⟩ := (rightsFields_iff r u).mp h
  exact ⟨fun _ => hs, fun _ => hc, fun _ => he, by omega⟩

/-- A command that has a slot alone. -/
theorem of_slot {n : Nat} (hn : n ≠ 1 ∧ n ≠ 3 ∧ n ≠ 9) (h : slotField r u = true) : FieldsEncoded n r :=
  ⟨fun _ => slotOk_iff.mp h, by omega, by omega, by omega⟩

/-- A command on the part as a whole. -/
theorem of_part {n : Nat} (hn : 14 < n) : FieldsEncoded n r := ⟨by omega, by omega, by omega, by omega⟩

end FieldsEncoded

/-- Every control command acts by `runControl`, behind the tests of its record's fields (R194, R195). -/
theorem exec_controlCommand {j : Instr} {row : ControlRow} (hm : (j, row) ∈ controlRows) :
    ∃ ok body, (∀ s, exec j s = act s (runControl row ok body)) ∧ ∀ r u, ok r u = true → FieldsEncoded row.code r := by
  simp only [controlRows, List.mem_cons, Prod.mk.injEq, List.not_mem_nil, or_false] at hm
  rcases hm with ⟨rfl, rfl⟩ | ⟨rfl, rfl⟩ | ⟨rfl, rfl⟩ | ⟨rfl, rfl⟩ | ⟨rfl, rfl⟩ | ⟨rfl, rfl⟩ | ⟨rfl, rfl⟩ | ⟨rfl, rfl⟩ |
    ⟨rfl, rfl⟩ | ⟨rfl, rfl⟩ | ⟨rfl, rfl⟩ | ⟨rfl, rfl⟩ | ⟨rfl, rfl⟩ | ⟨rfl, rfl⟩ | ⟨rfl, rfl⟩ | ⟨rfl, rfl⟩ | ⟨rfl, rfl⟩ |
    ⟨rfl, rfl⟩ | ⟨rfl, rfl⟩ | ⟨rfl, rfl⟩
  · exact ⟨createFields, createBody, fun _ => rfl, fun _ _ => .of_create⟩
  · exact ⟨slotField, openBody, fun _ => rfl, fun _ _ => .of_slot (by decide)⟩
  · exact ⟨createRingFields, createRingBody, fun _ => rfl, fun _ _ => .of_createRing⟩
  · exact ⟨slotField, attachBody, fun _ => rfl, fun _ _ => .of_slot (by decide)⟩
  · exact ⟨slotField, withSlot (needActive sealSlot), fun _ => rfl, fun _ _ => .of_slot (by decide)⟩
  · exact ⟨slotField, withSlot (needActive syncSlot), fun _ => rfl, fun _ _ => .of_slot (by decide)⟩
  · exact ⟨slotField, withSlot (needActive closeSlot), fun _ => rfl, fun _ _ => .of_slot (by decide)⟩
  · exact ⟨slotField, withSlot (needActive deleteSlot), fun _ => rfl, fun _ _ => .of_slot (by decide)⟩
  · exact ⟨rightsFields, withSlot (needActive rightsSlot), fun _ => rfl, fun _ _ => .of_rights⟩
  · exact ⟨slotField, withSlot (needActive ringEmptySlot), fun _ => rfl, fun _ _ => .of_slot (by decide)⟩
  · exact ⟨slotField, withSlot (needActive resumeSlot), fun _ => rfl, fun _ _ => .of_slot (by decide)⟩
  · exact ⟨slotField, withSlot (needActive moveBeginSlot), fun _ => rfl, fun _ _ => .of_slot (by decide)⟩
  · exact ⟨slotField, withSlot (needActive moveCommitSlot), fun _ => rfl, fun _ _ => .of_slot (by decide)⟩
  · exact ⟨slotField, withSlot (needActive moveCancelSlot), fun _ => rfl, fun _ _ => .of_slot (by decide)⟩
  · exact ⟨noFields, setClockBody, fun _ => rfl, fun _ _ _ => .of_part (by decide)⟩
  · exact ⟨policyFields, policyBody, fun _ => rfl, fun _ _ _ => .of_part (by decide)⟩
  · exact ⟨noFields, clearEventsBody, fun _ => rfl, fun _ _ _ => .of_part (by decide)⟩
  · exact ⟨noFields, resumeBody, fun _ => rfl, fun _ _ _ => .of_part (by decide)⟩
  · exact ⟨noFields, formatBody, fun _ => rfl, fun _ _ _ => .of_part (by decide)⟩
  · exact ⟨noFields, sweepBody, fun _ => rfl, fun _ _ _ => .of_part (by decide)⟩

/-! ### No record in hand (notes/assumptions/6.md) -/

theorem handedRecord_none {s : State} {p : Nat → Bool} (h : ∀ tag r, s.handed tag r → p (recCode r) = false) :
    s.handedRecord p = none := by
  unfold State.handedRecord
  split
  · rename_i e he
    obtain ⟨tag, r, st⟩ := e
    refine if_neg fun ⟨hst, hp⟩ => ?_
    dsimp only at hst
    subst hst
    exact ne_true_of_eq_false (h tag r he) hp
  · rfl

section checks

variable {row : ControlRow} {ok : Sector → State → Bool} {body : Sector → State → State} {s : State}
  {tag : Option HostTag} {r : Sector}

theorem act_runControl_none (hr : s.inReset = false) (h : ∀ tag r, s.handed tag r → recCode r ≠ row.code) :
    act s (runControl row ok body) = .next s.quiet := by
  have hnone : s.quiet.handedRecord (fun c => decide (c = row.code)) = none :=
    handedRecord_none fun tag r hh => decide_eq_false (h tag r hh)
  rw [act_running s _ hr]
  unfold runControl
  rw [hnone]

/-! ### Checks 2 to 5 (R195 to R197) -/

/-- A record in hand goes to check 2. -/
theorem act_runControl_inHand (h : s.InHand tag r row.code) :
    act s (runControl row ok body) = .next (pump (authorise row (checkRecord row ok body) r s.quiet)) := by
  have hin : s.quiet.handedRecord (fun c => decide (c = row.code)) = some r :=
    handedRecord_eq h.handed (decide_eq_true h.code)
  rw [act_running s _ h.running]
  unfold runControl
  rw [hin]

/-- A record that passes checks 1 to 3 goes to check 4, an authorised one with the nonce replaced (R196). -/
theorem act_runControl_checked (h : s.InHand tag r row.code) (ha : row.authorised = true → s.authentic r) :
    act s (runControl row ok body) = .next (pump (checkRecord row ok body r (s.base row))) := by
  rw [act_runControl_inHand h]
  unfold authorise
  cases hrow : row.authorised
  · rw [if_neg Bool.false_ne_true, State.base_of_open hrow]
  · obtain ⟨hnonce, hcode⟩ := ha hrow
    rw [if_pos rfl, if_neg (fun e => e hnonce), if_neg (fun e => e hcode), State.base_of_authorised hrow]
    rfl

/-- A violation leaves the record in hand. -/
theorem waiting_violate {st : Stage} (k : Violation) (h : s.waiting tag r st) : (violate k [] s).waiting tag r st :=
  State.waiting_of_executing h (by rw [violate_rest])

theorem waiting_base (row : ControlRow) (h : s.handed tag r) : (s.base row).waiting tag r .handed :=
  State.waiting_of_executing h (State.base_executing s row)

/-- Check 2 fails. -/
theorem answered_stale (h : s.InHand tag r row.code) (ha : row.authorised = true) (hn : recNonce r ≠ s.win.nonce) :
    ∃ u, act s (runControl row ok body) = .next (pump u) ∧
      (violate .staleNonce [] s.quiet).Answered u tag r .stale .none := by
  refine ⟨_, (act_runControl_inHand h).trans ?_, answered_finishControl _ _ (waiting_violate _ (s := s.quiet) h.handed)⟩
  unfold authorise
  rw [if_pos ha, State.quiet_win, if_pos hn]

/-- Check 3 fails. -/
theorem answered_authFail (h : s.InHand tag r row.code) (ha : row.authorised = true) (hn : recNonce r = s.win.nonce)
    (hc : recAuth r ≠ Config.authCode (recCovered r)) :
    ∃ u, act s (runControl row ok body) = .next (pump u) ∧
      (violate .authFail [] s.quiet).Answered u tag r .authFail .none := by
  refine ⟨_, (act_runControl_inHand h).trans ?_, answered_finishControl _ _ (waiting_violate _ (s := s.quiet) h.handed)⟩
  unfold authorise
  rw [if_pos ha, State.quiet_win, if_neg (fun e => e hn), if_pos hc]

/-- The code of a record that differs in one covered byte, or in the listed bytes alone, is wrong for this one (R197). -/
theorem authCode_ne_of_altered {r' : Sector} (hr : recAuth r = Config.authCode (recCovered r'))
    (h : (∃ k, ChangedIn (· = k) (recCovered r') (recCovered r)) ∨
      ChangedIn (listedByte · = true) (recCovered r') (recCovered r)) : recAuth r ≠ Config.authCode (recCovered r) := by
  rw [hr]
  rcases h with ⟨k, h⟩ | h
  · exact Config.authCode_byteChanged k h
  · exact Config.authCode_fieldChanged h

/-- Check 4 fails. -/
theorem answered_lockdown (h : s.InHand tag r row.code) (ha : row.authorised = true → s.authentic r)
    (hm : s.mon.state = .lockdown) (hl : row.inLockdown = false) :
    ∃ u, act s (runControl row ok body) = .next (pump u) ∧ (s.base row).Answered u tag r .lockdown .none := by
  refine ⟨_, (act_runControl_checked h ha).trans ?_, answered_finishControl _ _ (waiting_base row h.handed)⟩
  unfold checkRecord
  rw [State.base_mon, if_pos ⟨hm, hl⟩]

/-- Check 5 fails. -/
theorem answered_unformatted (h : s.InHand tag r row.code) (ha : row.authorised = true → s.authentic r)
    (hm : s.mon.state = .lockdown → row.inLockdown = true) (hp : s.phase ≠ .ready) (hu : row.inUnformatted = false) :
    ∃ u, act s (runControl row ok body) = .next (pump u) ∧ (s.base row).Answered u tag r .unformatted .none := by
  refine ⟨_, (act_runControl_checked h ha).trans ?_, answered_finishControl _ _ (waiting_base row h.handed)⟩
  unfold checkRecord
  rw [State.base_mon, State.base_phase, if_neg fun e => ne_true_of_eq_false e.2 (hm e.1), if_pos ⟨hp, hu⟩]

/-- Check 6 fails. -/
theorem answered_badParam (h : s.Passes row tag r) (hok : ok r (s.base row) = false) :
    ∃ u, act s (runControl row ok body) = .next (pump u) ∧ (s.base row).Answered u tag r .badParam .none :=
  ⟨_, act_runControl_badParam h hok, answered_finishControl _ _ h.waiting_base⟩

end checks

/-- A code that no command has (R195, check 1). -/
theorem exec_unknownCommandCode {s : State} {tag : Option HostTag} {r : Sector} (hr : s.inReset = false)
    (hh : s.handed tag r) (hc : recCode r = 0 ∨ 20 < recCode r) :
    exec .unknownCommandCode s = .next (pump (finishControl .badParam .none s.quiet)) := by
  have hin : s.quiet.handedRecord (fun c => decide (c = 0) || decide (20 < c)) = some r :=
    handedRecord_eq hh (by simpa using hc)
  change execUnknownCommandCode s = _
  unfold execUnknownCommandCode
  rw [act_running s _ hr, hin]

/-- Settles O49: check by check, on the state that the checks before it leave. -/
theorem recordsChecked : Obligations.RecordsChecked := by
  refine ⟨fun s tag r hr hh hc => ?_, fun s r => ⟨createFields_iff r s, createRingFields_iff r s, rightsFields_iff r s⟩,
    fun j row hm => ?_⟩
  · exact ⟨_, exec_unknownCommandCode hr hh hc, answered_finishControl _ _ hh⟩
  · obtain ⟨ok, body, hexec, hok⟩ := exec_controlCommand hm
    refine ⟨fun s tag r h => ?_, fun s hr h => by rw [hexec]; exact act_runControl_none hr h⟩
    intro answered
    have stale (ha : row.authorised = true) (hn : recNonce r ≠ s.win.nonce) :
        answered (violate .staleNonce [] s.quiet) .stale := by
      simp only [answered, hexec]; exact answered_stale h ha hn
    have authFail (ha : row.authorised = true) (hn : recNonce r = s.win.nonce)
        (hc : recAuth r ≠ Config.authCode (recCovered r)) : answered (violate .authFail [] s.quiet) .authFail := by
      simp only [answered, hexec]; exact answered_authFail h ha hn hc
    refine ⟨stale, authFail, fun r' ha hcode halt => ?_, fun ha => ⟨fun hl hrow => ?_, fun hl hp hrow => ?_,
      fun hl hp => ?_⟩⟩
    · have hc := authCode_ne_of_altered hcode halt
      split
      · rename_i hn; exact authFail ha hn hc
      · rename_i hn; exact stale ha hn
    · simp only [answered, hexec]; exact answered_lockdown h ha hl hrow
    · simp only [answered, hexec]; exact answered_unformatted h ha hl hp hrow
    · have hpass : s.Passes row tag r := ⟨h, ha, fun e hs => ne_true_of_eq_false e (hl hs), fun e =>
        by_contra fun hs => ne_true_of_eq_false e (hp hs)⟩
      have badParam (hbad : ¬ FieldsEncoded row.code r) : answered (s.base row) .badParam := by
        simp only [answered, hexec]
        exact answered_badParam hpass (Bool.eq_false_iff.mpr fun e => hbad (hok _ _ e))
      exact ⟨fun hn hb => badParam fun e => absurd (e.slot hn) (by omega),
        fun hn hb => badParam fun e => absurd (e.cls hn) (by omega),
        fun hn hb => badParam fun e => absurd (e.expiry hn) (by omega),
        fun hn hb => badParam fun e => absurd (e.overwrite hn) (by omega)⟩

end Sys2Proof.Machine
end

section
/-!
O1 and O2. The queue, and which commands have a meaning: a step takes the front of the queue, a well-formed command acts,
and an ill-formed one is refused by name.
-/

namespace Sys2Proof.Machine

/-- The part idles on an empty queue. -/
theorem step_of_empty {s : State} (h : s.pending = []) : step s = .next s := by
  unfold step; rw [h]

/-- The front of the queue acts on the state with the queue's rest. -/
theorem step_of_front {c : Instr} {rest : List Instr} {s : State} (h : s.pending = c :: rest) :
    step s = exec c { s with pending := rest } := by
  unfold step; rw [h]

/-- Settles O1: the two cases of the queue. -/
theorem stepRunsTheFront : Obligations.StepRunsTheFront :=
  ⟨fun _ _ _ h => step_of_front h, fun _ h => step_of_empty h⟩

/-- A well-formed command gets a next state: the two of RESET_N by their own meaning, every other one through `act`. -/
theorem exec_of_wellFormed {c : Instr} (s : State) (hw : c.WellFormed = true) : ∃ t, exec c s = .next t := by
  by_cases h1 : c = .hardReset
  · subst h1; exact ⟨_, exec_hardReset s⟩
  by_cases h2 : c = .resetRelease
  · subst h2; exact ⟨_, rfl⟩
  obtain ⟨f, hf⟩ := exec_eq_act s hw h1 h2
  exact ⟨_, hf⟩

/-- Only the six commands with bounds on their operands can be ill-formed (R71, R88, R91, R114); each is refused under its
own name. -/
theorem exec_of_illFormed {c : Instr} (s : State) (hw : c.WellFormed = false) :
    ∃ name, exec c s = .refused (.illFormed name) := by
  have hn : ¬ c.WellFormed = true := ne_true_of_eq_false hw
  cases c with
  | hostRead t lba count => exact ⟨_, if_neg (c := countOk count = true) hn⟩
  | hostWrite t lba count => exact ⟨_, if_neg (c := countOk count = true) hn⟩
  | deallocateRangeSector ranges => exact ⟨_, if_neg (c := rangesOk ranges = true) hn⟩
  | pass t words data => exact ⟨_, if_neg (c := passOk data = true) hn⟩
  | unitReceived data => exact ⟨_, if_neg (c := transferOk data = true) hn⟩
  | unitTaken data => exact ⟨_, if_neg (c := transferOk data = true) hn⟩
  | _ => exact absurd rfl hn

/-- Settles O2: by whether the command's operands keep their bounds. -/
theorem everyCommandAnswers : Obligations.EveryCommandAnswers :=
  fun _ s => ⟨exec_of_wellFormed s, exec_of_illFormed s⟩

end Sys2Proof.Machine
end
